-- ==== Sys2Proof/Word.lean ====
section
/-! DEFINITION. The word types of the HB-420: bytes of frames and records. -/

namespace Sys2Proof

/-- A byte of a frame, a record or a console line. -/
abbrev Byte := BitVec 8

/-- A run of bytes, first byte first (a frame body, a settings record, a label). -/
abbrev Bytes := List Byte

end Sys2Proof
end

