-- ==== Sys2Proof/Machine/Bytes.lean ====
section
/-! DEFINITION. Bytes and multi-byte fields: chapter 12 sends every multi-byte field least significant byte first. -/

namespace Sys2Proof.Machine

/-- The byte at an offset of a layout; a layout shorter than the offset reads 0 there. -/
def byteAt (b : Bytes) (i : Nat) : Byte := b.getD i 0

/-- The number spelled by bytes, least significant byte first (chapter 12). -/
def leNat : Bytes → Nat
  | [] => 0
  | b :: bs => b.toNat + 256 * leNat bs

/-- The field of `n` bytes at an offset (chapter 12). -/
def field (b : Bytes) (off n : Nat) : Nat := leNat ((b.drop off).take n)

/-- A number as a field of `n` bytes, least significant byte first (chapter 12). -/
def le : Nat → Nat → Bytes
  | 0, _ => []
  | n + 1, v => BitVec.ofNat 8 v :: le n (v / 256)

/-- A number in one byte. -/
def byte (v : Nat) : Byte := BitVec.ofNat 8 v

/-- A yes/no field (12.2). -/
def yn (b : Bool) : Byte := if b then 1 else 0

/-- A field that may hold "none", all of whose bytes are then 0xFF (chapter 12). -/
def leOrNone (n : Nat) : Option Nat → Bytes
  | some v => le n v
  | none => List.replicate n 0xFF

/-- Bytes followed by zeros up to `n` bytes (12.5, 12.6). -/
def padTo (n : Nat) (b : Bytes) : Bytes := b ++ List.replicate (n - b.length) 0

/-- A yes/no field on receipt: a byte other than 0 and 1 is none of its values (R135; notes/assumptions/8.md). -/
def ynOf (b : Byte) : Option Bool := if b = 0 then some false else if b = 1 then some true else none

/-- An index field on receipt: none where it lies above its range. -/
def indexOf (n : Nat) (b : Byte) : Option (Fin n) := if h : b.toNat < n then some ⟨b.toNat, h⟩ else none

/-- A value marked "clamps" (R135): the nearer limit of its range. -/
def clamp (lo hi v : Nat) : Nat := max lo (min hi v)

/-- The quotient rounded up: ceil(a / b) (00_scope.md, "Numbers and units"). -/
def ceilDiv (a b : Nat) : Nat := (a + b - 1) / b

end Sys2Proof.Machine
end

