-- ==== Sys2Proof/Syntax.lean ====
section
/-! DEFINITION. The commands of the HB-420: one constructor of `Instr` per row of spec/opcode_table.json, and the
operands they carry. A request carries what its frame carries (12.6): the tag, single fields at their width on the
wire, and settings records as the bytes of their layout. An event of the part itself carries the instance it
happens at. -/

namespace Sys2Proof

/-- An input pin of the part (00_scope.md, "Banks"; R71, R72): what the outside world can drive. -/
inductive Pin where
  /-- the pin of monitor channel `c` -/
  | mc (c : Fin 24)
  /-- the code port's strobe STB -/
  | stb
  /-- the code port's data line D`k` -/
  | data (k : Fin 8)
  /-- the receive line of console port `p` -/
  | rx (p : Fin 2)
  /-- the scan port's TDO -/
  | tdo
  /-- the reference pin of bank `b` -/
  | ref (b : Fin 4)
deriving DecidableEq, Repr

/-- One entry of the request queue (R133): a complete frame, or the ERROR entry queued in place of a broken one.
The status and spare bytes of a request are ignored, so a frame is its kind, its tag and its body. -/
inductive Entry where
  | frame (kind tag : Byte) (body : Bytes)
  | error
deriving DecidableEq, Repr

/-- Bytes that arrive on the OUT pipe (R133), the next ones of the stream; `ends` says that the last of them ends its
USB transfer. -/
structure OutBytes where
  bytes : Bytes
  ends : Bool
deriving DecidableEq, Repr

/-- The direction of a console fragment (R107, R109). -/
inductive TextDir where
  | rx
  | tx
deriving DecidableEq, Repr

/-- The commands: one constructor per row of spec/opcode_table.json, in the table's order. -/
inductive Instr where
  /-- POR (R18): power-on of the part. -/
  | por
  /-- PIN_RESET (R18): RESET_N driven low. -/
  | pinReset
  /-- SOFT_RESET (R138): the reset that a sent RESET_PROBE reply leaves to act. -/
  | softReset
  /-- LINK_RESET (R138): a USB bus reset, or the detach of the part when `detach`. -/
  | linkReset (detach : Bool)
  /-- FRAME_RECEIVE (R133): `bytes` arrive on the OUT pipe. -/
  | frameReceive (bytes : OutBytes)
  /-- ERROR_ENTRY (R133): `bytes` arrive that bring a bad length field. -/
  | errorEntry (bytes : OutBytes)
  /-- UNKNOWN_KIND (R133): a frame of unknown kind is taken. -/
  | unknownKind (kind tag : Byte) (body : Bytes)
  /-- MALFORMED (R133): a frame of wrong body length, or an ERROR entry, is taken. -/
  | malformed (e : Entry)
  /-- REPLY_SEND (R134): the reply is written whole to the IN pipe. -/
  | replySend
  /-- NOTICE_SEND (R137): the waiting notice is sent. -/
  | noticeSend
  /-- IDENTIFY (R135). -/
  | identify (tag : Byte)
  /-- RESET_PROBE (R138). -/
  | resetProbe (tag : Byte)
  /-- FLAGS_QUERY (R136). -/
  | flagsQuery (tag : Byte)
  /-- FLAGS_ENABLE (R136). -/
  | flagsEnable (tag : Byte) (mask : BitVec 16)
  /-- FLAGS_CLEAR (R136). -/
  | flagsClear (tag : Byte) (mask : BitVec 16)
  /-- RUNSET_PUT (R2): the 12-byte run settings record. -/
  | runsetPut (tag : Byte) (settings : Bytes)
  /-- RUNSET_GET (R3). -/
  | runsetGet (tag copy : Byte)
  /-- ARM (R5). -/
  | arm (tag : Byte)
  /-- START (R8). -/
  | start (tag : Byte)
  /-- ABORT (R14). -/
  | abort (tag : Byte)
  /-- RUN_QUERY (R17). -/
  | runQuery (tag : Byte)
  /-- PLAN_PUT (R24): entry number, used byte, and the 36-byte step entry (or none). -/
  | planPut (tag entry used : Byte) (step : Bytes)
  /-- PLAN_GET (R25). -/
  | planGet (tag entry copy : Byte)
  /-- PLAN_WIPE (R26). -/
  | planWipe (tag : Byte)
  /-- STORE_SET (R56): the 6-byte store settings record. -/
  | storeSet (tag : Byte) (settings : Bytes)
  /-- STORE_QUERY (R69). -/
  | storeQuery (tag : Byte)
  /-- FETCH (R66). -/
  | fetch (tag : Byte) (from_ : BitVec 48) (max : BitVec 16)
  /-- RELEASE (R67). -/
  | release (tag : Byte) (seq : BitVec 48)
  /-- TRIGGER (R63). -/
  | trigger (tag : Byte)
  /-- MARK (R68): the 16-byte label. -/
  | mark (tag : Byte) (label : Bytes)
  /-- BANK_SET (R77): the bank and the 16-byte bank settings record. -/
  | bankSet (tag bank : Byte) (settings : Bytes)
  /-- ACQUIRE (R76). -/
  | acquire (tag bank : Byte)
  /-- BANK_QUERY (R78). -/
  | bankQuery (tag bank : Byte)
  /-- CHAN_SET (R82): the channel and the 7 bytes of its settings. -/
  | chanSet (tag channel : Byte) (settings : Bytes)
  /-- CHAN_QUERY (R87). -/
  | chanQuery (tag : Byte)
  /-- RATE_SET (R89): the monitor and the 14-byte rate settings record. -/
  | rateSet (tag monitor : Byte) (settings : Bytes)
  /-- RATE_QUERY (R95). -/
  | rateQuery (tag monitor : Byte)
  /-- CODE_SET (R101): the 10-byte code port settings record. -/
  | codeSet (tag : Byte) (settings : Bytes)
  /-- CODE_HISTORY (R102) with a clear option other than yes. -/
  | codeHistory (tag option : Byte)
  /-- CODE_HISTORY (R102) with the clear option yes. -/
  | codeHistoryClear (tag : Byte)
  /-- CONS_SET (R104): the port and the 5-byte console settings record. -/
  | consSet (tag port : Byte) (settings : Bytes)
  /-- CONS_SEND (R108): the port and the bytes; the byte count of the frame is their number. -/
  | consSend (tag port : Byte) (bytes : Bytes)
  /-- CONS_QUERY (R111). -/
  | consQuery (tag port : Byte)
  /-- MATCH_SET (R114): the matcher and the 36-byte matcher settings record. -/
  | matchSet (tag matcher : Byte) (settings : Bytes)
  /-- MATCH_QUERY (R114). -/
  | matchQuery (tag matcher : Byte)
  /-- DRIVE_SET (R118) with operation NONE, or with an operation byte `op` that is none of the six. -/
  | driveSetNone (tag channel op : Byte) (part : Bytes)
  /-- DRIVE_SET (R118) with operation RELEASE. -/
  | driveSetRelease (tag channel : Byte) (part : Bytes)
  /-- DRIVE_SET (R118) with operation LOW. -/
  | driveSetLow (tag channel : Byte) (part : Bytes)
  /-- DRIVE_SET (R118) with operation HIGH. -/
  | driveSetHigh (tag channel : Byte) (part : Bytes)
  /-- DRIVE_SET (R118) with operation START_PULSE. -/
  | driveSetStartPulse (tag channel : Byte) (part : Bytes)
  /-- DRIVE_SET (R118) with operation STOP_PULSE. -/
  | driveSetStopPulse (tag channel : Byte) (part : Bytes)
  /-- DRIVE_QUERY (R122). -/
  | driveQuery (tag channel : Byte)
  /-- PERMIT_SET (R121). -/
  | permitSet (tag mask : Byte)
  /-- PERMIT_LOCK (R121). -/
  | permitLock (tag : Byte)
  /-- SCAN_CONFIG (R123): the 4-byte port settings record. -/
  | scanConfig (tag : Byte) (settings : Bytes)
  /-- TEMPLATE_PUT (R126): template number, used byte, and the 196-byte job body (or none). -/
  | templatePut (tag template used : Byte) (body : Bytes)
  /-- TEMPLATE_GET (R126). -/
  | templateGet (tag template copy : Byte)
  /-- SCAN_SUBMIT (R127): the job's tag and its 196-byte body. -/
  | scanSubmit (tag job : Byte) (body : Bytes)
  /-- SCAN_CANCEL (R129). -/
  | scanCancel (tag job : Byte)
  /-- SCAN_RESULT (R132): the class and the tag or template number. -/
  | scanResult (tag cls number : Byte)
  /-- SCAN_QUERY (R132). -/
  | scanQuery (tag : Byte)
  /-- ARM_TIMEOUT (R11). -/
  | armTimeout
  /-- LIMIT_EXPIRY (R12). -/
  | limitExpiry
  /-- END_REQUEST (R13): the RC takes the oldest end request of the STE. -/
  | endRequest
  /-- EVENT_DELIVERY (R32): the STE takes the `k`-th waiting event. -/
  | eventDelivery (k : Nat)
  /-- DECISION_TIME (R37). -/
  | decisionTime
  /-- RECORD_TAKE (R52): the TS takes the `k`-th waiting record, or accepts the GAP that goes ahead of it (R61, R62). -/
  | recordTake (k : Nat)
  /-- INTERVAL_START (R74). -/
  | intervalStart (b : Fin 4)
  /-- ACQUISITION_END (R73). -/
  | acquisitionEnd (b : Fin 4)
  /-- RAW_INPUT_CHANGE (R83): the outside world moves an input pin to `mv` millivolts. -/
  | rawInputChange (pin : Pin) (mv : Nat)
  /-- TRANSITION_ACCEPTED (R84). -/
  | transitionAccepted (c : Fin 24)
  /-- BLANKING_END (R85). -/
  | blankingEnd (c : Fin 24)
  /-- TACH_FALLING_EDGE (R91). -/
  | tachFallingEdge (m : Fin 4)
  /-- STALL_EXPIRY (R91). -/
  | stallExpiry (m : Fin 4)
  /-- GATE_END (R92). -/
  | gateEnd (m : Fin 4)
  /-- STROBE_EDGE (R96). -/
  | strobeEdge
  /-- STROBE_BLANKING_END (R96). -/
  | strobeBlankingEnd
  /-- FOLD_TIMER_EXPIRY (R97). -/
  | foldTimerExpiry
  /-- WAIT_IDLE_EXPIRY (R105). -/
  | waitIdleExpiry (p : Fin 2)
  /-- START_EDGE (R105). -/
  | startEdge (p : Fin 2)
  /-- START_BIT_GLITCH (R105). -/
  | startBitGlitch (p : Fin 2)
  /-- BYTE_ARRIVAL (R105). -/
  | byteArrival (p : Fin 2)
  /-- HELD_FRAME_TAKEN (R105). -/
  | heldFrameTaken (p : Fin 2)
  /-- BREAK (R106). -/
  | breakSeen (p : Fin 2)
  /-- WAIT_HIGH_RECOVERY (R105). -/
  | waitHighRecovery (p : Fin 2)
  /-- IDLE_GAP_EXPIRY (R107) of the port's fragment in direction `d`. -/
  | idleGapExpiry (p : Fin 2) (d : TextDir)
  /-- BYTE_SEND_TIME (R109). -/
  | byteSendTime (p : Fin 2)
  /-- BYTE_SENT (R109). -/
  | byteSent (p : Fin 2)
  /-- GENERATOR_ACTIVE_LEVEL (R116). -/
  | generatorActiveLevel (c : Fin 8)
  /-- PERIOD_END (R116). -/
  | periodEnd (c : Fin 8)
  /-- OPERATION_END (R125). -/
  | operationEnd
deriving DecidableEq, Repr

end Sys2Proof
end

