-- ==== Sys2Proof/Decode.lean ====
section
/-! DEFINITION. Frames and commands (R133, 12.1, 12.6): which kinds are known, which body lengths a kind allows, the
command that an entry of the request queue stands for, and the frame that a request command stands for. The opcode
table gives no row any bits, so `decodeTableWord` reads none. -/

namespace Sys2Proof

open Machine (byteAt field le byte padTo)

/-- The kinds of 12.1 that a request may carry. NOTICE 0x80 and ERROR 0x81 are not among them. -/
def kindKnown (k : Byte) : Bool :=
  [0x01, 0x02, 0x03, 0x04, 0x05, 0x10, 0x11, 0x12, 0x13, 0x14, 0x15, 0x18, 0x19, 0x1A, 0x20, 0x21, 0x22, 0x23, 0x24,
   0x25, 0x30, 0x31, 0x32, 0x38, 0x39, 0x3A, 0x3B, 0x40, 0x41, 0x48, 0x49, 0x4A, 0x4B, 0x4C, 0x50, 0x51, 0x52, 0x53,
   0x60, 0x61, 0x62, 0x63, 0x64, 0x65, 0x66].contains k.toNat

/-- R133, 12.3, 12.6: whether a kind allows this body's length. A used PLAN_PUT or TEMPLATE_PUT needs its record, and
the byte count of CONS_SEND states the body's length. DESIGN CHOICE: STORE_QUERY (0x21), whose request body 12.3 and 12.6
do not lay out, allows the empty body alone (notes/assumptions/45.md). -/
def bodyAllowed (k : Byte) (b : Bytes) : Bool :=
  match k.toNat with
  | 0x01 | 0x02 | 0x03 | 0x12 | 0x13 | 0x14 | 0x15 | 0x1A | 0x21 | 0x24 | 0x39 | 0x53 | 0x66 => b.length = 0
  | 0x04 | 0x05 | 0x19 | 0x62 | 0x65 => b.length = 2
  | 0x11 | 0x31 | 0x32 | 0x3B | 0x41 | 0x4A | 0x4C | 0x51 | 0x52 | 0x64 => b.length = 1
  | 0x10 => b.length = 12
  | 0x18 => b.length = 38 || (b.length = 2 && byteAt b 1 != 1)
  | 0x20 | 0x23 | 0x48 => b.length = 6
  | 0x22 | 0x38 => b.length = 8
  | 0x25 => b.length = 16
  | 0x30 => b.length = 17
  | 0x3A => b.length = 15
  | 0x40 => b.length = 10
  | 0x49 => 2 ≤ b.length && b.length = 2 + (byteAt b 1).toNat
  | 0x4B => b.length = 37
  | 0x50 => b.length = 2 || b.length = 12
  | 0x60 => b.length = 4
  | 0x61 => b.length = 198 || (b.length = 2 && byteAt b 1 != 1)
  | 0x63 => b.length = 198
  | _ => false

/-- The request that a frame of known kind and allowed body length carries (12.6). -/
def requestOf (k t : Byte) (b : Bytes) : Instr :=
  match k.toNat with
  | 0x01 => .identify t
  | 0x02 => .resetProbe t
  | 0x03 => .flagsQuery t
  | 0x04 => .flagsEnable t (BitVec.ofNat 16 (field b 0 2))
  | 0x05 => .flagsClear t (BitVec.ofNat 16 (field b 0 2))
  | 0x10 => .runsetPut t b
  | 0x11 => .runsetGet t (byteAt b 0)
  | 0x12 => .arm t
  | 0x13 => .start t
  | 0x14 => .abort t
  | 0x15 => .runQuery t
  | 0x18 => .planPut t (byteAt b 0) (byteAt b 1) (b.drop 2)
  | 0x19 => .planGet t (byteAt b 0) (byteAt b 1)
  | 0x1A => .planWipe t
  | 0x20 => .storeSet t b
  | 0x21 => .storeQuery t
  | 0x22 => .fetch t (BitVec.ofNat 48 (field b 0 6)) (BitVec.ofNat 16 (field b 6 2))
  | 0x23 => .release t (BitVec.ofNat 48 (field b 0 6))
  | 0x24 => .trigger t
  | 0x25 => .mark t b
  | 0x30 => .bankSet t (byteAt b 0) (b.drop 1)
  | 0x31 => .acquire t (byteAt b 0)
  | 0x32 => .bankQuery t (byteAt b 0)
  | 0x38 => .chanSet t (byteAt b 0) (b.drop 1)
  | 0x39 => .chanQuery t
  | 0x3A => .rateSet t (byteAt b 0) (b.drop 1)
  | 0x3B => .rateQuery t (byteAt b 0)
  | 0x40 => .codeSet t b
  | 0x41 => if byteAt b 0 = 1 then .codeHistoryClear t else .codeHistory t (byteAt b 0)
  | 0x48 => .consSet t (byteAt b 0) (b.drop 1)
  | 0x49 => .consSend t (byteAt b 0) (b.drop 2)
  | 0x4A => .consQuery t (byteAt b 0)
  | 0x4B => .matchSet t (byteAt b 0) (b.drop 1)
  | 0x4C => .matchQuery t (byteAt b 0)
  | 0x50 =>
    match (byteAt b 1).toNat with
    | 0 => .driveSetRelease t (byteAt b 0) (b.drop 2)
    | 1 => .driveSetLow t (byteAt b 0) (b.drop 2)
    | 2 => .driveSetHigh t (byteAt b 0) (b.drop 2)
    | 3 => .driveSetStartPulse t (byteAt b 0) (b.drop 2)
    | 4 => .driveSetStopPulse t (byteAt b 0) (b.drop 2)
    | _ => .driveSetNone t (byteAt b 0) (byteAt b 1) (b.drop 2)
  | 0x51 => .driveQuery t (byteAt b 0)
  | 0x52 => .permitSet t (byteAt b 0)
  | 0x53 => .permitLock t
  | 0x60 => .scanConfig t b
  | 0x61 => .templatePut t (byteAt b 0) (byteAt b 1) (b.drop 2)
  | 0x62 => .templateGet t (byteAt b 0) (byteAt b 1)
  | 0x63 => .scanSubmit t (byteAt b 0) (b.drop 2)
  | 0x64 => .scanCancel t (byteAt b 0)
  | 0x65 => .scanResult t (byteAt b 0) (byteAt b 1)
  | 0x66 => .scanQuery t
  | _ => .unknownKind k t b

/-- The command by which the part takes an entry of the request queue (R133, R134). -/
def Entry.command : Entry → Instr
  | .error => .malformed .error
  | .frame k t b =>
    if !kindKnown k then .unknownKind k t b
    else if !bodyAllowed k b then .malformed (.frame k t b)
    else requestOf k t b

/-- The frame a request command stands for (12.1, 12.6), and the entry the two error rows take; none for the commands
that take no entry of the request queue. -/
def Instr.entry : Instr → Option Entry
  | .unknownKind k t b => some (.frame k t b)
  | .malformed e => some e
  | .identify t => some (.frame 0x01 t [])
  | .resetProbe t => some (.frame 0x02 t [])
  | .flagsQuery t => some (.frame 0x03 t [])
  | .flagsEnable t m => some (.frame 0x04 t (le 2 m.toNat))
  | .flagsClear t m => some (.frame 0x05 t (le 2 m.toNat))
  | .runsetPut t b => some (.frame 0x10 t b)
  | .runsetGet t c => some (.frame 0x11 t [c])
  | .arm t => some (.frame 0x12 t [])
  | .start t => some (.frame 0x13 t [])
  | .abort t => some (.frame 0x14 t [])
  | .runQuery t => some (.frame 0x15 t [])
  | .planPut t e u b => some (.frame 0x18 t (e :: u :: b))
  | .planGet t e c => some (.frame 0x19 t [e, c])
  | .planWipe t => some (.frame 0x1A t [])
  | .storeSet t b => some (.frame 0x20 t b)
  | .storeQuery t => some (.frame 0x21 t [])
  | .fetch t f m => some (.frame 0x22 t (le 6 f.toNat ++ le 2 m.toNat))
  | .release t q => some (.frame 0x23 t (le 6 q.toNat))
  | .trigger t => some (.frame 0x24 t [])
  | .mark t l => some (.frame 0x25 t l)
  | .bankSet t k b => some (.frame 0x30 t (k :: b))
  | .acquire t k => some (.frame 0x31 t [k])
  | .bankQuery t k => some (.frame 0x32 t [k])
  | .chanSet t c b => some (.frame 0x38 t (c :: b))
  | .chanQuery t => some (.frame 0x39 t [])
  | .rateSet t m b => some (.frame 0x3A t (m :: b))
  | .rateQuery t m => some (.frame 0x3B t [m])
  | .codeSet t b => some (.frame 0x40 t b)
  | .codeHistory t o => some (.frame 0x41 t [o])
  | .codeHistoryClear t => some (.frame 0x41 t [1])
  | .consSet t p b => some (.frame 0x48 t (p :: b))
  | .consSend t p b => some (.frame 0x49 t (p :: byte b.length :: b))
  | .consQuery t p => some (.frame 0x4A t [p])
  | .matchSet t m b => some (.frame 0x4B t (m :: b))
  | .matchQuery t m => some (.frame 0x4C t [m])
  | .driveSetNone t c o b => some (.frame 0x50 t (c :: o :: b))
  | .driveSetRelease t c b => some (.frame 0x50 t (c :: 0 :: b))
  | .driveSetLow t c b => some (.frame 0x50 t (c :: 1 :: b))
  | .driveSetHigh t c b => some (.frame 0x50 t (c :: 2 :: b))
  | .driveSetStartPulse t c b => some (.frame 0x50 t (c :: 3 :: b))
  | .driveSetStopPulse t c b => some (.frame 0x50 t (c :: 4 :: b))
  | .driveQuery t c => some (.frame 0x51 t [c])
  | .permitSet t m => some (.frame 0x52 t [m])
  | .permitLock t => some (.frame 0x53 t [])
  | .scanConfig t b => some (.frame 0x60 t b)
  | .templatePut t n u b => some (.frame 0x61 t (n :: u :: b))
  | .templateGet t n c => some (.frame 0x62 t [n, c])
  | .scanSubmit t j b => some (.frame 0x63 t (j :: 0 :: b))
  | .scanCancel t j => some (.frame 0x64 t [j])
  | .scanResult t c n => some (.frame 0x65 t [c, n])
  | .scanQuery t => some (.frame 0x66 t [])
  | .por | .pinReset | .softReset | .linkReset _ | .frameReceive _ | .errorEntry _ | .replySend | .noticeSend => none
  | .armTimeout | .limitExpiry | .endRequest | .eventDelivery _ | .decisionTime | .recordTake _ => none
  | .intervalStart _ | .acquisitionEnd _ | .rawInputChange _ _ | .transitionAccepted _ | .blankingEnd _ => none
  | .tachFallingEdge _ | .stallExpiry _ | .gateEnd _ | .strobeEdge | .strobeBlankingEnd | .foldTimerExpiry => none
  | .waitIdleExpiry _ | .startEdge _ | .startBitGlitch _ | .byteArrival _ | .heldFrameTaken _ | .breakSeen _ => none
  | .waitHighRecovery _ | .idleGapExpiry _ _ | .byteSendTime _ | .byteSent _ => none
  | .generatorActiveLevel _ | .periodEnd _ | .operationEnd => none

/-- R133: the frame of a request command has a body length that its kind allows. -/
def Instr.bodyOk (c : Instr) : Bool :=
  match c.entry with
  | some (.frame k _ b) => bodyAllowed k b
  | _ => true

/-- The bytes of a frame on the wire (12.1): length, kind, tag, status, a spare byte, body. -/
def frameBytes (kind tag status : Byte) (body : Bytes) : Bytes :=
  le 2 (6 + body.length) ++ [kind, tag, status, 0] ++ body

/-- The opcode table gives no row of this block any bits: no word spells a command. -/
def decodeTableWord (_nbits _w : Nat) : Option Instr := none

end Sys2Proof
end

