-- ==== Sys2Proof/Config.lean ====
section
/-! DEFINITION. What the manual fixes once for the part (00_scope.md, 12.3, 12.6), and the two free values: the order
in which the part takes things that the manual lets it take in either order, and a comparison taken on noise. -/

namespace Sys2Proof.Config

/-- 100 ticks of the 100 MHz core clock are one microsecond (00_scope.md, "Tick"). -/
def ticksPerUs : Nat := 100

/-- One millisecond is 100,000 ticks (00_scope.md, "Tick"). -/
def ticksPerMs : Nat := 100000

/-- The core clock in Hz (00_scope.md; R105 counts bit times in its ticks). -/
def coreHz : Nat := 100000000

/-- A comparator code stands for this many millivolts (R71, R72). -/
def mvPerCode : Nat := 14

/-- Record space in units of 8 bytes (4.1). -/
def storeUnits : Nat := 32768

/-- The ceiling of an ordinary record: the space less the reserve of 6 units (R51). -/
def ordinaryCeiling : Nat := 32762

/-- The ceiling of a GAP record (R51). -/
def gapCeiling : Nat := 32765

/-- Entries of the look-back list (R33). -/
def lookbackMax : Nat := 64

/-- Length of a blanking of a monitor channel or of the strobe, in ticks (R85, R96). -/
def blankingTicks : Nat := 200

/-- Length of a CLOCK gate in ticks (R92). -/
def gateTicks : Nat := 100000

/-- Ticks of a minute, the numerator of a TACH reading (R91). -/
def minuteTicks : Nat := 6000000000

/-- Waiting jobs the scan queue holds, and results the result list holds (R127, R131). -/
def scanQueueMax : Nat := 16

/-- Code history entries (R98). -/
def historyMax : Nat := 16

/-- The ceiling of a code history entry's count (R98). -/
def codeCountMax : Nat := 65535

/-- Text bytes of a fragment (R107). -/
def fragmentMax : Nat := 56

/-- Bytes of a console transmit queue (R108). -/
def transmitMax : Nat := 256

/-- The ceiling of the discard count (R110). -/
def discardMax : Nat := 4294967295

/-- Request queue entries (R134). -/
def requestQueueMax : Nat := 4

/-- Vendor code of IDENTIFY (R135). -/
def vendorCode : Nat := 0x5544

/-- Part code of IDENTIFY (R135). -/
def partCode : Nat := 0x0420

/-- Revision of IDENTIFY (R135). -/
def revision : Nat := 1

/-- FREE VALUE. Where several things are ready for the part to take at one moment and the manual says that either
may be taken first (00_scope.md, "Taken together"), `choose n` names the one taken, `n` counting the choices made
so far; and where an end of a run is taken with an evaluation pass in hand, it names the pass and the place in it (R15).
It has no body: nothing can be proved of it (notes/assumptions/3.md, 48.md). -/
opaque choose : Nat → Nat

/-- FREE VALUE. Whether the comparator of a bank samples a reference exactly at the trial voltage as above it, which 5.2
says is taken on noise: `noise bank choices tick` names it by the bank, the count of choices made so far and the tick. It
has no body: nothing can be proved of it (notes/assumptions/37.md). -/
opaque noise : Fin 4 → Nat → Nat → Bool

end Sys2Proof.Config
end

