-- ==== Sys2Proof/Machine/Blocks.lean ====
section
/-! DEFINITION. The state of each block of the HB-420 as plain data: the names and values of 12.2, the settings
records of the chapters, events, trace records, and one structure per block. -/

namespace Sys2Proof.Machine

/-! ## Names used by several blocks (12.2) -/

/-- Run states (R1). -/
inductive RunState where
  | idle | armed | running | ended
deriving DecidableEq, Repr

/-- Direction of an edge (12.2). -/
inductive Dir where
  | rising | falling
deriving DecidableEq, Repr

/-- End causes (1.6). -/
inductive EndCause where
  | allResolved | limit | endAction | stopOnFail | abort | armTimeout
deriving DecidableEq, Repr

/-- Verdicts (R16). -/
inductive Verdict where
  | pass | fail | notStarted | aborted
deriving DecidableEq, Repr

/-- Step states (R30). `opened` is the manual's OPEN. -/
inductive StepState where
  | pending | opened | matched | held | early | missed | violated | failed | skipped | cancelled
deriving DecidableEq, Repr

/-- States of a rate monitor (6.7). -/
inductive RateState where
  | off | low | ok | high | stall
deriving DecidableEq, Repr

/-- Modes of a rate monitor (6.7). -/
inductive RateMode where
  | tach | clock
deriving DecidableEq, Repr

/-- Operations of a drive channel (R117). -/
inductive DriveOp where
  | release | low | high | startPulse | stopPulse
deriving DecidableEq, Repr

/-- Drive modes, the state of a channel as the trace and DRIVE_QUERY name it (R115). -/
inductive DriveMode where
  | released | low | high | pulseRunning | pulseIdle
deriving DecidableEq, Repr

/-- Causes of a DRIVE record (R119). -/
inductive DriveCause where
  | station | step | rail | oneShotDone
deriving DecidableEq, Repr

/-- Outcomes of a scan job (R128). -/
inductive ScanOutcome where
  | match_ | mismatch | done | fault | cancelled
deriving DecidableEq, Repr

/-- Reasons of a FAULT outcome (R131). -/
inductive FaultReason where
  | rail | irCheck | queueFull
deriving DecidableEq, Repr

/-- The identity of a scan job: a host tag or a template number (10). -/
inductive JobClass where
  | host (tag : Byte)
  | step (template : Fin 8)
deriving DecidableEq, Repr

/-- Sources of the store trigger (R63). -/
inductive TrigSource where
  | station
  | start
  | step (k : Fin 64)
deriving DecidableEq, Repr

/-! ## Run settings and the Run Controller -/

/-- Start source of a run (1.2). -/
inductive StartSource where
  | station
  | edge (c : Fin 24) (d : Dir)
  | railUp (b : Fin 4)
deriving DecidableEq, Repr

/-- The run settings record (1.2); the times in ms. -/
structure RunSettings where
  source : StartSource
  fromTrigger : Bool
  armTimeout : Nat
  limit : Nat
deriving DecidableEq, Repr

/-- The Run Controller (chapter 1). `limitTime` is L (R12); `endRequests` holds the end requests of the STE that the
RC has not taken yet, oldest first (R13). -/
structure Rc where
  runState : RunState
  staged : RunSettings
  active : RunSettings
  timeBase : Nat
  startTime : Option Nat
  limitTime : Option Nat
  cause : Option EndCause
  verdict : Option Verdict
  firstFail : Option (Fin 64 × StepState)
  endRequests : List EndCause
deriving DecidableEq, Repr

/-! ## The step plan -/

/-- Step kinds (R20). `check` is CHECK. -/
inductive StepKind where
  | await | guard | check
deriving DecidableEq, Repr

/-- Anchors (R21). -/
inductive Anchor where
  | start
  | step (k : Fin 64)
deriving DecidableEq, Repr

/-- Conditions: the six event sources, then the five state sources (R22). -/
inductive Cond where
  | edge (c : Fin 24) (d : Dir)
  | code (value mask : Byte)
  | text (m : Fin 8)
  | rate (m : Fin 4) (st : RateState)
  | rail (b : Fin 4) (up : Bool)
  | scan (t : Fin 8) (o : ScanOutcome)
  | level (c : Fin 24) (l : Bool)
  | railState (b : Fin 4) (present : Bool)
  | rateState (m : Fin 4) (st : RateState)
  | lastCode (value mask : Byte)
  | always
deriving DecidableEq, Repr

/-- Actions (R23). -/
inductive Action where
  | drive (c : Fin 8) (op : DriveOp)
  | scan (t : Fin 8)
  | mark (code : Byte)
  | trigger
  | endRun
deriving DecidableEq, Repr

/-- A used plan entry (2.2). `stopOnFail` is the fail policy: yes for STOP, no for CONTINUE. -/
structure StepEntry where
  kind : StepKind
  required : Bool
  anchor : Anchor
  cond : Cond
  windowMin : Nat
  windowMax : Nat
  count : Nat
  earlyFails : Bool
  stopOnFail : Bool
  label : Byte
  actions : List Action
deriving DecidableEq, Repr

/-- A plan: 64 entries, each unused or a step (R19). -/
abbrev Plan := Vector (Option StepEntry) 64

/-! ## Events and the Step Engine -/

/-- What an event reports, with the parts that record a prior state (R31, R34). A rail event holds the state entered
and, for a change to ABSENT on bank A, B or C, the conditioned levels the bank's eight channels had. -/
inductive EventBody where
  | edge (c : Fin 24) (d : Dir)
  | code (code : Byte) (prior : Option Byte)
  | text (m : Fin 8)
  | rate (m : Fin 4) (entered left : RateState)
  | rail (b : Fin 4) (present : Bool) (levels : Option (BitVec 8))
  | scan (t : Fin 8) (o : ScanOutcome)
deriving DecidableEq, Repr

/-- An event: its timestamp and what it reports (3.2). Entries of the look-back list have the same form (R34). -/
structure Event where
  time : Nat
  body : EventBody
deriving DecidableEq, Repr

/-- The step evaluation record of a used step (3.1). A field not yet set is absent. -/
structure StepEval where
  state : StepState
  anchorTime : Option Nat
  lo : Option Nat
  hi : Option Nat
  decision : Option Nat
  counted : Nat
  clipped : Bool
  lookback : Bool
  refused : Bool
  resolution : Option Nat
deriving DecidableEq, Repr

/-- What the evaluation pass in hand has seen so far (R49): whether a step resolved, whether an END_RUN action was
performed, whether a required STOP step failed. Between passes every field is no. -/
structure Pass where
  resolved : Bool
  endRun : Bool
  stopFail : Bool
deriving DecidableEq, Repr

/-- The Step Engine (chapters 2 and 3). `order` lists the resolved steps in resolution order (R16); `events` holds
the events handed to the STE and not yet delivered, in the order they were handed over (R32). -/
structure Ste where
  staged : Plan
  active : Plan
  evals : Vector (Option StepEval) 64
  lookback : List Event
  evictionMark : Option Nat
  order : List (Fin 64)
  pass : Pass
  events : List Event
deriving DecidableEq, Repr

/-! ## Trace records and the Trace Store -/

/-- What a record of each kind holds beside its sequence number and timestamp (R54, 12.5). -/
inductive RecBody where
  | runArmed (src : StartSource)
  | runStarted (src : StartSource)
  | runEnded (src : StartSource) (cause : EndCause) (v : Verdict) (ff : Option (Fin 64 × StepState))
  | edge (c : Fin 24) (level retimed : Bool)
  | level (b : Fin 4) (code : Byte) (present change : Bool)
  | code (code : Byte) (count last : Nat)
  | text (p : Fin 2) (d : TextDir) (bytes : Bytes) (error brk : Bool)
  | rate (m : Fin 4) (st : RateState) (reading : Nat) (mode : RateMode)
  | drive (c : Fin 8) (mode : DriveMode) (cause : DriveCause)
  | step (k : Fin 64) (outcome : StepState) (label : Byte) (count : Nat) (clipped lookback refused : Bool)
  | scan (cls : JobClass) (o : ScanOutcome) (reason : Option FaultReason) (inserted : Bool) (capture : BitVec 128) (len : Nat)
  | mark (byStep : Bool) (label : Bytes)
  | trig (src : TrigSource)
  | gap (count : Nat)
deriving DecidableEq, Repr

/-- A record before acceptance: its timestamp and its content. -/
structure Rec where
  time : Nat
  body : RecBody
deriving DecidableEq, Repr

/-- The source that hands a record to the TS, within which order is kept (R52, R55). The RUN, STEP and step MARK
records of the RC and the STE come in the order their rules give (R10, R15, R46), so they share one source. -/
inductive RecSource where
  | run
  | station
  | trig
  | lau (b : Fin 4)
  | mc (c : Fin 24)
  | rm (m : Fin 4)
  | cdp
  | cp (p : Fin 2) (d : TextDir)
  | dc (c : Fin 8)
  | sc
deriving DecidableEq, Repr

/-- A record held at the TS input (R52): the record, its source, the tick it reached the TS, whether it is of the end
work (R15), and whether the MARK request in hand waits for it (R68). -/
structure Waiting where
  record : Rec
  source : RecSource
  reached : Nat
  endWork : Bool
  awaited : Bool
deriving DecidableEq, Repr

/-- A retained record with its sequence number (R53). -/
structure Stored where
  seq : Nat
  record : Rec
deriving DecidableEq, Repr

/-- Store modes (4.3). -/
inductive StoreMode where
  | stop | ring | stream | window
deriving DecidableEq, Repr

/-- Store states (R57). -/
inductive StoreState where
  | off | accepting | triggered | stopped
deriving DecidableEq, Repr

/-- The store settings record (4.3). -/
structure StoreSettings where
  mode : StoreMode
  quota : Nat
  watermark : Nat
deriving DecidableEq, Repr

/-- The Trace Store (chapter 4). `nextTake` is the first tick at which it may take again (one acceptance a tick,
R52); `admitted` says that the head of its input was admitted with a GAP accepted just now, and is the next acceptance (R51,
R61, R62) (notes/assumptions/15.md). -/
structure Ts where
  records : List Stored
  occupancy : Nat
  nextSeq : Nat
  state : StoreState
  staged : StoreSettings
  active : StoreSettings
  fired : Bool
  trigSeq : Option Nat
  post : Nat
  lost : Nat
  gapStart : Option Nat
  totalLost : Nat
  input : List Waiting
  admitted : Bool
  nextTake : Nat
deriving DecidableEq, Repr

/-! ## Level Acquisition Units -/

/-- Bank settings (5.1): `track` yes is TRACK, no is FIXED; `interval` in µs, `s0` and `s1` in ticks. -/
structure BankSettings where
  track : Bool
  interval : Nat
  s0 : Nat
  s1 : Nat
  factor : Nat
  up : Nat
  down : Nat
  traceAll : Bool
  fixedThreshold : Nat
  fixedPresent : Bool
deriving DecidableEq, Repr

/-- Kinds of acquisition (chapter 5). -/
inductive AcqKind where
  | track | requested
deriving DecidableEq, Repr

/-- An acquisition in flight (R72): its kind, the S0, S1 and d it began with, its position (ticks since it began),
the result so far, and the samples of the present decision that showed the reference above. -/
structure Acq where
  kind : AcqKind
  s0 : Nat
  s1 : Nat
  factor : Nat
  elapsed : Nat
  result : Nat
  above : Nat
deriving DecidableEq, Repr

/-- A Level Acquisition Unit (chapter 5). `intervalStart` is the free-running tick of the last interval start;
`trackWaiting` says that a TRACK acquisition begins when the one in flight ends (R74). -/
structure Lau where
  settings : BankSettings
  threshold : Nat
  present : Bool
  lastCode : Nat
  acq : Option Acq
  intervalStart : Nat
  trackWaiting : Bool
deriving DecidableEq, Repr

/-! ## Monitor channels and rate monitors -/

/-- Channel settings (6.1); the debounce in µs. -/
structure ChanSettings where
  enabled : Bool
  debounce : Nat
  traceRising : Bool
  traceFalling : Bool
deriving DecidableEq, Repr

/-- A transition inside its debounce (6.1); `t0` is a tick of the free-running clock. -/
structure Transition where
  level : Bool
  t0 : Nat
  retimed : Bool
deriving DecidableEq, Repr

/-- A monitor channel (6.1). `blanking` holds the tick at which the present blanking ends. -/
structure Mc where
  settings : ChanSettings
  level : Bool
  pending : Option Transition
  blanking : Option Nat
deriving DecidableEq, Repr

/-- Rate monitor settings (6.7). -/
structure RateSettings where
  enabled : Bool
  mode : RateMode
  channel : Fin 24
  ppr : Nat
  lowRpm : Nat
  highRpm : Nat
  stall : Nat
  expected : Nat
  tolerance : Nat
deriving DecidableEq, Repr

/-- A revolution being timed (R91): the tick it opened and the periods completed in it. -/
structure Revolution where
  opened : Nat
  periods : Nat
deriving DecidableEq, Repr

/-- A rate monitor (6.7). `last` is the last sample of the raw input (none while it is not read, R93); `stallFrom` the
tick the stall timer started (none after an expiry, R91); `gateStart`, `edges` and `gateVoid` are the gate being
counted (R92, R93). -/
structure Rm where
  settings : RateSettings
  reading : Nat
  state : RateState
  candidate : Option RateState
  agreement : Nat
  last : Option Bool
  revolution : Option Revolution
  stallFrom : Option Nat
  gateStart : Nat
  edges : Nat
  gateVoid : Bool
deriving DecidableEq, Repr

/-! ## Code port -/

/-- Code port settings (7.6); the fold window in ms. -/
structure CodeSettings where
  enabled : Bool
  strobe : Dir
  foldWindow : Nat
  ignoreList : Bytes
  trace : Bool
deriving DecidableEq, Repr

/-- A code history entry (R98). -/
structure CodeEntry where
  code : Byte
  count : Nat
deriving DecidableEq, Repr

/-- The open CODE record (R99). -/
structure PendingCode where
  code : Byte
  count : Nat
  first : Nat
  last : Nat
deriving DecidableEq, Repr

/-- The code port (chapter 7). `foldFrom` is the tick the fold timer runs from, none when it is EXPIRED; `blanking`
the tick at which the strobe blanking ends; the history is newest first. -/
structure Cdp where
  settings : CodeSettings
  reference : Option Bool
  blanking : Option Nat
  foldFrom : Option Nat
  history : List CodeEntry
  pending : Option PendingCode
deriving DecidableEq, Repr

/-! ## Console ports and text matchers -/

/-- Console formats (8.1). -/
inductive Format where
  | f8N1 | f8E1 | f8O1
deriving DecidableEq, Repr

/-- The eight baud rates (8.1), by their code of 12.2. -/
abbrev Baud := Fin 8

/-- Console port settings (8.1); the idle gap in ms. -/
structure ConsSettings where
  enabled : Bool
  baud : Baud
  format : Format
  idleGap : Nat
  echo : Bool
deriving DecidableEq, Repr

/-- Receiver states (R105). A port that is disabled or whose rail is ABSENT is inert whatever this says. -/
inductive RxState where
  | waitIdle | idle | receiving | waitHigh
deriving DecidableEq, Repr

/-- An open fragment (8.3): its bytes, the times of its first and last byte, and the flags ERROR and BREAK. -/
structure Fragment where
  bytes : Bytes
  first : Nat
  last : Nat
  error : Bool
  brk : Bool
deriving DecidableEq, Repr

/-- The byte in flight (R109): the tick its start bit began, and whether its send time has been taken. -/
structure InFlight where
  byte : Byte
  started : Nat
  complete : Bool
deriving DecidableEq, Repr

/-- A console port (chapter 8). `highSince` is the tick since which the receive line has read 1 (none while it reads
0), `rxStart` the start-edge tick, `bits` the samples taken so far of the byte in reception (start bit first), `held` says
that the receiver holds an all-zero frame (R105), and `steadyLow` that the line has read 0 at every sample since the
start edge (R106). -/
structure Cp where
  settings : ConsSettings
  rx : RxState
  highSince : Option Nat
  rxStart : Nat
  bits : List Bool
  held : Bool
  steadyLow : Bool
  rxFragment : Option Fragment
  queue : Bytes
  inFlight : Option InFlight
  txFragment : Option Fragment
  discards : Nat
deriving DecidableEq, Repr

/-- Matcher settings (8.5). -/
structure MatchSettings where
  enabled : Bool
  port : Fin 2
  caseInsensitive : Bool
  pattern : Bytes
deriving DecidableEq, Repr

/-- A text matcher (8.5). -/
structure Tm where
  settings : MatchSettings
  progress : Nat
deriving DecidableEq, Repr

/-! ## Drive channels -/

/-- Modes of a drive channel (chapter 9). -/
inductive ChanMode where
  | released | low | high | pulse
deriving DecidableEq, Repr

/-- Generator values (chapter 9): prescaler p, A, B and repeat. -/
structure GenValues where
  prescaler : Nat
  a : Nat
  b : Nat
  rep : Bool
deriving DecidableEq, Repr

/-- A drive channel (chapter 9). `subTicks` counts the ticks of the present unit; `activeLevel` says that the
generator's present level is the active one (R115). -/
structure Dc where
  mode : ChanMode
  running : Bool
  counter : Nat
  subTicks : Nat
  activeLevel : Bool
  active : GenValues
  buffered : GenValues
  openDrain : Bool
  activeHigh : Bool
  railGated : Bool
deriving DecidableEq, Repr

/-! ## Scan Controller -/

/-- The sixteen states of the test-access controller (R124), in the order of its table. -/
inductive Tap where
  | testLogicReset | runTestIdle | selectDr | captureDr | shiftDr | exit1Dr | pauseDr | exit2Dr | updateDr
  | selectIr | captureIr | shiftIr | exit1Ir | pauseIr | exit2Ir | updateIr
deriving DecidableEq, Repr

/-- Scan port settings (10.1). -/
structure ScanSettings where
  divider : Nat
  irCheck : Bool
  trst : Bool
deriving DecidableEq, Repr

/-- Scan operations (R125). -/
inductive ScanOp where
  | tapReset
  | irScan (n : Nat) (out : BitVec 128)
  | drScan (n : Nat) (out : BitVec 128)
  | idle (m : Nat)
deriving DecidableEq, Repr

/-- The compare of a job body (R126). -/
structure Compare where
  expected : BitVec 128
  mask : BitVec 128
deriving DecidableEq, Repr

/-- A job body (R126). -/
structure JobBody where
  ops : List ScanOp
  compare : Option Compare
deriving DecidableEq, Repr

/-- A job, waiting or active; `current` is the current-run mark of a step job (R129). -/
structure Job where
  cls : JobClass
  body : JobBody
  current : Bool
deriving DecidableEq, Repr

/-- The active job (R128): its copy of the port settings, whether a TAP_RESET was inserted, the operation in progress
(none for the inserted TAP_RESET) and the tick it began, the TDO samples of that operation (bit 0 first), the capture
of the last DR_SCAN completed with its length, and the cancel mark. -/
structure Active where
  job : Job
  settings : ScanSettings
  inserted : Bool
  op : Option Nat
  opStart : Nat
  bits : List Bool
  capture : BitVec 128
  captureLen : Nat
  cancel : Bool
deriving DecidableEq, Repr

/-- A completed result (R131). -/
structure ScanResult where
  cls : JobClass
  outcome : ScanOutcome
  reason : Option FaultReason
  inserted : Bool
  capture : BitVec 128
  captureLen : Nat
deriving DecidableEq, Repr

/-- A template table (R126). -/
abbrev Templates := Vector (Option JobBody) 8

/-- The Scan Controller (chapter 10). `tap` none is UNKNOWN; the results are newest first. -/
structure Sc where
  settings : ScanSettings
  tap : Option Tap
  staged : Templates
  active : Templates
  queue : List Job
  job : Option Active
  results : List ScanResult
deriving DecidableEq, Repr

/-! ## Message Port and Flag Unit -/

/-- Status codes of replies (R135). -/
inductive Status where
  | ok | malformed | unknown | range | state | busy | full | gone | notFound | denied | locked | rail | badPlan
deriving DecidableEq, Repr

/-- A reply (R134): its kind, tag, status and body. -/
structure Reply where
  kind : Byte
  tag : Byte
  status : Status
  body : Bytes
deriving DecidableEq, Repr

/-- Where the MP is in the OUT pipe's USB transfers (R133, R138). -/
inductive Transfer where
  /-- between two transfers: the next byte begins one -/
  | between
  /-- inside a transfer whose bytes are unframed -/
  | unframing
  /-- inside a transfer whose rest is discarded -/
  | discarding
deriving DecidableEq, Repr

/-- The Message Port (chapter 11). `reception` holds the bytes of a frame in reception, which holds an entry of the
queue of its own; `transfer` says where the bytes taken so far end; `inHand` the kind and tag of a request taken whose
reply is not yet built; `together` that the notice that waits became ready with the reply in progress (R137);
`probeSent` says that the reply in progress is RESET_PROBE's, `resetDue` that it has been written and the soft reset is
to act (R138); `lastSent` is the frame last written whole to the IN pipe; `attached` whether the part is on the bus. -/
structure Mp where
  queue : List Entry
  reception : Bytes
  transfer : Transfer
  inHand : Option (Byte × Byte)
  reply : Option Reply
  together : Bool
  probeSent : Bool
  resetDue : Bool
  lastSent : Option Bytes
  attached : Bool
deriving DecidableEq, Repr

/-- The Flag Unit (11.4, 11.5): flag n is bit n. `slot` is the notice slot's set of flags; the slot is empty when
the set is. -/
structure Fu where
  flags : BitVec 15
  enables : BitVec 15
  slot : BitVec 15
deriving DecidableEq, Repr

/-! ## Input pins -/

/-- The voltages the outside world holds the input pins at, in mV (R71, R72). -/
structure Pins where
  mc : Vector Nat 24
  stb : Nat
  data : Vector Nat 8
  rx : Vector Nat 2
  tdo : Nat
  ref : Vector Nat 4
deriving DecidableEq, Repr

end Sys2Proof.Machine
end

