-- ==== Sys2Proof/Machine/ResetValues.lean ====
section
/-! DEFINITION. The value of every block's state after a POR, pin reset or soft reset, as its chapter gives it. -/

namespace Sys2Proof.Machine

/-- 1.2. -/
def RunSettings.reset : RunSettings := { source := .station, fromTrigger := false, armTimeout := 60000, limit := 600000 }

/-- R18. -/
def Rc.reset : Rc :=
  { runState := .idle, staged := RunSettings.reset, active := RunSettings.reset, timeBase := 0, startTime := none,
    limitTime := none, cause := none, verdict := none, firstFail := none, endRequests := [] }

/-- R19: every plan entry unused. -/
def Plan.reset : Plan := Vector.replicate 64 none

/-- Between passes nothing has been seen (R49). -/
def Pass.none : Pass := { resolved := false, endRun := false, stopFail := false }

/-- R50. -/
def Ste.reset : Ste :=
  { staged := Plan.reset, active := Plan.reset, evals := Vector.replicate 64 Option.none, lookback := [],
    evictionMark := Option.none, order := [], pass := Pass.none, events := [] }

/-- 4.3. -/
def StoreSettings.reset : StoreSettings := { mode := .stop, quota := 16384, watermark := 24576 }

/-- R70. -/
def Ts.reset : Ts :=
  { records := [], occupancy := 0, nextSeq := 0, state := .off, staged := StoreSettings.reset,
    active := StoreSettings.reset, fired := false, trigSeq := none, post := 0, lost := 0, gapStart := none,
    totalLost := 0, input := [], admitted := false, nextTake := 0 }

/-- 5.1. -/
def BankSettings.reset : BankSettings :=
  { track := true, interval := 1000, s0 := 200, s1 := 50, factor := 4, up := 50, down := 36, traceAll := false,
    fixedThreshold := 64, fixedPresent := false }

/-- An acquisition that begins now under the settings of its bank (R72). -/
def Acq.begin (kind : AcqKind) (r : BankSettings) : Acq :=
  { kind, s0 := r.s0, s1 := r.s1, factor := r.factor, elapsed := 0, result := 0, above := 0 }

/-- R81: the reset is an interval start, so a TRACK acquisition begins at once. -/
def Lau.reset : Lau :=
  { settings := BankSettings.reset, threshold := 64, present := false, lastCode := 0,
    acq := some (Acq.begin .track BankSettings.reset), intervalStart := 0, trackWaiting := false }

/-- R88. -/
def Mc.reset : Mc :=
  { settings := { enabled := false, debounce := 0, traceRising := false, traceFalling := false }, level := false,
    pending := none, blanking := none }

/-- 6.7. -/
def RateSettings.reset : RateSettings :=
  { enabled := false, mode := .tach, channel := 0, ppr := 2, lowRpm := 1000, highRpm := 20000, stall := 1000,
    expected := 25000, tolerance := 250 }

/-- R95 (notes/assumptions/29.md). -/
def Rm.reset : Rm :=
  { settings := RateSettings.reset, reading := 0, state := .off, candidate := none, agreement := 0, last := none,
    revolution := none, stallFrom := none, gateStart := 0, edges := 0, gateVoid := false }

/-- R103. -/
def Cdp.reset : Cdp :=
  { settings := { enabled := false, strobe := .rising, foldWindow := 100, ignoreList := [], trace := true },
    reference := none, blanking := none, foldFrom := none, history := [], pending := none }

/-- R111: baud 115,200 has code 4 (12.2). -/
def Cp.reset : Cp :=
  { settings := { enabled := false, baud := 4, format := .f8N1, idleGap := 20, echo := false }, rx := .waitIdle,
    highSince := none, rxStart := 0, bits := [], held := false, steadyLow := false, rxFragment := none, queue := [],
    inFlight := none, txFragment := none, discards := 0 }

/-- R114. -/
def Tm.reset : Tm :=
  { settings := { enabled := false, port := 0, caseInsensitive := false, pattern := [] }, progress := 0 }

/-- R122: p 0, A 1, B 2, one-shot. -/
def GenValues.reset : GenValues := { prescaler := 0, a := 1, b := 2, rep := false }

/-- R122. -/
def Dc.reset : Dc :=
  { mode := .released, running := false, counter := 0, subTicks := 0, activeLevel := false, active := GenValues.reset,
    buffered := GenValues.reset, openDrain := false, activeHigh := false, railGated := true }

/-- R132. -/
def Sc.reset : Sc :=
  { settings := { divider := 10, irCheck := false, trst := false }, tap := none, staged := Vector.replicate 8 none,
    active := Vector.replicate 8 none, queue := [], job := none, results := [] }

/-- R138: the POR and pin reset row. -/
def Mp.reset : Mp :=
  { queue := [], reception := [], transfer := .between, inHand := none, reply := none, together := false,
    probeSent := false, resetDue := false, lastSent := none, attached := true }

/-- R138: flags and enables all 0, the slot empty. -/
def Fu.reset : Fu := { flags := 0, enables := 0, slot := 0 }

/-- The outside world holds every input pin at 0 mV (notes/assumptions/5.md). -/
def Pins.zero : Pins :=
  { mc := Vector.replicate 24 0, stb := 0, data := Vector.replicate 8 0, rx := Vector.replicate 2 0, tdo := 0,
    ref := Vector.replicate 4 0 }

end Sys2Proof.Machine
end

