-- ==== Sys2Proof/Machine/State.lean ====
section
/-! DEFINITION. The state of the HB-420: every block's state, the input pins, the core clock and the queue of waiting
commands; the state after reset; and the reasons a step could stop. -/

namespace Sys2Proof.Machine

/-- The state of the part. `pending` is the queue of waiting commands, first in first out. `clock` is the free-running
count of core clock ticks (00_scope.md), `choices` counts the free choices made so far (notes/assumptions/3.md); both
are the model's own. Everything else is named by the manual. -/
structure State where
  pending : List Instr
  clock : Nat
  choices : Nat
  pins : Pins
  mp : Mp
  fu : Fu
  rc : Rc
  ste : Ste
  ts : Ts
  lau : Vector Lau 4
  mc : Vector Mc 24
  rm : Vector Rm 4
  cdp : Cdp
  cp : Vector Cp 2
  tm : Vector Tm 8
  dc : Vector Dc 8
  permitMask : BitVec 8
  permitLock : Bool
  sc : Sc
deriving DecidableEq, Repr

/-- The reasons a step stops with a fault: there is none. The manual gives the part no fault that stops it, and gives
every command an effect in every state, so the type is empty and every meaning answers a next state. -/
inductive Fault where
deriving DecidableEq, Repr

/-- The reasons a step is refused. -/
inductive Refusal where
  /-- Raised by `exec` alone, for a command that has no meaning yet. Safe. No arm raises it. -/
  | notModelled (mnemonic : String)
deriving DecidableEq, Repr

/-- The machine right after power-on (POR): each block as its chapter says, no command waiting. -/
def State.reset : State :=
  { pending := [], clock := 0, choices := 0, pins := Pins.zero, mp := Mp.reset, fu := Fu.reset, rc := Rc.reset,
    ste := Ste.reset, ts := Ts.reset, lau := Vector.replicate 4 Lau.reset, mc := Vector.replicate 24 Mc.reset,
    rm := Vector.replicate 4 Rm.reset, cdp := Cdp.reset, cp := Vector.replicate 2 Cp.reset,
    tm := Vector.replicate 8 Tm.reset, dc := Vector.replicate 8 Dc.reset, permitMask := 0, permitLock := false,
    sc := Sc.reset }

/-- The answer of every meaning: a next state, a fault or a refusal. -/
abbrev Result := Host.Outcome State Fault Refusal

end Sys2Proof.Machine
end

