-- ==== Sys2Proof/Machine/Flags.lean ====
section
/-! DEFINITION. The Flag Unit: the 15 flags by number (11.4), raising a flag (R136) and the notice it calls for (R137). -/

namespace Sys2Proof.Machine

/-- The 15 flags (11.4). -/
inductive Flag where
  | runStart | runEnd | stepFail | trigger | storeHigh | storeStop | storeLoss | rail | acqDone | rate | code
  | textHit | scanDone | txDrop | driveBlock
deriving DecidableEq, Repr

/-- The number of a flag (11.4). -/
def Flag.number : Flag → Nat
  | .runStart => 0 | .runEnd => 1 | .stepFail => 2 | .trigger => 3 | .storeHigh => 4 | .storeStop => 5
  | .storeLoss => 6 | .rail => 7 | .acqDone => 8 | .rate => 9 | .code => 10 | .textHit => 11 | .scanDone => 12
  | .txDrop => 13 | .driveBlock => 14

/-- The flag's bit in every mask (11.4). -/
def Flag.bit (f : Flag) : BitVec 15 := BitVec.twoPow 15 f.number

/-- R136, R137: raising a flag sets it; a change from 0 to 1 of an enabled flag joins the notice slot. -/
def Fu.raise (u : Fu) (f : Flag) : Fu :=
  { u with flags := u.flags ||| f.bit, slot := u.slot ||| (f.bit &&& ~~~u.flags &&& u.enables) }

/-- R136, R137: FLAGS_ENABLE replaces the enables. A flag whose enable goes from 0 to 1 while it is set joins the
slot; one whose enable is set to 0 leaves it. -/
def Fu.enable (u : Fu) (mask : BitVec 15) : Fu :=
  { u with enables := mask, slot := (u.slot ||| (mask &&& ~~~u.enables &&& u.flags)) &&& mask }

/-- R136, R137: FLAGS_CLEAR clears the flags of the mask, and they leave the slot. -/
def Fu.clear (u : Fu) (mask : BitVec 15) : Fu :=
  { u with flags := u.flags &&& ~~~mask, slot := u.slot &&& ~~~mask }

/-- The set and enabled flags, the body of a notice (R137). -/
def Fu.snapshot (u : Fu) : BitVec 15 := u.flags &&& u.enables

/-- A block raises a flag, in every run state and whatever its enable (R136). -/
def State.raise (s : State) (f : Flag) : State := { s with fu := s.fu.raise f }

/-- Raise a flag where a condition holds. -/
def State.raiseIf (s : State) (c : Bool) (f : Flag) : State := if c then s.raise f else s

end Sys2Proof.Machine
end

