-- ==== Sys2Proof/Machine/Operands.lean ====
section
/-! DEFINITION. The operand forms: every enumeration's code (12.2) and every settings record of 12.6, written to bytes
(`enc`) and read from bytes (`dec`, which answers none where the owner's chapter refuses the record with RANGE, and
clamps where it clamps). -/

namespace Sys2Proof.Machine

/-! ## Enumerations (12.2) -/

def RunState.code : RunState → Byte
  | .idle => 0 | .armed => 1 | .running => 2 | .ended => 3

def Dir.code : Dir → Byte
  | .rising => 0 | .falling => 1

def Dir.dec (b : Byte) : Option Dir :=
  match b.toNat with
  | 0 => some .rising | 1 => some .falling | _ => none

def EndCause.code : EndCause → Byte
  | .allResolved => 0 | .limit => 1 | .endAction => 2 | .stopOnFail => 3 | .abort => 4 | .armTimeout => 5

def Verdict.code : Verdict → Byte
  | .pass => 0 | .fail => 1 | .notStarted => 2 | .aborted => 3

def StepState.code : StepState → Byte
  | .pending => 0 | .opened => 1 | .matched => 2 | .held => 3 | .early => 4 | .missed => 5 | .violated => 6
  | .failed => 7 | .skipped => 8 | .cancelled => 9

def StoreState.code : StoreState → Byte
  | .off => 0 | .accepting => 1 | .triggered => 2 | .stopped => 3

def StoreMode.code : StoreMode → Byte
  | .stop => 0 | .ring => 1 | .stream => 2 | .window => 3

def StoreMode.dec (b : Byte) : Option StoreMode :=
  match b.toNat with
  | 0 => some .stop | 1 => some .ring | 2 => some .stream | 3 => some .window | _ => none

def TrigSource.code : TrigSource → Byte
  | .station => 0 | .start => 1 | .step _ => 2

def RateState.code : RateState → Byte
  | .off => 0 | .low => 1 | .ok => 2 | .high => 3 | .stall => 4

def RateState.dec (b : Byte) : Option RateState :=
  match b.toNat with
  | 0 => some .off | 1 => some .low | 2 => some .ok | 3 => some .high | 4 => some .stall | _ => none

def RateMode.code : RateMode → Byte
  | .tach => 0 | .clock => 1

def RateMode.dec (b : Byte) : Option RateMode :=
  match b.toNat with
  | 0 => some .tach | 1 => some .clock | _ => none

def DriveMode.code : DriveMode → Byte
  | .released => 0 | .low => 1 | .high => 2 | .pulseRunning => 3 | .pulseIdle => 4

def DriveCause.code : DriveCause → Byte
  | .station => 0 | .step => 1 | .rail => 2 | .oneShotDone => 3

def DriveOp.code : DriveOp → Byte
  | .release => 0 | .low => 1 | .high => 2 | .startPulse => 3 | .stopPulse => 4

def DriveOp.dec (b : Byte) : Option DriveOp :=
  match b.toNat with
  | 0 => some .release | 1 => some .low | 2 => some .high | 3 => some .startPulse | 4 => some .stopPulse | _ => none

def ScanOutcome.code : ScanOutcome → Byte
  | .match_ => 0 | .mismatch => 1 | .done => 2 | .fault => 3 | .cancelled => 4

/-- The outcomes a SCAN condition may name (R22, R24). -/
def ScanOutcome.decCond (b : Byte) : Option ScanOutcome :=
  match b.toNat with
  | 0 => some .match_ | 1 => some .mismatch | 3 => some .fault | _ => none

/-- The fault reason, 255 for none. -/
def faultCode : Option FaultReason → Byte
  | none => 255 | some .rail => 1 | some .irCheck => 2 | some .queueFull => 3

def JobClass.code : JobClass → Byte
  | .host _ => 0 | .step _ => 1

def JobClass.number : JobClass → Byte
  | .host t => t | .step t => byte t.val

/-- A job class with its tag or template on receipt (R132). -/
def JobClass.dec (c n : Byte) : Option JobClass :=
  match c.toNat with
  | 0 => some (.host n)
  | 1 => (indexOf 8 n).map .step
  | _ => none

def Format.code : Format → Byte
  | .f8N1 => 0 | .f8E1 => 1 | .f8O1 => 2

def Format.dec (b : Byte) : Option Format :=
  match b.toNat with
  | 0 => some .f8N1 | 1 => some .f8E1 | 2 => some .f8O1 | _ => none

/-- The acquisition in flight, 255 for none. -/
def acqCode : Option Acq → Byte
  | none => 255
  | some a => match a.kind with | .track => 0 | .requested => 1

/-- The TAP state, 16 for UNKNOWN (12.2 numbers the states in the order of the table of R124). -/
def tapCode : Option Tap → Byte
  | none => 16
  | some t => match t with
    | .testLogicReset => 0 | .runTestIdle => 1 | .selectDr => 2 | .captureDr => 3 | .shiftDr => 4 | .exit1Dr => 5
    | .pauseDr => 6 | .exit2Dr => 7 | .updateDr => 8 | .selectIr => 9 | .captureIr => 10 | .shiftIr => 11
    | .exit1Ir => 12 | .pauseIr => 13 | .exit2Ir => 14 | .updateIr => 15

def Status.code : Status → Byte
  | .ok => 0 | .malformed => 1 | .unknown => 2 | .range => 3 | .state => 4 | .busy => 5 | .full => 6 | .gone => 7
  | .notFound => 8 | .denied => 9 | .locked => 10 | .rail => 11 | .badPlan => 12

/-- The copy a GET request names (12.2): yes for the active copy. -/
def copyDec (b : Byte) : Option Bool :=
  match b.toNat with
  | 0 => some false | 1 => some true | _ => none

/-! ## Run settings (R2) -/

/-- Start source, then channel or bank, then direction: the three bytes of the run settings and of a RUN record. -/
def StartSource.enc : StartSource → Bytes
  | .station => [0, 0, 0]
  | .edge c d => [1, byte c.val, d.code]
  | .railUp b => [2, byte b.val, 0]

def StartSource.dec (k p d : Byte) : Option StartSource :=
  match k.toNat with
  | 0 => some .station
  | 1 => do
    let c ← indexOf 24 p
    let d ← Dir.dec d
    some (.edge c d)
  | 2 => (indexOf 4 p).map .railUp
  | _ => none

def RunSettings.enc (r : RunSettings) : Bytes :=
  r.source.enc ++ [yn r.fromTrigger] ++ le 4 r.armTimeout ++ le 4 r.limit

/-- R2: the record as applied, its times clamped; none where R2 refuses it with RANGE. -/
def RunSettings.dec (b : Bytes) : Option RunSettings := do
  let source ← StartSource.dec (byteAt b 0) (byteAt b 1) (byteAt b 2)
  let fromTrigger ← ynOf (byteAt b 3)
  some { source, fromTrigger, armTimeout := clamp 1 5000000 (field b 4 4), limit := clamp 1 5000000 (field b 8 4) }

/-! ## Step entries (R24) -/

/-- The largest window bound in µs (2.2). -/
def windowBound : Nat := 4000000000

def StepKind.code : StepKind → Byte
  | .await => 0 | .guard => 1 | .check => 2

def StepKind.dec (b : Byte) : Option StepKind :=
  match b.toNat with
  | 0 => some .await | 1 => some .guard | 2 => some .check | _ => none

def Anchor.enc : Anchor → Bytes
  | .start => [0, 0]
  | .step k => [1, byte k.val]

def Anchor.dec (k n : Byte) : Option Anchor :=
  match k.toNat with
  | 0 => some .start
  | 1 => (indexOf 64 n).map .step
  | _ => none

/-- The condition's source and its two parameters (12.6). -/
def Cond.enc : Cond → Bytes
  | .edge c d => [0, byte c.val, d.code]
  | .code v m => [1, v, m]
  | .text m => [2, byte m.val, 0]
  | .rate m st => [3, byte m.val, st.code]
  | .rail b up => [4, byte b.val, if up then 3 else 2]
  | .scan t o => [5, byte t.val, o.code]
  | .level c l => [6, byte c.val, yn l]
  | .railState b p => [7, byte b.val, yn p]
  | .rateState m st => [8, byte m.val, st.code]
  | .lastCode v m => [9, v, m]
  | .always => [10, 0, 0]

/-- R24: a CODE or LASTCODE value has no bit set where its mask has 0. -/
def valueInMask (v m : Byte) : Bool := v &&& ~~~m == 0

/-- R22, R24: the condition; none where a parameter lies outside the values its source allows. -/
def Cond.dec (src p q : Byte) : Option Cond :=
  match src.toNat with
  | 0 => do
    let c ← indexOf 24 p
    let d ← Dir.dec q
    some (.edge c d)
  | 1 => if valueInMask p q then some (.code p q) else none
  | 2 => (indexOf 8 p).map .text
  | 3 => do
    let m ← indexOf 4 p
    let st ← RateState.dec q
    if st = .off then none else some (.rate m st)
  | 4 => do
    let b ← indexOf 4 p
    match q.toNat with
    | 2 => some (.rail b false)
    | 3 => some (.rail b true)
    | _ => none
  | 5 => do
    let t ← indexOf 8 p
    let o ← ScanOutcome.decCond q
    some (.scan t o)
  | 6 => do
    let c ← indexOf 24 p
    let l ← ynOf q
    some (.level c l)
  | 7 => do
    let b ← indexOf 4 p
    let pr ← ynOf q
    some (.railState b pr)
  | 8 => do
    let m ← indexOf 4 p
    let st ← RateState.dec q
    some (.rateState m st)
  | 9 => if valueInMask p q then some (.lastCode p q) else none
  | 10 => some .always
  | _ => none

/-- An action slot of four bytes (12.6). -/
def Action.enc : Action → Bytes
  | .drive c op => [0, byte c.val, op.code, 0]
  | .scan t => [1, byte t.val, 0, 0]
  | .mark c => [2, c, 0, 0]
  | .trigger => [3, 0, 0, 0]
  | .endRun => [4, 0, 0, 0]

/-- R24: the action of a slot; none where its kind or a parameter is outside the values R23 allows. -/
def Action.dec (k p q : Byte) : Option Action :=
  match k.toNat with
  | 0 => do
    let c ← indexOf 8 p
    let op ← DriveOp.dec q
    some (.drive c op)
  | 1 => (indexOf 8 p).map .scan
  | 2 => some (.mark p)
  | 3 => some .trigger
  | 4 => some .endRun
  | _ => none

/-- The first `n` action slots, from byte 20 of the step entry on (12.6). -/
def decActions (b : Bytes) : Nat → Option (List Action)
  | 0 => some []
  | n + 1 => do
    let as ← decActions b n
    let a ← Action.dec (byteAt b (20 + 4 * n)) (byteAt b (21 + 4 * n)) (byteAt b (22 + 4 * n))
    some (as ++ [a])

def StepEntry.enc (e : StepEntry) : Bytes :=
  [e.kind.code, yn e.required] ++ e.anchor.enc ++ e.cond.enc
    ++ [yn e.earlyFails, yn (!e.stopOnFail), e.label, byte e.count, byte e.actions.length]
    ++ le 4 e.windowMin ++ le 4 e.windowMax ++ padTo 16 (e.actions.flatMap Action.enc)

/-- R24: the step entry; none where R24 refuses it with RANGE. -/
def StepEntry.dec (b : Bytes) : Option StepEntry := do
  let kind ← StepKind.dec (byteAt b 0)
  let required ← ynOf (byteAt b 1)
  let anchor ← Anchor.dec (byteAt b 2) (byteAt b 3)
  let cond ← Cond.dec (byteAt b 4) (byteAt b 5) (byteAt b 6)
  let earlyFails ← ynOf (byteAt b 7)
  let cont ← ynOf (byteAt b 8)
  if 4 < (byteAt b 11).toNat then none
  let actions ← decActions b (byteAt b 11).toNat
  if windowBound < field b 12 4 ∨ windowBound < field b 16 4 then none
  some { kind, required, anchor, cond, windowMin := field b 12 4, windowMax := field b 16 4,
         count := (byteAt b 10).toNat, earlyFails, stopOnFail := !cont, label := byteAt b 9, actions }

/-- The used byte and the entry of a PLAN_PUT or PLAN_GET reply, after the entry number (12.6). -/
def encPlanEntry : Option StepEntry → Bytes
  | none => [0]
  | some e => 1 :: e.enc

/-! ## Store settings (R56) -/

def StoreSettings.enc (r : StoreSettings) : Bytes := [r.mode.code, 0] ++ le 2 r.quota ++ le 2 r.watermark

def StoreSettings.dec (b : Bytes) : Option StoreSettings := do
  let mode ← StoreMode.dec (byteAt b 0)
  some { mode, quota := clamp 16 32000 (field b 2 2), watermark := clamp 0 32768 (field b 4 2) }

/-! ## Bank settings (R77) -/

def BankSettings.enc (r : BankSettings) : Bytes :=
  [if r.track then 0 else 1, yn r.traceAll, byte r.up, byte r.down, byte r.fixedThreshold, yn r.fixedPresent,
   byte r.factor, 0] ++ le 4 r.interval ++ le 2 r.s0 ++ le 2 r.s1

def BankSettings.dec (b : Bytes) : Option BankSettings := do
  let fixed ← ynOf (byteAt b 0)
  let traceAll ← ynOf (byteAt b 1)
  let fixedPresent ← ynOf (byteAt b 5)
  let up := (byteAt b 2).toNat
  let down := (byteAt b 3).toNat
  if field b 12 2 = 0 ∨ field b 14 2 = 0 ∨ byteAt b 6 = 0 ∨ up ≤ down then none
  some { track := !fixed, interval := clamp 100 1000000 (field b 8 4), s0 := clamp 1 32767 (field b 12 2),
         s1 := clamp 1 32767 (field b 14 2), factor := clamp 1 64 (byteAt b 6).toNat, up, down, traceAll,
         fixedThreshold := (byteAt b 4).toNat, fixedPresent }

/-! ## Channel and rate settings (R82, R89) -/

/-- The channel settings as CHAN_SET carries them, after the channel number (12.6). -/
def ChanSettings.enc (r : ChanSettings) : Bytes :=
  [yn r.enabled, (if r.traceRising then 1 else 0) + (if r.traceFalling then 2 else 0), 0] ++ le 4 r.debounce

def ChanSettings.dec (b : Bytes) : Option ChanSettings := do
  let enabled ← ynOf (byteAt b 0)
  if 3 < (byteAt b 1).toNat then none
  some { enabled, debounce := clamp 0 65535 (field b 3 4), traceRising := (byteAt b 1).getLsbD 0,
         traceFalling := (byteAt b 1).getLsbD 1 }

def RateSettings.enc (r : RateSettings) : Bytes :=
  [yn r.enabled, r.mode.code, byte r.channel.val, byte r.ppr] ++ le 2 r.lowRpm ++ le 2 r.highRpm ++ le 2 r.stall
    ++ le 2 r.expected ++ le 2 r.tolerance

def RateSettings.dec (b : Bytes) : Option RateSettings := do
  let enabled ← ynOf (byteAt b 0)
  let mode ← RateMode.dec (byteAt b 1)
  let channel ← indexOf 24 (byteAt b 2)
  let ppr := (byteAt b 3).toNat
  if ppr = 0 ∨ 4 < ppr ∨ field b 6 2 < field b 4 2 ∨ field b 10 2 = 0 then none
  some { enabled, mode, channel, ppr, lowRpm := field b 4 2, highRpm := field b 6 2,
         stall := clamp 100 5000 (field b 8 2), expected := clamp 1 50000 (field b 10 2),
         tolerance := clamp 0 50000 (field b 12 2) }

/-! ## Code port settings (R101) -/

def CodeSettings.enc (r : CodeSettings) : Bytes :=
  [yn r.enabled, r.strobe.code, yn r.trace, byte r.ignoreList.length] ++ padTo 4 r.ignoreList ++ le 2 r.foldWindow

def CodeSettings.dec (b : Bytes) : Option CodeSettings := do
  let enabled ← ynOf (byteAt b 0)
  let strobe ← Dir.dec (byteAt b 1)
  let trace ← ynOf (byteAt b 2)
  let n := (byteAt b 3).toNat
  if 4 < n then none
  some { enabled, strobe, foldWindow := clamp 0 60000 (field b 8 2), ignoreList := (b.drop 4).take n, trace }

/-! ## Console and matcher settings (R104, R114) -/

def ConsSettings.enc (r : ConsSettings) : Bytes :=
  [yn r.enabled, byte r.baud.val, r.format.code, byte r.idleGap, yn r.echo]

def ConsSettings.dec (b : Bytes) : Option ConsSettings := do
  let enabled ← ynOf (byteAt b 0)
  let baud ← indexOf 8 (byteAt b 1)
  let format ← Format.dec (byteAt b 2)
  let echo ← ynOf (byteAt b 4)
  some { enabled, baud, format, idleGap := clamp 1 255 (byteAt b 3).toNat, echo }

def MatchSettings.enc (r : MatchSettings) : Bytes :=
  [yn r.enabled, byte r.port.val, yn r.caseInsensitive, byte r.pattern.length] ++ padTo 32 r.pattern

def MatchSettings.dec (b : Bytes) : Option MatchSettings := do
  let enabled ← ynOf (byteAt b 0)
  let port ← indexOf 2 (byteAt b 1)
  let caseInsensitive ← ynOf (byteAt b 2)
  let n := (byteAt b 3).toNat
  if n = 0 ∨ 32 < n then none
  some { enabled, port, caseInsensitive, pattern := (b.drop 4).take n }

/-! ## Drive settings part (R118) -/

/-- The settings part of a DRIVE_SET: output type, polarity, rail-gated and the generator values. -/
structure DrivePart where
  openDrain : Bool
  activeHigh : Bool
  railGated : Bool
  values : GenValues
deriving DecidableEq, Repr

def DrivePart.enc (r : DrivePart) : Bytes :=
  [yn r.openDrain, yn r.activeHigh, yn r.railGated, byte r.values.prescaler, yn r.values.rep, 0]
    ++ le 2 r.values.a ++ le 2 r.values.b

def DrivePart.dec (b : Bytes) : Option DrivePart := do
  let openDrain ← ynOf (byteAt b 0)
  let activeHigh ← ynOf (byteAt b 1)
  let railGated ← ynOf (byteAt b 2)
  let rep ← ynOf (byteAt b 4)
  let prescaler := (byteAt b 3).toNat
  if 14 < prescaler ∨ field b 6 2 = 0 ∨ field b 8 2 = 0 then none
  some { openDrain, activeHigh, railGated, values := { prescaler, a := field b 6 2, b := field b 8 2, rep } }

/-! ## Scan port settings and job bodies (R123, R126) -/

def ScanSettings.enc (r : ScanSettings) : Bytes := le 2 r.divider ++ [yn r.irCheck, yn r.trst]

def ScanSettings.dec (b : Bytes) : Option ScanSettings := do
  let irCheck ← ynOf (byteAt b 2)
  let trst ← ynOf (byteAt b 3)
  some { divider := clamp 2 1000 (field b 0 2), irCheck, trst }

/-- An operation slot of 20 bytes (12.6). -/
def ScanOp.enc : ScanOp → Bytes
  | .tapReset => [0, 0] ++ le 2 0 ++ le 16 0
  | .irScan n out => [1, 0] ++ le 2 n ++ le 16 out.toNat
  | .drScan n out => [2, 0] ++ le 2 n ++ le 16 out.toNat
  | .idle m => [3, 0] ++ le 2 m ++ le 16 0

/-- R126: the operation of a slot; none for an unknown kind, a length or count out of range, or an out value with a
bit set at or above the operation's length. -/
def ScanOp.dec (b : Bytes) : Option ScanOp :=
  let n := field b 2 2
  let out := field b 4 16
  match (byteAt b 0).toNat with
  | 0 => some .tapReset
  | 1 => if n = 0 ∨ 64 < n ∨ 2 ^ n ≤ out then none else some (.irScan n (BitVec.ofNat 128 out))
  | 2 => if n = 0 ∨ 128 < n ∨ 2 ^ n ≤ out then none else some (.drScan n (BitVec.ofNat 128 out))
  | 3 => if n = 0 then none else some (.idle n)
  | _ => none

/-- The first `n` operation slots, from byte 4 of the job body on (12.6). -/
def decOps (b : Bytes) : Nat → Option (List ScanOp)
  | 0 => some []
  | n + 1 => do
    let os ← decOps b n
    let o ← ScanOp.dec ((b.drop (4 + 20 * n)).take 20)
    some (os ++ [o])

/-- The scan bits of an operation, which count toward the 512 of R126. -/
def ScanOp.bits : ScanOp → Nat
  | .irScan n _ => n
  | .drScan n _ => n
  | _ => 0

/-- The length of the list's last DR_SCAN, none where it holds none (R126). -/
def lastDrLength (ops : List ScanOp) : Option Nat :=
  ops.foldl (fun acc o => match o with | .drScan n _ => some n | _ => acc) none

def encCompare : Option Compare → Bytes
  | none => le 16 0 ++ le 16 0
  | some c => le 16 c.expected.toNat ++ le 16 c.mask.toNat

def JobBody.enc (j : JobBody) : Bytes :=
  [byte j.ops.length, yn j.compare.isSome, 0, 0] ++ padTo 160 (j.ops.flatMap ScanOp.enc) ++ encCompare j.compare

/-- R126: the compare; its mask has no bit set at or above the length of the last DR_SCAN, which must exist. -/
def decCompare (b : Bytes) (ops : List ScanOp) : Option (Option Compare) := do
  let given ← ynOf (byteAt b 1)
  if given then
    let n ← lastDrLength ops
    if 2 ^ n ≤ field b 180 16 then none
    some (some { expected := BitVec.ofNat 128 (field b 164 16), mask := BitVec.ofNat 128 (field b 180 16) })
  else some none

/-- R126: the job body; none where R126 refuses it with RANGE. -/
def JobBody.dec (b : Bytes) : Option JobBody := do
  let n := (byteAt b 0).toNat
  if n = 0 ∨ 8 < n then none
  let ops ← decOps b n
  if 512 < (ops.map ScanOp.bits).sum then none
  let compare ← decCompare b ops
  some { ops, compare }

/-- The used byte and the body of a TEMPLATE_PUT or TEMPLATE_GET reply, after the template number (12.6). -/
def encTemplate : Option JobBody → Bytes
  | none => [0]
  | some j => 1 :: j.enc

end Sys2Proof.Machine
end

