-- ==== Sys2Proof/Machine/Records.lean ====
section
/-! DEFINITION. Trace records: the size of each kind in units (R54) and its bytes (12.4, 12.5). -/

namespace Sys2Proof.Machine

/-- The size of a record in units of 8 bytes (R54). -/
def RecBody.units : RecBody → Nat
  | .runArmed _ | .runStarted _ | .runEnded .. => 3
  | .edge .. => 2
  | .level .. => 2
  | .code .. => 3
  | .text _ _ b _ _ => 2 + ceilDiv b.length 8
  | .rate .. => 3
  | .drive .. => 2
  | .step .. => 3
  | .scan .. => 5
  | .mark .. => 4
  | .trig _ => 2
  | .gap _ => 3

/-- The size of a record in units. -/
def Rec.units (r : Rec) : Nat := r.body.units

/-- The kind byte of a record (12.4). -/
def RecBody.kind : RecBody → Byte
  | .runArmed _ | .runStarted _ | .runEnded .. => 1
  | .edge .. => 2
  | .level .. => 3
  | .code .. => 4
  | .text .. => 5
  | .rate .. => 6
  | .drive .. => 7
  | .step .. => 8
  | .scan .. => 9
  | .mark .. => 10
  | .trig _ => 11
  | .gap _ => 12

/-- The source byte of a record (R54, 12.5). -/
def RecBody.source : RecBody → Byte
  | .runArmed _ | .runStarted _ | .runEnded .. => 0
  | .edge c _ _ => byte c.val
  | .level b _ _ _ => byte b.val
  | .code .. => 0
  | .text p d _ _ _ => byte (2 * p.val + match d with | .rx => 0 | .tx => 1)
  | .rate m _ _ _ => byte m.val
  | .drive c _ _ => byte c.val
  | .step k _ _ _ _ _ _ => byte k.val
  | .scan cls _ _ _ _ _ => cls.number
  | .mark byStep _ => yn byStep
  | .trig src => src.code
  | .gap _ => 0

/-- A byte of flags, from bits 0, 1 and 2 (12.5). -/
def flagByte (b0 b1 b2 : Bool) : Byte := byte (b0.toNat + 2 * b1.toNat + 4 * b2.toNat)

/-- The flags byte of a record (12.5). -/
def RecBody.flags : RecBody → Byte
  | .edge _ _ retimed => flagByte retimed false false
  | .level _ _ present change => flagByte change present false
  | .text _ _ _ err brk => flagByte err brk false
  | .drive _ _ cause => cause.code
  | .step _ _ _ _ clipped lookback refused => flagByte clipped lookback refused
  | .scan cls _ _ inserted _ _ => flagByte (match cls with | .step _ => true | .host _ => false) inserted false
  | _ => 0

/-- The aux byte of a record (12.5). -/
def RecBody.aux : RecBody → Byte
  | .runArmed _ => 0
  | .runStarted _ => 1
  | .runEnded .. => 2
  | .edge _ lv _ => yn lv
  | .level _ cd _ _ => cd
  | .code cd _ _ => cd
  | .text _ _ b _ _ => byte b.length
  | .rate _ st _ _ => st.code
  | .drive _ mode _ => mode.code
  | .step _ outcome _ _ _ _ _ => outcome.code
  | .scan _ o _ _ _ _ => o.code
  | .mark .. => 0
  | .trig (.step k) => byte k.val
  | .trig _ => 0
  | .gap _ => 0

/-- The first failing step and its outcome, in two bytes, or none (12.3, 12.5). -/
def encFail : Option (Fin 64 × StepState) → Bytes
  | none => [0xFF, 0xFF]
  | some (k, o) => [byte k.val, o.code]

/-- The bytes of a record from offset 16 on (12.5). -/
def RecBody.rest : RecBody → Bytes
  | .runArmed src => src.enc ++ [0xFF, 0xFF, 0xFF, 0xFF, 0]
  | .runStarted src => src.enc ++ [0xFF, 0xFF, 0xFF, 0xFF, 0]
  | .runEnded src cause v ff => src.enc ++ [cause.code, v.code] ++ encFail ff ++ [0]
  | .code _ count last => le 2 count ++ le 5 last ++ [0]
  | .text _ _ b _ _ => padTo (8 * ceilDiv b.length 8) b
  | .rate _ _ reading mode => le 2 reading ++ [mode.code, 0, 0, 0, 0, 0]
  | .step _ _ label count _ _ _ => [label, byte count, 0, 0, 0, 0, 0, 0]
  | .scan _ _ reason _ capture len => [faultCode reason, byte len] ++ le 6 0 ++ le 16 capture.toNat
  | .mark _ label => padTo 16 label
  | .gap count => le 6 count ++ [0, 0]
  | .edge .. | .level .. | .drive .. | .trig _ => []

/-- The bytes of a retained record (12.4, 12.5). -/
def Stored.bytes (r : Stored) : Bytes :=
  [r.record.body.kind, r.record.body.source, byte r.record.units, r.record.body.flags] ++ le 6 r.seq
    ++ le 5 r.record.time ++ [r.record.body.aux] ++ r.record.body.rest

end Sys2Proof.Machine
end

