-- ==== Sys2Proof/Machine/Ops.lean ====
section
/-! DEFINITION. The operations every family shares: taking a request and answering it (R133, R134), reading an input
pin (R71), handing a record to the TS (R52) and an event to the STE (R32). -/

namespace Sys2Proof.Machine

/-! ## The run state as the other blocks see it (R1) -/

/-- ARMED or RUNNING: a run is in progress, records are accepted and configuration is frozen (R1, R29). -/
def RunState.live : RunState → Bool
  | .armed | .running => true
  | .idle | .ended => false

/-- The run state is ARMED or RUNNING. -/
def State.live (s : State) : Bool := s.rc.runState.live

/-! ## Requests -/

/-- What an owner gives the MP back: the state after its work, and the reply's status and body (R134). -/
structure Answer where
  state : State
  status : Status
  body : Bytes

/-- A request answered OK. -/
def okay (s : State) (body : Bytes) : Answer := { state := s, status := .ok, body }

/-- A refused request changes no state and its reply has an empty body (R135, 12.6). -/
def refuse (s : State) (st : Status) : Answer := { state := s, status := st, body := [] }

/-- R134: whether the MP can take the request of command `c` now: no request in hand, no reply waiting for the IN pipe,
no soft reset due (R138), and the request is at the head of the queue; or the part is attached, the queue is empty, no
frame is in reception and no bytes are being discarded, and the command brings the request with it
(notes/assumptions/2.md). -/
def Mp.canTake (m : Mp) (c : Instr) : Bool :=
  m.inHand.isNone && m.reply.isNone && !m.resetDue &&
    match m.queue with
    | [] => m.attached && m.reception.isEmpty && m.transfer != .discarding
    | e :: _ => e.command == c

/-- The head entry leaves the queue when it becomes the request in hand (R134). -/
def Mp.pop (m : Mp) : Mp := { m with queue := m.queue.tail }

/-- The reply becomes the reply in progress (R134). -/
def State.reply (s : State) (r : Reply) : State := { s with mp := { s.mp with reply := some r } }

/-- The reply of an answer to the request of a kind and tag (R134). -/
def Answer.send (a : Answer) (kind tag : Byte) : State :=
  a.state.reply { kind, tag, status := a.status, body := a.body }

/-- R137: one command makes `t` of `s`. Where it placed a notice in the empty slot and built a reply, the two became ready
together, and either may be sent first (notes/assumptions/47.md). -/
def State.beside (s t : State) : State :=
  if s.fu.slot == 0 && t.fu.slot != 0 && t.mp.reply.isSome then { t with mp := { t.mp with together := true } } else t

/-- R134: the MP takes the request of command `c`, its owner does its work, and the reply is built. A frame of wrong
body length is answered MALFORMED and no owner takes it (R133). A command whose request cannot be taken now does not
happen: nothing changes. -/
def takeRequest (c : Instr) (kind tag : Byte) (owner : State → Answer) (s : State) : State :=
  if s.mp.canTake c then
    let s1 := { s with mp := s.mp.pop }
    s.beside ((if c.bodyOk then owner s1 else refuse s1 .malformed).send kind tag)
  else s

/-! ## Input pins -/

/-- R71: an input reads 1 when its voltage is above threshold × 14 mV (notes/assumptions/27.md). -/
def reads (mv threshold : Nat) : Bool := threshold * Config.mvPerCode < mv

/-- The bank of a monitor channel: floor(c / 8) (6.1). -/
def chanBank (c : Fin 24) : Fin 4 := ⟨c.val / 8, by omega⟩

/-- The bank of a drive channel (00_scope.md, "Banks"). -/
def driveBank (c : Fin 8) : Fin 4 := ⟨c.val / 4, by omega⟩

/-- The bank of a console port: CP0 on C, CP1 on D (00_scope.md, "Banks"). -/
def portBank (p : Fin 2) : Fin 4 := ⟨p.val + 2, by omega⟩

/-- The raw input of a monitor channel (6.1). -/
def State.rawMc (s : State) (c : Fin 24) : Bool := reads s.pins.mc[c] s.lau[chanBank c].threshold

/-- STB as bank D's comparator reads it (R96). -/
def State.readStb (s : State) : Bool := reads s.pins.stb s.lau[(3 : Fin 4)].threshold

/-- The byte D0..D7 read, D0 as bit 0 (R96). -/
def State.readData (s : State) : Byte :=
  byte ((List.finRange 8).foldl (fun n k => n + if reads s.pins.data[k] s.lau[(3 : Fin 4)].threshold then 2 ^ k.val else 0) 0)

/-- The receive line of a console port as its bank's comparator reads it (R105). -/
def State.readRx (s : State) (p : Fin 2) : Bool := reads s.pins.rx[p] s.lau[portBank p].threshold

/-- TDO as bank D's comparator reads it (R123). -/
def State.readTdo (s : State) : Bool := reads s.pins.tdo s.lau[(3 : Fin 4)].threshold

/-! ## One instance of a numbered block -/

/-- Replace one monitor channel. -/
def State.setMc (s : State) (c : Fin 24) (m : Mc) : State := { s with mc := s.mc.set c m c.isLt }

/-- Replace one rate monitor. -/
def State.setRm (s : State) (m : Fin 4) (r : Rm) : State := { s with rm := s.rm.set m r m.isLt }

/-- Replace one LAU. -/
def State.setLau (s : State) (b : Fin 4) (l : Lau) : State := { s with lau := s.lau.set b l b.isLt }

/-- Replace one console port. -/
def State.setCp (s : State) (p : Fin 2) (c : Cp) : State := { s with cp := s.cp.set p c p.isLt }

/-- Replace one text matcher. -/
def State.setTm (s : State) (m : Fin 8) (t : Tm) : State := { s with tm := s.tm.set m t m.isLt }

/-- Replace one drive channel. -/
def State.setDc (s : State) (c : Fin 8) (d : Dc) : State := { s with dc := s.dc.set c d c.isLt }

/-! ## Records and events handed over -/

/-- A record reaches the TS input (R52). -/
def State.enqueue (s : State) (w : Waiting) : State := { s with ts := { s.ts with input := s.ts.input ++ [w] } }

/-- R52: a record handed to the TS. It waits at the input while ARMED or RUNNING and is discarded otherwise, with no
count and no flag. -/
def State.hand (s : State) (src : RecSource) (r : Rec) : State :=
  if s.live then s.enqueue { record := r, source := src, reached := s.clock, endWork := false, awaited := false } else s

/-- R15, R52: a record of the end work, taken under the active mode although the run state is ENDED. -/
def State.handEnd (s : State) (src : RecSource) (r : Rec) : State :=
  s.enqueue { record := r, source := src, reached := s.clock, endWork := true, awaited := false }

/-- A record closed by a source: in the end work it is handed over as such, at any other moment by R52 (R99, R107). -/
def State.handClose (s : State) (ending : Bool) (src : RecSource) (r : Rec) : State :=
  if ending then s.handEnd src r else s.hand src r

/-- R31, R32: an event handed to the STE, which takes it in a delivery of its own. -/
def State.handEvent (s : State) (e : Event) : State :=
  { s with ste := { s.ste with events := s.ste.events ++ [e] } }

end Sys2Proof.Machine
end

