-- ==== Sys2Proof/Machine/Code.lean ====
section
/-! DEFINITION. The code port's own operations (chapter 7): watching STB, a capture, folding, the history, and the open
CODE record. -/

namespace Sys2Proof.Machine

/-- Replace the code port. -/
def State.setCdp (s : State) (c : Cdp) : State := { s with cdp := c }

/-- R96: the port watches STB: enabled, bank D's rail PRESENT, no strobe blanking. -/
def State.watchesStb (s : State) : Bool :=
  s.cdp.settings.enabled && s.lau[(3 : Fin 4)].present && s.cdp.blanking.isNone

/-- The level the selected strobe edge leads to (R96). -/
def CodeSettings.edgeLevel (r : CodeSettings) : Bool := r.strobe == .rising

/-- R96: a strobe edge: STB reads the level the selected edge leads to while the reference holds the other. -/
def State.strobeNow (s : State) : Bool :=
  s.watchesStb && s.readStb == s.cdp.settings.edgeLevel && s.cdp.reference == some (!s.cdp.settings.edgeLevel)

/-- R96: a sample of STB that is no strobe edge becomes the new reference; a strobe edge is left to be taken. -/
def State.sampleStb (s : State) : State :=
  if s.watchesStb && !s.strobeNow then s.setCdp { s.cdp with reference := some s.readStb } else s

/-- R97: whether a non-ignored capture of a code folds into the history's head. -/
def Cdp.folds (c : Cdp) (code : Byte) : Bool :=
  match c.history with
  | [] => false
  | h :: _ => h.code == code && c.foldFrom.isSome && decide (h.count < Config.codeCountMax)

/-- R98: the history after a non-ignored capture: a folding one adds to the head, any other inserts a new head, and
the oldest of 16 leaves. -/
def Cdp.historyAfter (c : Cdp) (code : Byte) : List CodeEntry :=
  match c.history, c.folds code with
  | h :: hs, true => { h with count := h.count + 1 } :: hs
  | hs, _ => ({ code, count := 1 } :: hs).take Config.historyMax

/-- R99: the open CODE record is handed to the TS and becomes none. `ending` says that the end work closes it. -/
def State.closeCode (s : State) (ending : Bool) : State :=
  match s.cdp.pending with
  | none => s
  | some p =>
    (s.setCdp { s.cdp with pending := none }).handClose ending .cdp
      { time := p.first, body := .code p.code p.count p.last }

/-- R99: what a non-ignored capture of a run does to the open CODE record. -/
def State.recordCode (s : State) (code : Byte) (folds : Bool) : State :=
  let t := s.rc.timeBase
  if s.live && s.cdp.settings.trace then
    match s.cdp.pending, folds with
    | some p, true => s.setCdp { s.cdp with pending := some { p with count := p.count + 1, last := t } }
    | _, _ =>
      let s1 := s.closeCode false
      let s2 := s1.setCdp { s1.cdp with pending := some { code, count := 1, first := t, last := t } }
      if s.cdp.settings.foldWindow = 0 then s2.closeCode false else s2
  else s

/-- R97, R98, R99, R100: a captured code. An ignored one does nothing more. Any other restarts the fold timer, changes
the history, acts on the open record, delivers a CODE event with the prior head, and raises CODE. -/
def State.capture (s : State) (code : Byte) : State :=
  if code ∈ s.cdp.settings.ignoreList then s
  else
    let c := s.cdp
    let s1 := s.setCdp { c with
      history := c.historyAfter code
      foldFrom := if c.settings.foldWindow = 0 then none else some s.clock }
    ((s1.recordCode code (c.folds code)).handEvent
      { time := s.rc.timeBase, body := .code code (c.history.head?.map CodeEntry.code) }).raise .code

/-- The fold timer reaches the fold window (R97). -/
def State.foldDue (s : State) : Bool :=
  s.cdp.foldFrom.any fun t => decide (t + s.cdp.settings.foldWindow * Config.ticksPerMs ≤ s.clock)

/-- The strobe blanking's end is reached (R96). -/
def State.strobeBlankingDue (s : State) : Bool := s.cdp.blanking.any fun t => decide (t ≤ s.clock)

/-- R96: the first sample taken once watching resumes becomes the reference; while STB is not watched it is none. -/
def State.freshReference (s : State) : Option Bool := if s.watchesStb then some s.readStb else none

/-- R96: strobe blanking starts, or restarts. -/
def State.blankStrobe (s : State) : State :=
  s.setCdp { s.cdp with blanking := some (s.clock + Config.blankingTicks), reference := none }

/-- R96, R99: bank D's rail is lost: STB is not watched, and the open CODE record closes. DESIGN CHOICE: a strobe
blanking in progress ends with the loss, as R86 ends a channel's; R96 does not say (notes/assumptions/42.md). -/
def State.codeRailLoss (s : State) : State :=
  (s.setCdp { s.cdp with blanking := none, reference := none }).closeCode false

end Sys2Proof.Machine
end

