-- ==== Sys2Proof/Machine/Console.lean ====
section
/-! DEFINITION. The console ports' and text matchers' own operations (chapter 8): bit times, the receiver, fragments, the
transmitter, and the search for a pattern. -/

namespace Sys2Proof.Machine

/-! ## Bit times (R105) -/

/-- The baud rates in bits a second, by code (8.1, 12.2). -/
def baudRate (b : Baud) : Nat := [9600, 19200, 38400, 57600, 115200, 230400, 460800, 921600].getD b.val 115200

/-- The bits of a frame: a start bit, eight data bits, the parity bit where there is one, a stop bit (R105). -/
def Format.frameBits : Format → Nat
  | .f8N1 => 10
  | .f8E1 | .f8O1 => 11

/-- The first tick at or after `halves` half bit times from a start, counted from it: a bit time is 100,000,000 / baud
ticks, kept exactly (R105). -/
def ConsSettings.halfBits (r : ConsSettings) (halves : Nat) : Nat :=
  ceilDiv (halves * Config.coreHz) (2 * baudRate r.baud)

/-- The sample point of bit `k`: the first tick at or after (k + 0.5) bit times (R105). -/
def ConsSettings.samplePoint (r : ConsSettings) (k : Nat) : Nat := r.halfBits (2 * k + 1)

/-- The frame time F, to its first tick (R105). -/
def ConsSettings.frameTime (r : ConsSettings) : Nat := r.halfBits (2 * r.format.frameBits)

/-- The index of the stop bit (R105). -/
def ConsSettings.stopBit (r : ConsSettings) : Nat := r.format.frameBits - 1

/-- A span of ticks is longer than F, exactly (R106). -/
def ConsSettings.longerThanFrame (r : ConsSettings) (ticks : Nat) : Bool :=
  r.format.frameBits * Config.coreHz < ticks * baudRate r.baud

/-! ## The receiver (R105) -/

/-- R105, R109: the port works: it is enabled and its bank's rail is PRESENT. Its receiver is inert otherwise. -/
def State.portLive (s : State) (p : Fin 2) : Bool := s.cp[p].settings.enabled && s.lau[portBank p].present

/-- The receiver begins in WAIT_IDLE (R104, R110), and times how long the line has read 1 from this moment on. DESIGN
CHOICE: R104 does not say whether a CONS_SET of a port that works already counts the time before it toward F; the model
counts from the CONS_SET (notes/assumptions/40.md). -/
def Cp.beginWait (c : Cp) (high : Bool) (clock : Nat) : Cp :=
  { c with rx := .waitIdle, highSince := if high then some clock else none, bits := [], held := false }

/-- The line's level as the receiver samples it: since when it has read 1 (R105), and whether it has read 0 ever since
the start edge (R106). -/
def Cp.sampleLine (c : Cp) (high : Bool) (clock : Nat) : Cp :=
  { c with highSince := if high then some (c.highSince.getD clock) else none, steadyLow := c.steadyLow && !high }

/-- The receive line of a port is sampled (R105). -/
def State.sampleRx (s : State) (p : Fin 2) : State := s.setCp p (s.cp[p].sampleLine (s.readRx p) s.clock)

/-- R105: at the sample point of a bit between the start bit and the stop bit its sample is kept; the start bit's
sample is kept where it reads 0. A start bit that reads 1 and the stop bit are taken as steps of their own. -/
def Cp.tick (c : Cp) (clock : Nat) (high : Bool) : Cp :=
  let k := c.bits.length
  if c.rx = .receiving ∧ !c.held ∧ k < c.settings.stopBit ∧ c.rxStart + c.settings.samplePoint k ≤ clock
      ∧ !(k = 0 ∧ high) then
    { c with bits := c.bits ++ [high] }
  else c

/-- WAIT_IDLE ends: the line has read 1 for F (R105). -/
def State.waitIdleDue (s : State) (p : Fin 2) : Bool :=
  s.portLive p && s.cp[p].rx == .waitIdle &&
    s.cp[p].highSince.any fun t => decide (t + s.cp[p].settings.frameTime ≤ s.clock)

/-- The line reads 0 in IDLE (R105). -/
def State.startDue (s : State) (p : Fin 2) : Bool := s.portLive p && s.cp[p].rx == .idle && !s.readRx p

/-- The line reads 1 at the start bit's sample point (R105). -/
def State.glitchDue (s : State) (p : Fin 2) : Bool :=
  let c := s.cp[p]
  s.portLive p && c.rx == .receiving && c.bits.isEmpty && decide (c.rxStart + c.settings.samplePoint 0 ≤ s.clock)
    && s.readRx p

/-- The stop bit's sample point is reached, every earlier bit sampled (R105). -/
def State.arrivalDue (s : State) (p : Fin 2) : Bool :=
  let c := s.cp[p]
  s.portLive p && c.rx == .receiving && !c.held && c.bits.length == c.settings.stopBit
    && decide (c.rxStart + c.settings.samplePoint c.settings.stopBit ≤ s.clock)

/-- The line reads 1 while an all-zero frame is held (R105). -/
def State.heldDue (s : State) (p : Fin 2) : Bool :=
  s.portLive p && s.cp[p].rx == .receiving && s.cp[p].held && s.readRx p

/-- A break is recognised: an all-zero frame is held, and the line has read 0 continuously for more than F since the
start edge (R106). A line that has read 1 in between, at no sample point, gives no break for this start edge. -/
def State.breakDue (s : State) (p : Fin 2) : Bool :=
  let c := s.cp[p]
  s.portLive p && c.rx == .receiving && c.held && c.steadyLow && !s.readRx p
    && c.settings.longerThanFrame (s.clock - c.rxStart)

/-- The line reads 1 in WAIT_HIGH (R105). -/
def State.recoveryDue (s : State) (p : Fin 2) : Bool := s.portLive p && s.cp[p].rx == .waitHigh && s.readRx p

/-- The eight data bits of a frame's samples, least significant first after the start bit (R105). -/
def dataByte (bits : List Bool) : Byte :=
  byte (((bits.drop 1).take 8).foldr (fun b n => b.toNat + 2 * n) 0)

/-- R105: the parity is correct: the data bits and the parity bit hold an even (8E1) or odd (8O1) number of 1s. -/
def parityOk (f : Format) (bits : List Bool) : Bool :=
  let ones := ((bits.drop 1).take 9).count true
  match f with
  | .f8N1 => true
  | .f8E1 => ones % 2 == 0
  | .f8O1 => ones % 2 == 1

/-! ## Fragments (R107, R109) -/

/-- The open fragment of a port in one direction. -/
def Cp.fragment (c : Cp) : TextDir → Option Fragment
  | .rx => c.rxFragment
  | .tx => c.txFragment

/-- Replace the open fragment of a port in one direction. -/
def Cp.setFragment (c : Cp) (d : TextDir) (f : Option Fragment) : Cp :=
  match d with
  | .rx => { c with rxFragment := f }
  | .tx => { c with txFragment := f }

/-- R107: the open fragment of a port closes and is handed to the TS as a TEXT record. `brk` sets its BREAK flag. -/
def State.closeFragment (s : State) (ending : Bool) (p : Fin 2) (d : TextDir) (brk : Bool) : State :=
  match s.cp[p].fragment d with
  | none => s
  | some f =>
    (s.setCp p (s.cp[p].setFragment d none)).handClose ending (.cp p d)
      { time := f.first, body := .text p d f.bytes f.error (f.brk || brk) }

/-- R107: a fragment with one more byte at time `t`. -/
def Fragment.add (f : Option Fragment) (b : Byte) (t : Nat) (err : Bool) : Fragment :=
  match f with
  | none => { bytes := [b], first := t, last := t, error := err, brk := false }
  | some f => { f with bytes := f.bytes ++ [b], last := t, error := f.error || err }

/-- R107: a byte at time `t` joins the port's fragment of one direction, which closes at LF and at 56 bytes. Outside
ARMED and RUNNING no fragment is kept. -/
def State.addByte (s : State) (p : Fin 2) (d : TextDir) (b : Byte) (t : Nat) (err : Bool) : State :=
  if s.live then
    let f := Fragment.add (s.cp[p].fragment d) b t err
    let s1 := s.setCp p (s.cp[p].setFragment d (some f))
    if b = 0x0A ∨ Config.fragmentMax ≤ f.bytes.length then s1.closeFragment false p d false else s1
  else s

/-- R107, R109: the idle gap after the fragment's last byte has passed on the run time base. DESIGN CHOICE: it may pass
while an all-zero frame that arrived within it is held; R107 does not say whether such a frame has arrived
(notes/assumptions/38.md). -/
def State.gapDue (s : State) (p : Fin 2) (d : TextDir) : Bool :=
  s.live && (s.cp[p].fragment d).any fun f =>
    decide (f.last + s.cp[p].settings.idleGap * Config.ticksPerMs ≤ s.rc.timeBase)

/-! ## Text matchers (R112, R113) -/

/-- An ASCII letter in lower case; any other byte as it is (R112). -/
def foldCase (b : Byte) : Byte := if 0x41 ≤ b.toNat ∧ b.toNat ≤ 0x5A then b + 0x20 else b

/-- R112: two bytes are equal. -/
def bytesEqual (ci : Bool) (a b : Byte) : Bool := if ci then foldCase a == foldCase b else a == b

/-- R112: two runs of bytes are equal, byte for byte. -/
def runsEqual (ci : Bool) : Bytes → Bytes → Bool
  | [], [] => true
  | a :: as, b :: bs => bytesEqual ci a b && runsEqual ci as bs
  | _, _ => false

/-- The longest prefix of the pattern, of at most `n` bytes, that the taken bytes end with (R112). -/
def longestPrefix (ci : Bool) (pattern taken : Bytes) : Nat → Nat
  | 0 => 0
  | n + 1 =>
    if runsEqual ci (pattern.take (n + 1)) (taken.drop (taken.length - (n + 1))) then n + 1
    else longestPrefix ci pattern taken n

/-- R112: the progress after a good byte. The bytes taken since the progress was last set to 0 end with the `progress`
bytes of the pattern matched so far, and a longer prefix ends at most one byte later. -/
def Tm.advance (t : Tm) (b : Byte) : Nat :=
  longestPrefix t.settings.caseInsensitive t.settings.pattern (t.settings.pattern.take t.progress ++ [b]) (t.progress + 1)

/-- R113: the progress is set to 0. -/
def Tm.restart (t : Tm) : Tm := { t with progress := 0 }

/-- The enabled matchers bound to a port (R112). -/
def State.listens (s : State) (m : Fin 8) (p : Fin 2) : Bool := s.tm[m].settings.enabled && s.tm[m].settings.port == p

/-- R112: one matcher takes a good byte. At a hit it delivers a TEXT event with the byte's arrival time, raises
TEXT_HIT and sets its progress to 0. -/
def State.matchByte (b : Byte) (t : Nat) (s : State) (m : Fin 8) : State :=
  let n := s.tm[m].advance b
  if n = s.tm[m].settings.pattern.length then
    ((s.setTm m s.tm[m].restart).handEvent { time := t, body := .text m }).raise .textHit
  else s.setTm m { s.tm[m] with progress := n }

/-- R112: every enabled matcher of the port takes a good byte at its arrival time. -/
def State.matchAll (s : State) (p : Fin 2) (b : Byte) (t : Nat) : State :=
  (List.finRange 8).foldl (fun s m => if s.listens m p then s.matchByte b t m else s) s

/-- R113: an error byte or a break sets the progress of every enabled matcher of the port to 0; a rail loss or a
CONS_SET does so for every matcher bound to it, and a disabled matcher holds 0 already. -/
def State.restartMatchers (s : State) (p : Fin 2) : State :=
  (List.finRange 8).foldl (fun s m => if s.tm[m].settings.port = p then s.setTm m s.tm[m].restart else s) s

/-- R105: a taken byte goes to the port's receive fragment and to its matchers, which take a good byte and restart at
an error byte. -/
def State.takeByte (s : State) (p : Fin 2) (b : Byte) (t : Nat) (err : Bool) : State :=
  let s1 := s.addByte p .rx b t err
  if err then s1.restartMatchers p else s1.matchAll p b t

/-! ## The transmitter (R109) -/

/-- R109: when no byte is in flight and the queue holds bytes, the oldest becomes the byte in flight. -/
def Cp.transmit (c : Cp) (clock : Nat) : Cp :=
  match c.inFlight, c.queue with
  | none, b :: bs => { c with inFlight := some { byte := b, started := clock, complete := false }, queue := bs }
  | _, _ => c

/-- R109: the send time of the byte in flight is reached: the middle of its stop bit. -/
def Cp.sendDue (c : Cp) (clock : Nat) : Bool :=
  c.inFlight.any fun f => !f.complete && decide (f.started + c.settings.samplePoint c.settings.stopBit ≤ clock)

/-- R109: the frame time of the byte in flight ends. -/
def Cp.sentDue (c : Cp) (clock : Nat) : Bool :=
  c.inFlight.any fun f => f.complete && decide (f.started + c.settings.frameTime ≤ clock)

/-- The bytes of the transmit side: the queue and the byte in flight (R104, R110). -/
def Cp.unsent (c : Cp) : Nat := c.queue.length + if c.inFlight.isSome then 1 else 0

/-- R104, R110: the byte in flight is abandoned, the queue emptied, and every byte removed counted. -/
def Cp.dropTransmit (c : Cp) : Cp :=
  { c with queue := [], inFlight := none, discards := min Config.discardMax (c.discards + c.unsent) }

/-- R104, R110: the transmit side of a port is discarded; TX_DROP is raised where at least one byte was. -/
def State.dropTransmit (s : State) (p : Fin 2) : State :=
  (s.setCp p s.cp[p].dropTransmit).raiseIf (0 < s.cp[p].unsent) .txDrop

/-- What the transmit pin shows: released while the port is disabled or its rail ABSENT (R104, R110); 1 when no byte is
in flight; else the bit of the byte in flight (R109). -/
def State.txPin (s : State) (p : Fin 2) : Option Bool :=
  let c := s.cp[p]
  if !s.portLive p then none
  else match c.inFlight with
  | none => some true
  | some f =>
    let begun (k : Nat) : Bool := decide (f.started + c.settings.halfBits (2 * k) ≤ s.clock)
    let k := ((List.range c.settings.format.frameBits).filter begun).length - 1
    let ones := ((List.range 8).filter f.byte.getLsbD).length
    some (if k = 0 then false
      else if k ≤ 8 then f.byte.getLsbD (k - 1)
      else if k = c.settings.stopBit then true
      else match c.settings.format with
        | .f8O1 => ones % 2 == 0
        | _ => ones % 2 == 1)

/-- R110: the rail of the port's bank is lost. A byte in reception or a held frame is abandoned, both fragments close,
the transmit side is discarded, and the progress of the port's matchers becomes 0. -/
def State.portRailLoss (s : State) (p : Fin 2) : State :=
  let s1 := (s.closeFragment false p .rx false).closeFragment false p .tx false
  let s2 := s1.setCp p { s1.cp[p] with rx := .waitIdle, bits := [], held := false }
  (s2.dropTransmit p).restartMatchers p

end Sys2Proof.Machine
end

