-- ==== Sys2Proof/Machine/Drive.lean ====
section
/-! DEFINITION. The drive channels' own operations (chapter 9): the operations of R117, claims, DRIVE records, the
forced release, the generator, and what the pin shows (R115). -/

namespace Sys2Proof.Machine

/-- The drive mode of a channel (R115). -/
def Dc.driveMode (d : Dc) : DriveMode :=
  match d.mode with
  | .released => .released
  | .low => .low
  | .high => .high
  | .pulse => if d.running then .pulseRunning else .pulseIdle

/-- What a drive pin shows (R115, 12.2). -/
inductive PinLevel where
  | released | drivenLow | drivenHigh
deriving DecidableEq, Repr

/-- The level of a pin (12.2). -/
def PinLevel.code : PinLevel → Byte
  | .released => 0 | .drivenLow => 1 | .drivenHigh => 2

/-- The pin of a channel that holds its line at a level: an open-drain pin lets a high level go (R115). -/
def Dc.hold (d : Dc) (high : Bool) : PinLevel :=
  if high then (if d.openDrain then .released else .drivenHigh) else .drivenLow

/-- R115: the pin by mode, output type and, for PULSE, the generator's present level. -/
def Dc.pin (d : Dc) : PinLevel :=
  match d.mode with
  | .released => .released
  | .low => d.hold false
  | .high => d.hold true
  | .pulse => d.hold (if d.activeLevel then d.activeHigh else !d.activeHigh)

/-- The generator stopped, its counter 0 and its level inactive (R117). -/
def Dc.stopGen (d : Dc) : Dc := { d with running := false, counter := 0, subTicks := 0, activeLevel := false }

/-- A new generator run from counter 0 under the buffered values (R116, R117). -/
def Dc.startGen (d : Dc) : Dc :=
  { d with mode := .pulse, running := true, counter := 0, subTicks := 0, activeLevel := false, active := d.buffered }

/-- R117: an operation on a channel, by its mode when taken. -/
def Dc.operate (d : Dc) (op : DriveOp) : Dc :=
  match op with
  | .release => { d.stopGen with mode := .released }
  | .low => { d.stopGen with mode := .low }
  | .high => { d.stopGen with mode := .high }
  | .startPulse => d.startGen
  | .stopPulse => if d.mode = .pulse then d.stopGen else d

/-- Whether an operation drives a level, and so needs the rail of a gated channel (R118, R119). -/
def DriveOp.drives : DriveOp → Bool
  | .low | .high | .startPulse => true
  | .release | .stopPulse => false

/-- R119: a change of drive mode, and a START_PULSE that restarts a RUNNING generator, hand over a DRIVE record. -/
def recordsChange (before after : Dc) (op : DriveOp) : Bool :=
  before.driveMode != after.driveMode || (op == .startPulse && before.running)

/-- R119: the DRIVE record of a channel, with the drive mode entered. -/
def State.handDrive (s : State) (c : Fin 8) (mode : DriveMode) (cause : DriveCause) : State :=
  s.hand (.dc c) { time := s.rc.timeBase, body := .drive c mode cause }

/-- R117, R119: an operation taken on a channel, with its DRIVE record where one is called for. -/
def State.driveOperate (s : State) (c : Fin 8) (op : DriveOp) (cause : DriveCause) : State :=
  let d := s.dc[c]
  let d' := d.operate op
  let s1 := s.setDc c d'
  if recordsChange d d' op then s1.handDrive c d'.driveMode cause else s1

/-- A gated channel whose bank's rail is ABSENT (R118, R119, R120). -/
def State.driveBlocked (s : State) (c : Fin 8) (gated : Bool) : Bool := gated && !s.lau[driveBank c].present

/-- R119: a step's claim. Where it is refused for the rail it changes nothing but DRIVE_BLOCK, and the answer says so. -/
def State.stepClaim (s : State) (c : Fin 8) (op : DriveOp) : State × Bool :=
  if op.drives && s.driveBlocked c s.dc[c].railGated then (s.raise .driveBlock, true)
  else (s.driveOperate c op .step, false)

/-- R120: the forced release of a rail-gated channel that is not RELEASED: a DRIVE record with cause RAIL, and
DRIVE_BLOCK. -/
def State.forceRelease (s : State) (c : Fin 8) : State :=
  if s.dc[c].railGated && s.dc[c].driveMode != .released then
    ((s.setDc c (s.dc[c].operate .release)).handDrive c .released .rail).raise .driveBlock
  else s

/-- R116: one tick of the generator: a unit of 2^p ticks moves the counter on by one. DESIGN CHOICE: the active level and
the period end that the counter calls for follow at the same tick as commands of their own, so a command taken between
sees the counter moved and the level not yet (notes/assumptions/43.md). -/
def Dc.tick (d : Dc) : Dc :=
  if d.running then
    if d.subTicks + 1 < 2 ^ d.active.prescaler then { d with subTicks := d.subTicks + 1 }
    else { d with subTicks := 0, counter := d.counter + 1 }
  else d

/-- The counter of a running generator has reached A within its period, and the level is not active yet (R116). -/
def Dc.activeDue (d : Dc) : Bool :=
  d.running && decide (d.active.a ≤ d.counter) && decide (d.counter < d.active.b) && !d.activeLevel

/-- The counter of a running generator has reached B (R116). -/
def Dc.periodDue (d : Dc) : Bool := d.running && decide (d.active.b ≤ d.counter)

/-- R116: the period ends: in repeat the active values are loaded and a new period begins; one-shot goes IDLE. -/
def Dc.periodEnd (d : Dc) : Dc := if d.active.rep then d.startGen else d.stopGen

end Sys2Proof.Machine
end

