-- ==== Sys2Proof/Machine/Monitor.lean ====
section
/-! DEFINITION. The monitor channels' and rate monitors' own operations (chapter 6): watching the raw input, blanking,
rail loss, acceptance; sampling, readings, candidates and the report of a change of state. -/

namespace Sys2Proof.Machine

/-! ## Monitor channels -/

/-- R83: the channel watches its raw input: enabled, its bank's rail PRESENT, not in blanking. -/
def State.watching (s : State) (c : Fin 24) : Bool :=
  s.mc[c].settings.enabled && s.lau[chanBank c].present && s.mc[c].blanking.isNone

/-- R83: what the channel makes of its raw input: a pending transition opens when it leaves the conditioned level, and
is dropped when it returns. -/
def Mc.watch (m : Mc) (raw : Bool) (clock : Nat) : Mc :=
  match m.pending with
  | none => if raw = m.level then m else { m with pending := some { level := raw, t0 := clock, retimed := false } }
  | some _ => if raw = m.level then { m with pending := none } else m

/-- R85: a blanking starts, or restarts: a pending transition is dropped. -/
def Mc.blank (m : Mc) (clock : Nat) : Mc := { m with pending := none, blanking := some (clock + Config.blankingTicks) }

/-- R86: the rail is lost: no pending transition, no blanking, level 0. -/
def Mc.railLoss (m : Mc) : Mc := { m with pending := none, blanking := none, level := false }

/-- R85: the blanking ends: an enabled channel whose raw input differs from its level opens a RETIMED transition. -/
def Mc.blankingEnd (m : Mc) (raw : Bool) (clock : Nat) : Mc :=
  if m.settings.enabled ∧ raw ≠ m.level then
    { m with blanking := none, pending := some { level := raw, t0 := clock, retimed := true } }
  else { m with blanking := none }

/-- The debounce of a channel in ticks (6.1). -/
def Mc.debounceTicks (m : Mc) : Nat := m.settings.debounce * Config.ticksPerUs

/-- R83: the pending transition has held for its debounce. -/
def Mc.acceptDue (m : Mc) (clock : Nat) : Bool := m.pending.any fun p => decide (p.t0 + m.debounceTicks ≤ clock)

/-- The blanking's end is reached (R85). -/
def Mc.blankingDue (m : Mc) (clock : Nat) : Bool := m.blanking.any fun t => decide (t ≤ clock)

/-- R84: the direction is among the trace directions. -/
def ChanSettings.traces (r : ChanSettings) (rising : Bool) : Bool := if rising then r.traceRising else r.traceFalling

/-- R84: the timestamp of an accepted transition: the run time base less the debounce, 0 where that falls below 0. -/
def State.edgeTime (s : State) (c : Fin 24) : Nat := s.rc.timeBase - s.mc[c].debounceTicks

/-- The direction of a change to a level (R84). -/
def dirTo (level : Bool) : Dir := if level then .rising else .falling

/-- R84: a transition is accepted: the level changes, the EDGE event goes to the STE whatever the trace directions,
and the EDGE record to the TS where its direction is traced. -/
def State.acceptTransition (s : State) (c : Fin 24) (p : Transition) : State :=
  let m := s.mc[c]
  let t := s.edgeTime c
  let s1 := (s.setMc c { m with level := p.level, pending := none }).handEvent
    { time := t, body := .edge c (dirTo p.level) }
  if m.settings.traces p.level then s1.hand (.mc c) { time := t, body := .edge c p.level p.retimed } else s1

/-! ## Rate monitors -/

/-- R93: the monitor reads its raw input only while the rail of its channel's bank is PRESENT. -/
def State.rmReads (s : State) (m : Fin 4) : Bool :=
  s.rm[m].settings.enabled && s.lau[chanBank s.rm[m].settings.channel].present

/-- R91, R92, R93: one sample of the raw input. The first sample gives no edge. A CLOCK monitor counts a rising edge;
a TACH monitor leaves a falling edge to be taken as such, and keeps the 1 before it as its last sample until then
(notes/assumptions/26.md). -/
def Rm.sample (r : Rm) (raw : Bool) : Rm :=
  match r.last, r.settings.mode with
  | none, _ => { r with last := some raw }
  | some l, .clock => { r with last := some raw, edges := if raw && !l then r.edges + 1 else r.edges }
  | some _, .tach => if raw then { r with last := some true } else r

/-- Each monitor that reads channel `c` samples it (R91, R92). -/
def State.sampleChannel (s : State) (c : Fin 24) : State :=
  (List.finRange 4).foldl (fun s m =>
    if s.rmReads m ∧ s.rm[m].settings.channel = c then s.setRm m (s.rm[m].sample (s.rawMc c)) else s) s

/-- R93: the rail of the bound channel's bank is lost. DESIGN CHOICE: a CLOCK gate in progress that was void since the
rail's return is void no more, since it ends while the rail is ABSENT (notes/assumptions/41.md). -/
def Rm.railLoss (r : Rm) : Rm :=
  { r with candidate := none, agreement := 0, last := none, revolution := none, edges := 0, gateVoid := false }

/-- R93: the rail returns: the first sample gives no edge, and the gate in progress is void. -/
def Rm.railReturn (r : Rm) (raw : Bool) : Rm := { r with last := some raw, gateVoid := r.settings.mode == .clock }

/-- R91: the reading of a revolution of `ticks`, in rpm: floor(6,000,000,000 / R), at most 65,535
(notes/assumptions/28.md). -/
def tachReading (ticks : Nat) : Nat := if ticks = 0 then 65535 else min 65535 (Config.minuteTicks / ticks)

/-- R91: the candidate of a TACH reading. -/
def RateSettings.tachCandidate (r : RateSettings) (reading : Nat) : RateState :=
  if reading < r.lowRpm then .low else if r.highRpm < reading then .high else .ok

/-- R92: the candidate of a gate's count. -/
def RateSettings.clockCandidate (r : RateSettings) (count : Nat) : RateState :=
  let reading := min 50000 count
  if count = 0 then .stall
  else if reading + r.tolerance < r.expected then .low
  else if r.expected + r.tolerance < reading then .high
  else .ok

/-- R90: how many agreeing readings a move needs. -/
def agreementNeeded (mode : RateMode) (target : RateState) : Nat :=
  match target, mode with
  | .stall, _ => 1
  | .ok, .tach => 2
  | .ok, .clock => 4
  | _, _ => 2

/-- R90: the monitor judges a candidate. -/
def Rm.judge (r : Rm) (cand : RateState) : Rm :=
  if cand = r.state then { r with candidate := none, agreement := 0 }
  else
    let n := if r.candidate = some cand then r.agreement + 1 else 1
    if agreementNeeded r.settings.mode cand ≤ n then { r with state := cand, candidate := none, agreement := 0 }
    else { r with candidate := some cand, agreement := n }

/-- R94: a change of state is reported: a RATE event, the RATE flag, and a RATE record in a run. -/
def State.reportRate (s : State) (m : Fin 4) (left : RateState) : State :=
  let r := s.rm[m]
  if r.state = left then s
  else
    ((s.handEvent { time := s.rc.timeBase, body := .rate m r.state left }).raise .rate).hand (.rm m)
      { time := s.rc.timeBase, body := .rate m r.state r.reading r.settings.mode }

/-- Put a monitor's new state in place and report a change (R94). -/
def State.updateRm (s : State) (m : Fin 4) (r : Rm) : State := (s.setRm m r).reportRate m s.rm[m].state

/-- A falling edge of a TACH monitor's input: the input reads 0 after reading 1 (R91). -/
def State.tachEdge (s : State) (m : Fin 4) : Bool :=
  s.rmReads m && s.rm[m].settings.mode == .tach && s.rm[m].last == some true && !s.rawMc s.rm[m].settings.channel

/-- R91: a falling edge restarts the stall timer; it opens a revolution, counts a period, or closes the revolution with
a reading and opens the next. -/
def Rm.fallingEdge (r : Rm) (clock : Nat) : Rm :=
  let r := { r with last := some false, stallFrom := some clock }
  match r.revolution with
  | none => { r with revolution := some { opened := clock, periods := 0 } }
  | some v =>
    if v.periods + 1 < r.settings.ppr then { r with revolution := some { v with periods := v.periods + 1 } }
    else
      let reading := tachReading (clock - v.opened)
      { r with reading, revolution := some { opened := clock, periods := 0 } }.judge (r.settings.tachCandidate reading)

/-- The stall timer of a TACH monitor reaches the stall time (R91). -/
def Rm.stallDue (r : Rm) (clock : Nat) : Bool :=
  r.settings.enabled && r.settings.mode == .tach &&
    r.stallFrom.any fun t => decide (t + r.settings.stall * Config.ticksPerMs ≤ clock)

/-- R91: the stall timer expires: the revolution is discarded, the reading is 0, the state STALL, and the timer waits
for the next falling edge. -/
def Rm.stallExpiry (r : Rm) : Rm :=
  { r with revolution := none, reading := 0, candidate := none, agreement := 0, state := .stall, stallFrom := none }

/-- A gate of a CLOCK monitor ends (R92). -/
def Rm.gateDue (r : Rm) (clock : Nat) : Bool :=
  r.settings.enabled && r.settings.mode == .clock && decide (r.gateStart + Config.gateTicks ≤ clock)

/-- R92, R93: a gate ends with a reading and a candidate, unless it is void; the next gate begins. -/
def Rm.gateEnd (r : Rm) (clock : Nat) : Rm :=
  let next := { r with gateStart := clock, edges := 0, gateVoid := false }
  if r.gateVoid then next
  else { next with reading := min 50000 r.edges }.judge (r.settings.clockCandidate r.edges)

/-- R89: a monitor as an accepted RATE_SET leaves it; measurement starts at once where it is enabled. `raw` is the raw
input now, none while the rail is ABSENT. -/
def RateSettings.install (r : RateSettings) (clock : Nat) (raw : Option Bool) : Rm :=
  { settings := r, reading := 0, state := .off, candidate := none, agreement := 0,
    last := if r.enabled then raw else none, revolution := none,
    stallFrom := if r.enabled then some clock else none, gateStart := clock, edges := 0, gateVoid := false }

end Sys2Proof.Machine
end

