-- ==== Sys2Proof/Machine/Scan.lean ====
section
/-! DEFINITION. The Scan Controller's own operations (chapter 10): the TAP model, the TCK periods of an operation, the
queue, activation, completion, cancellation, and what the scan pins show. -/

namespace Sys2Proof.Machine

/-- Replace the SC. -/
def State.setSc (s : State) (c : Sc) : State := { s with sc := c }

/-! ## The TAP model (R124) and the operations' TCK periods (R125) -/

/-- R124: the state after a rising edge of TCK with this level of TMS. -/
def Tap.next (t : Tap) (tms : Bool) : Tap :=
  match t with
  | .testLogicReset => if tms then .testLogicReset else .runTestIdle
  | .runTestIdle => if tms then .selectDr else .runTestIdle
  | .selectDr => if tms then .selectIr else .captureDr
  | .captureDr => if tms then .exit1Dr else .shiftDr
  | .shiftDr => if tms then .exit1Dr else .shiftDr
  | .exit1Dr => if tms then .updateDr else .pauseDr
  | .pauseDr => if tms then .exit2Dr else .pauseDr
  | .exit2Dr => if tms then .updateDr else .shiftDr
  | .updateDr => if tms then .selectDr else .runTestIdle
  | .selectIr => if tms then .testLogicReset else .captureIr
  | .captureIr => if tms then .exit1Ir else .shiftIr
  | .shiftIr => if tms then .exit1Ir else .shiftIr
  | .exit1Ir => if tms then .updateIr else .pauseIr
  | .pauseIr => if tms then .exit2Ir else .pauseIr
  | .exit2Ir => if tms then .updateIr else .shiftIr
  | .updateIr => if tms then .selectDr else .runTestIdle

/-- R125: the TCK periods of an operation. -/
def ScanOp.periods : ScanOp → Nat
  | .tapReset => 6
  | .irScan n _ => n + 6
  | .drScan n _ => n + 5
  | .idle m => m

/-- R125: TMS in period `i` of an operation. -/
def ScanOp.tms (o : ScanOp) (i : Nat) : Bool :=
  match o with
  | .tapReset => i < 5
  | .irScan n _ => i < 2 || i == n + 3 || i == n + 4
  | .drScan n _ => i == 0 || i == n + 2 || i == n + 3
  | .idle _ => false

/-- R125: the bit shifted in period `i`, where the period's rising edge is taken in the Shift state. -/
def ScanOp.shiftBit (o : ScanOp) (i : Nat) : Option Nat :=
  match o with
  | .irScan n _ => if 4 ≤ i ∧ i < n + 4 then some (i - 4) else none
  | .drScan n _ => if 3 ≤ i ∧ i < n + 3 then some (i - 3) else none
  | _ => none

/-- R125: TDI in period `i`: the out value's bit where one is shifted, high otherwise. -/
def ScanOp.tdi (o : ScanOp) (i : Nat) : Bool :=
  match o, o.shiftBit i with
  | .irScan _ out, some k => out.getLsbD k
  | .drScan _ out, some k => out.getLsbD k
  | _, _ => true

/-- R124, R125: the TAP state after the rising edge of period `i`. From UNKNOWN the fifth edge of a TAP_RESET reaches
Test-Logic-Reset, whatever the state was; no other edge makes it known. -/
def tapEdge (tap : Option Tap) (o : ScanOp) (i : Nat) : Option Tap :=
  match tap with
  | some t => some (t.next (o.tms i))
  | none => if o = .tapReset ∧ i = 4 then some .testLogicReset else none

/-- The operation in progress of the active job; the inserted TAP_RESET where none of the list is (R128). -/
def Active.current (a : Active) : ScanOp :=
  match a.op with
  | none => .tapReset
  | some i => (a.job.body.ops[i]?).getD .tapReset

/-- One TCK period in ticks (10.1). -/
def Active.period (a : Active) : Nat := a.settings.divider * 2

/-- R125: the last TCK period of the operation in progress has ended. -/
def Active.opDone (a : Active) (clock : Nat) : Bool := decide (a.opStart + a.current.periods * a.period ≤ clock)

/-- R123, R125: one tick: at the tick of a rising edge, halfway through a period, the TAP state moves and, in a Shift
period, TDO is sampled. -/
def Sc.tick (c : Sc) (clock : Nat) (tdo : Bool) : Sc :=
  match c.job with
  | none => c
  | some a =>
    let dt := clock - a.opStart
    let i := dt / a.period
    if dt % a.period = a.settings.divider ∧ i < a.current.periods then
      { c with
        tap := tapEdge c.tap a.current i
        job := some { a with bits := if (a.current.shiftBit i).isSome then a.bits ++ [tdo] else a.bits } }
    else c

/-- The value of TDO samples, bit 0 first (R125). -/
def captureOf (bits : List Bool) : BitVec 128 :=
  BitVec.ofNat 128 (bits.foldr (fun b n => b.toNat + 2 * n) 0)

/-- What the scan port's output pins show (R123, R125). DESIGN CHOICE: the outputs are the four the chapter drives, TCK, TMS,
TDI and TRST; TDO, the fifth pin of the port, is read and never driven, though R123 speaks of "all five of its output pins"
(notes/assumptions/46.md). -/
structure ScanPins where
  released : Bool
  tck : Bool
  tms : Bool
  tdi : Bool
  trst : Bool
deriving DecidableEq, Repr

/-- R123, R125: released while bank D's rail is ABSENT; TCK low, TMS low, TDI high, TRST high with no job active; and
in period `i` of an operation TMS, TDI and TRST for that period, TCK low in its first half and high in its second. -/
def State.scanPins (s : State) : ScanPins :=
  if !s.lau[(3 : Fin 4)].present then { released := true, tck := false, tms := false, tdi := true, trst := true }
  else match s.sc.job with
  | none => { released := false, tck := false, tms := false, tdi := true, trst := true }
  | some a =>
    let dt := s.clock - a.opStart
    let i := dt / a.period
    { released := false
      tck := decide (a.settings.divider ≤ dt % a.period)
      tms := a.current.tms i
      tdi := a.current.tdi i
      trst := !(decide (a.current = .tapReset) && a.settings.trst && decide (i < 5)) }

/-! ## Completion (R131) -/

/-- R131: a result joins the result list as its newest entry; the list holds 16. -/
def Sc.addResult (c : Sc) (r : ScanResult) : Sc := { c with results := (r :: c.results).take Config.scanQueueMax }

/-- R131: the completion of a job: its result, its SCAN record, its SCAN event where it is a step job with the
current-run mark, and SCAN_DONE. -/
def State.completeJob (s : State) (j : Job) (r : ScanResult) : State :=
  let s1 := s.setSc (s.sc.addResult r)
  let s2 := s1.hand .sc
    { time := s.rc.timeBase, body := .scan r.cls r.outcome r.reason r.inserted r.capture r.captureLen }
  let s3 := match j.cls with
    | .step t => if j.current then s2.handEvent { time := s.rc.timeBase, body := .scan t r.outcome } else s2
    | .host _ => s2
  s3.raise .scanDone

/-- The result of a job that never became active: no capture, no TAP_RESET inserted (R129, R131). -/
def Job.bareResult (j : Job) (o : ScanOutcome) (reason : Option FaultReason) : ScanResult :=
  { cls := j.cls, outcome := o, reason, inserted := false, capture := 0, captureLen := 0 }

/-- The result of the active job: its mark and the capture of the last DR_SCAN it completed (R131). -/
def Active.result (a : Active) (o : ScanOutcome) (reason : Option FaultReason) : ScanResult :=
  { cls := a.job.cls, outcome := o, reason, inserted := a.inserted, capture := a.capture, captureLen := a.captureLen }

/-! ## Activation (R127, R128) -/

/-- R128: a job that becomes active with the rail PRESENT: it takes its copy of the settings, and a TAP_RESET is
inserted where the TAP state is UNKNOWN. -/
def Job.activate (j : Job) (c : Sc) (clock : Nat) : Active :=
  { job := j, settings := c.settings, inserted := c.tap.isNone, op := if c.tap.isNone then none else some 0,
    opStart := clock, bits := [], capture := 0, captureLen := 0, cancel := false }

/-- R127, R128: whenever no job is active and the queue is not empty, its head becomes active at once. With bank D's
rail ABSENT it is completed FAULT, reason RAIL, and the next is taken: `n` bounds the jobs so taken. -/
def State.activateNext : Nat → State → State
  | 0, s => s
  | n + 1, s =>
    match s.sc.job, s.sc.queue with
    | none, j :: js =>
      let s1 := s.setSc { s.sc with queue := js }
      if s.lau[(3 : Fin 4)].present then s1.setSc { s1.sc with job := some (j.activate s1.sc s.clock) }
      else (s1.completeJob j (j.bareResult .fault (some .rail))).activateNext n
    | _, _ => s

/-- R127: take the head of the queue if the port is free; the whole queue may empty in faults. -/
def State.scanGo (s : State) : State := s.activateNext (s.sc.queue.length + 1)

/-- A job of the STEP class (10.4). -/
def Job.isStep (j : Job) : Bool :=
  match j.cls with
  | .step _ => true
  | .host _ => false

/-- R127: the place of a step job: behind every waiting step job and ahead of every waiting host job. -/
def insertStep (j : Job) (q : List Job) : List Job := q.takeWhile Job.isStep ++ j :: q.dropWhile Job.isStep

/-- R127: a step's SCAN action submits a job made from the active template; a full queue completes it at once with
FAULT, reason QUEUE_FULL. An unused template makes no job (R28 keeps every template a step names in use)
(notes/assumptions/33.md). -/
def State.submitStep (s : State) (t : Fin 8) : State :=
  match s.sc.active[t] with
  | none => s
  | some body =>
    let j : Job := { cls := .step t, body, current := true }
    if Config.scanQueueMax ≤ s.sc.queue.length then s.completeJob j (j.bareResult .fault (some .queueFull))
    else (s.setSc { s.sc with queue := insertStep j s.sc.queue }).scanGo

/-! ## The end of an operation (R125, R128, R129) -/

/-- R125: the IR check: bit 0 of the capture is 1 and bit 1 is 0; of a one-bit capture bit 0 alone is tested. -/
def irCheckPasses (n : Nat) (capture : BitVec 128) : Bool :=
  capture.getLsbD 0 && (n == 1 || !capture.getLsbD 1)

/-- R126: the compare passes. -/
def Compare.passes (c : Compare) (capture : BitVec 128) : Bool := capture &&& c.mask == c.expected &&& c.mask

/-- R128: the outcome of a job all of whose operations are done. -/
def Active.finalOutcome (a : Active) : ScanOutcome :=
  match a.job.body.compare with
  | none => .done
  | some c => if c.passes a.capture then .match_ else .mismatch

/-- The active job ends: the port is free, the TAP state is as the outcome leaves it, the job is completed and the
next is taken (R128). -/
def State.endJob (s : State) (a : Active) (o : ScanOutcome) (reason : Option FaultReason) (tap : Option Tap) : State :=
  ((s.setSc { s.sc with job := none, tap }).completeJob a.job (a.result o reason)).scanGo

/-- The index of the operation after the one in progress (R125). -/
def Active.nextOp (a : Active) : Nat :=
  match a.op with
  | none => 0
  | some i => i + 1

/-- R125: a completed DR_SCAN keeps its capture, with its length, for the job's result. -/
def Active.keep (a : Active) : Active :=
  match a.op, a.current with
  | some _, .drScan n _ => { a with capture := captureOf a.bits, captureLen := n }
  | _, _ => a

/-- R125: the IR_SCAN just ended fails the IR check its job runs under. -/
def Active.irFails (a : Active) : Bool :=
  match a.op, a.current with
  | some _, .irScan n _ => a.settings.irCheck && !irCheckPasses n (captureOf a.bits)
  | _, _ => false

/-- R125, R128, R129: the operation in progress ends in Run-Test/Idle. A failed IR check ends the job FAULT; a cancel
mark ends it CANCELLED; else the next operation begins, or the job ends with its outcome. -/
def State.operationEnd (s : State) (a : Active) : State :=
  let a := a.keep
  if a.irFails then s.endJob a .fault (some .irCheck) none
  else if a.cancel then s.endJob a .cancelled none (some .runTestIdle)
  else if a.nextOp < a.job.body.ops.length then
    s.setSc { s.sc with
      tap := some .runTestIdle
      job := some { a with op := some a.nextOp, opStart := s.clock, bits := [] } }
  else s.endJob a a.finalOutcome none (some .runTestIdle)

/-! ## Cancellation and rail loss -/

/-- R129: complete these jobs CANCELLED, in the order given. -/
def State.cancelJobs (s : State) (js : List Job) : State :=
  js.foldl (fun s j => s.completeJob j (j.bareResult .cancelled none)) s

/-- R129: the active job gets the cancel mark where it is one of those meant. -/
def Sc.markActive (c : Sc) (p : Job → Bool) : Sc :=
  { c with job := c.job.map fun a => if p a.job then { a with cancel := true } else a }

/-- R129: the waiting jobs meant leave the queue and are completed CANCELLED in queue order; an active job meant gets
the cancel mark. -/
def State.cancelWhere (s : State) (p : Job → Bool) : State :=
  let gone := s.sc.queue.filter p
  (s.setSc ({ s.sc with queue := s.sc.queue.filter (fun j => !p j) }.markActive p)).cancelJobs gone

/-- R129: the number of jobs a cancel removes or marks: the waiting ones and the active one (notes/assumptions/23.md).
-/
def Sc.countWhere (c : Sc) (p : Job → Bool) : Nat :=
  (c.queue.filter p).length + if c.job.any (fun a => p a.job) then 1 else 0

/-- R6, R129: an accepted ARM clears the current-run mark of every job held. -/
def Sc.clearMarks (c : Sc) : Sc :=
  { c with
    queue := c.queue.map fun j => { j with current := false }
    job := c.job.map fun a => { a with job := { a.job with current := false } } }

/-- R130: bank D's rail is lost: the TAP state becomes UNKNOWN, an active job ends FAULT with reason RAIL, and the
waiting jobs are faulted one after another. -/
def State.scanRailLoss (s : State) : State :=
  match s.sc.job with
  | some a => s.endJob a .fault (some .rail) none
  | none => (s.setSc { s.sc with tap := none }).scanGo

end Sys2Proof.Machine
end

