-- ==== Sys2Proof/Machine/Rails.lean ====
section
/-! DEFINITION. Acquisitions and the banks' rails (chapter 5): the successive approximation, and what a change of a
bank's threshold or rail state does to every block with pins on the bank (R71, R79). -/

namespace Sys2Proof.Machine

/-! ## The acquisition (R72) -/

/-- W: the samples of a decision (R72). -/
def Acq.samples (a : Acq) : Nat := 16 * a.factor

/-- The duration of an acquisition in ticks (R72). -/
def Acq.duration (a : Acq) : Nat := a.s0 + 8 * (a.samples + a.s1)

/-- The decision in progress, 0 for bit 7 to 7 for bit 0, at the present position (R72). -/
def Acq.decision (a : Acq) : Nat := (a.elapsed - a.s0) / (a.samples + a.s1)

/-- The ticks of the present decision and its settle wait that have passed (R72). -/
def Acq.inDecision (a : Acq) : Nat := (a.elapsed - a.s0) % (a.samples + a.s1)

/-- The trial code: the result so far with the decision's bit added (R72). -/
def Acq.trial (a : Acq) : Nat := a.result + 2 ^ (7 - a.decision)

/-- R72, 5.2: one comparator sample shows the reference above the voltage of a trial code; at that voltage exactly the
sample is taken on noise. -/
def samplesAbove (refMv trial : Nat) (noise : Bool) : Bool :=
  reads refMv trial || (refMv == trial * Config.mvPerCode && noise)

/-- R72: one tick of an acquisition. Within the sample ticks of a decision the comparator is sampled; after the last
sample the bit is kept where strictly more than half showed the reference above the trial voltage. A
reference exactly at the trial voltage is sampled as `noise` says (5.2) (notes/assumptions/37.md). -/
def Acq.tick (a : Acq) (refMv : Nat) (noise : Bool) : Acq :=
  if a.s0 ≤ a.elapsed ∧ a.inDecision < a.samples then
    let above := a.above + if samplesAbove refMv a.trial noise then 1 else 0
    if a.inDecision + 1 = a.samples then
      { a with elapsed := a.elapsed + 1, above := 0, result := if a.samples < 2 * above then a.trial else a.result }
    else { a with elapsed := a.elapsed + 1, above }
  else { a with elapsed := a.elapsed + 1 }

/-- R72: the wait after the eighth decision is over. -/
def Acq.done (a : Acq) : Bool := decide (a.duration ≤ a.elapsed)

/-- One tick of a bank's LAU (R72). -/
def Lau.tick (l : Lau) (refMv : Nat) (noise : Bool) : Lau :=
  { l with acq := l.acq.map fun a => if a.done then a else a.tick refMv noise }

/-- R73: the rail state after an acquired code, with its hysteresis. -/
def BankSettings.railAfter (r : BankSettings) (present : Bool) (code : Nat) : Bool :=
  if present then decide (r.down ≤ code) else decide (r.up ≤ code)

/-- The interval timer of a bank in TRACK mode reaches the interval (R74). -/
def Lau.intervalDue (l : Lau) (clock : Nat) : Bool :=
  l.settings.track && decide (l.intervalStart + l.settings.interval * Config.ticksPerUs ≤ clock)

/-! ## What the blocks of a bank do (R79, R85, R86, R93, R96, R110, R120, R130) -/

/-- The monitor channels of a bank (6.1). -/
def bankChannels (b : Fin 4) : List (Fin 24) := (List.finRange 24).filter fun c => chanBank c == b

/-- The console ports of a bank. -/
def bankPorts (b : Fin 4) : List (Fin 2) := (List.finRange 2).filter fun p => portBank p == b

/-- The drive channels of a bank. -/
def bankDrives (b : Fin 4) : List (Fin 8) := (List.finRange 8).filter fun c => driveBank c == b

/-- The rate monitors bound to a channel of a bank. -/
def State.bankMonitors (s : State) (b : Fin 4) : List (Fin 4) :=
  (List.finRange 4).filter fun m => s.rm[m].settings.enabled && chanBank s.rm[m].settings.channel == b

/-- R34, R79: the conditioned levels of the eight channels of a bank, channel by channel from bit 0; bank D has none. -/
def State.bankLevels (s : State) (b : Fin 4) : Option (BitVec 8) :=
  if b.val < 3 then
    some (BitVec.ofNat 8 ((bankChannels b).foldr (fun c n => (s.mc[c].level).toNat + 2 * n) 0))
  else none

/-- R85: every channel of the bank blanks. -/
def State.blankBank (s : State) (b : Fin 4) : State :=
  (bankChannels b).foldl (fun s c => s.setMc c (s.mc[c].blank s.clock)) s

/-- R86: the rail loss of every channel of the bank. -/
def State.loseChannels (s : State) (b : Fin 4) : State :=
  (bankChannels b).foldl (fun s c => s.setMc c s.mc[c].railLoss) s

/-- The inputs of a bank that are sampled on the tick see its new threshold (R71): the console lines, and the raw
inputs the rate monitors read (notes/assumptions/18.md). -/
def State.resampleBank (s : State) (b : Fin 4) : State :=
  (bankChannels b).foldl State.sampleChannel ((bankPorts b).foldl State.sampleRx s)

/-- R79: a rail goes ABSENT: what each block with pins on the bank does. -/
def State.railLost (s : State) (b : Fin 4) : State :=
  let s1 := s.loseChannels b
  let s2 := (s1.bankMonitors b).foldl (fun s m => s.setRm m s.rm[m].railLoss) s1
  let s3 := (bankDrives b).foldl State.forceRelease s2
  let s4 := (bankPorts b).foldl State.portRailLoss s3
  if b = 3 then s4.codeRailLoss.scanRailLoss else s4

/-- R79: a rail comes PRESENT: what each block with pins on the bank does. -/
def State.railCame (s : State) (b : Fin 4) : State :=
  let s1 := s.blankBank b
  let s2 := (s1.bankMonitors b).foldl (fun s m => s.setRm m (s.rm[m].railReturn (s.rawMc s.rm[m].settings.channel))) s1
  let s3 := (bankPorts b).foldl (fun s p => s.setCp p (s.cp[p].beginWait (s.readRx p) s.clock)) s2
  if b = 3 then s3.blankStrobe else s3

/-- R71, R85, R96: a new threshold while the rail stays PRESENT blanks the bank's channels and, on bank D, the
strobe. -/
def State.thresholdMoved (s : State) (b : Fin 4) : State :=
  let s1 := s.blankBank b
  if b = 3 then s1.blankStrobe else s1

/-- R71, R73, R75, R79: a bank takes a threshold and a rail state, which apply together. A rail change hands a RAIL
event to the STE with the levels the channels had, raises RAIL, and the blocks of the bank react. -/
def State.setBank (s : State) (b : Fin 4) (threshold : Nat) (present : Bool) : State :=
  let l := s.lau[b]
  let s0 := s.setLau b { l with threshold, present }
  let s1 := if l.threshold ≠ threshold then s0.resampleBank b else s0
  if l.present = present then
    if present ∧ l.threshold ≠ threshold then s1.thresholdMoved b else s1
  else
    let s2 := (s1.handEvent { time := s.rc.timeBase,
                              body := .rail b present (if present then none else s.bankLevels b) }).raise .rail
    if present then s2.railCame b else s2.railLost b

/-- R72, R74: an acquisition of a kind begins on a bank. -/
def State.beginAcq (s : State) (b : Fin 4) (kind : AcqKind) : State :=
  s.setLau b { s.lau[b] with acq := some (Acq.begin kind s.lau[b].settings), trackWaiting := false }

/-- R80: the LEVEL record of an acquisition end in a run, where it changed the rail or the bank traces all. -/
def State.handLevel (s : State) (b : Fin 4) (code : Nat) (changed : Bool) : State :=
  if changed ∨ s.lau[b].settings.traceAll then
    s.hand (.lau b) { time := s.rc.timeBase, body := .level b (byte code) s.lau[b].present changed }
  else s

/-- R73, R75: an acquisition ends. Its result is the last code; in TRACK mode it sets the threshold and the rail state;
a LEVEL record and ACQ_DONE follow as they apply; and a waiting TRACK acquisition begins (R74). -/
def State.endAcq (s : State) (b : Fin 4) (a : Acq) : State :=
  let l := s.lau[b]
  let s1 := s.setLau b { l with lastCode := a.result, acq := none }
  let s2 := if l.settings.track then s1.setBank b (a.result / 2) (l.settings.railAfter l.present a.result) else s1
  let s3 := s2.handLevel b a.result (s2.lau[b].present != l.present)
  let s4 := s3.raiseIf (a.kind == .requested) .acqDone
  if l.trackWaiting then s4.beginAcq b .track else s4

end Sys2Proof.Machine
end

