-- ==== Sys2Proof/Machine/BankCommands.lean ====
section
/-! DEFINITION. The commands of the Level Acquisition Units (chapter 5): their requests, the interval start and the end of
an acquisition. -/

namespace Sys2Proof.Machine

/-- An interval start on a bank: its timer restarts (R74). -/
def State.startInterval (s : State) (b : Fin 4) : State :=
  s.setLau b { s.lau[b] with intervalStart := s.clock }

/-- R77: an accepted BANK_SET: the acquisition in flight is abandoned, the settings replaced, and a TRACK acquisition
begins, or the fixed threshold and rail state apply (R75). -/
def State.bankSet (s : State) (b : Fin 4) (r : BankSettings) : State :=
  let s1 := s.setLau b { s.lau[b] with settings := r, acq := none, trackWaiting := false }
  if r.track then (s1.startInterval b).beginAcq b .track else s1.setBank b r.fixedThreshold r.fixedPresent

/-- R77: the LAU's work on BANK_SET. -/
def bankSetOwner (bank : Byte) (settings : Bytes) (s : State) : Answer :=
  match indexOf 4 bank, BankSettings.dec settings with
  | some b, some r => okay (s.bankSet b r) (bank :: r.enc)
  | _, _ => refuse s .range

/-- BANK_SET (R77). -/
def execBankSet (tag bank : Byte) (settings : Bytes) (s : State) : Result :=
  .next (takeRequest (.bankSet tag bank settings) 0x30 tag (bankSetOwner bank settings) s)

/-- R76: an accepted ACQUIRE: a REQUESTED acquisition begins, and in TRACK mode the moment is an interval start. -/
def State.acquire (s : State) (b : Fin 4) : State :=
  (if s.lau[b].settings.track then s.startInterval b else s).beginAcq b .requested

/-- R76: the LAU's work on ACQUIRE. -/
def acquireOwner (bank : Byte) (s : State) : Answer :=
  match indexOf 4 bank with
  | none => refuse s .range
  | some b => if s.lau[b].acq.isSome then refuse s .busy else okay (s.acquire b) []

/-- ACQUIRE (R76). -/
def execAcquire (tag bank : Byte) (s : State) : Result :=
  .next (takeRequest (.acquire tag bank) 0x31 tag (acquireOwner bank) s)

/-- The body of BANK_QUERY's reply after the bank number (R78, 12.6). -/
def Lau.report (l : Lau) : Bytes :=
  l.settings.enc ++ [byte l.threshold, yn l.present, byte l.lastCode] ++ le 2 (l.lastCode * Config.mvPerCode)
    ++ [acqCode l.acq]

/-- R78: the LAU's work on BANK_QUERY. -/
def bankQueryOwner (bank : Byte) (s : State) : Answer :=
  match indexOf 4 bank with
  | none => refuse s .range
  | some b => okay s (bank :: s.lau[b].report)

/-- BANK_QUERY (R78). -/
def execBankQuery (tag bank : Byte) (s : State) : Result :=
  .next (takeRequest (.bankQuery tag bank) 0x32 tag (bankQueryOwner bank) s)

/-- R74: the timer of a TRACK bank reaches its interval: it restarts, and a TRACK acquisition begins, at once or when
the one in flight ends. -/
def State.intervalStart (s : State) (b : Fin 4) : State :=
  let s1 := s.startInterval b
  if s.lau[b].acq.isSome then s1.setLau b { s1.lau[b] with trackWaiting := true } else s1.beginAcq b .track

/-- INTERVAL_START (R74). -/
def execIntervalStart (b : Fin 4) (s : State) : Result :=
  .next (if s.lau[b].intervalDue s.clock then s.intervalStart b else s)

/-- ACQUISITION_END (R72, R73, R75): the acquisition in flight on the bank, its last wait over, ends. -/
def execAcquisitionEnd (b : Fin 4) (s : State) : Result :=
  .next <| match s.lau[b].acq with
    | some a => if a.done then s.endAcq b a else s
    | none => s

end Sys2Proof.Machine
end

