-- ==== Sys2Proof/Machine/Store.lean ====
section
/-! DEFINITION. The Trace Store's own operations (chapter 4): acceptance, loss, eviction, the four modes, the trigger,
the closing of a run, and taking a waiting record. -/

namespace Sys2Proof.Machine

/-- Replace the TS. -/
def State.setTs (s : State) (t : Ts) : State := { s with ts := t }

/-! ## Acceptance, loss and eviction -/

/-- R51, R53, R65: a record is accepted: it takes the next sequence number, its size joins the occupancy, and
STORE_HIGH is raised where the occupancy `before` the record was taken, and before any eviction for it, was below the
active watermark and the occupancy is now at or above it. -/
def State.accept (s : State) (before : Nat) (r : Rec) : State :=
  let occ := s.ts.occupancy + r.units
  (s.setTs { s.ts with
      records := s.ts.records ++ [{ seq := s.ts.nextSeq, record := r }]
      occupancy := occ
      nextSeq := s.ts.nextSeq + 1 }).raiseIf
    (before < s.ts.active.watermark && s.ts.active.watermark ≤ occ) .storeHigh

/-- R52: a record is lost: both counts rise, and the first loss counted sets the gap start time. -/
def Ts.lose (t : Ts) (timeBase : Nat) : Ts :=
  { t with
    lost := t.lost + 1
    totalLost := t.totalLost + 1
    gapStart := if t.lost = 0 then some timeBase else t.gapStart }

/-- R52: the TS loses a record. -/
def State.lose (s : State) : State := s.setTs (s.ts.lose s.rc.timeBase)

/-- R60, R64: evict the oldest retained records, of those numbered below `limit`, until one of `size` units fits. -/
def evictFrom (size limit : Nat) : List Stored → Nat → List Stored × Nat
  | [], occ => ([], occ)
  | r :: rs, occ =>
    if occ + size ≤ Config.ordinaryCeiling ∨ limit ≤ r.seq then (r :: rs, occ)
    else evictFrom size limit rs (occ - r.record.units)

/-- Evict the oldest records below sequence number `limit` until `size` units fit. -/
def State.evict (s : State) (size limit : Nat) : State :=
  let (rs, occ) := evictFrom size limit s.ts.records s.ts.occupancy
  s.setTs { s.ts with records := rs, occupancy := occ }

/-- R51: an ordinary record of this size fits. -/
def Ts.fits (t : Ts) (size : Nat) : Bool := t.occupancy + size ≤ Config.ordinaryCeiling

/-- R60: a record taken by the RING rule: evict until it fits, then accept. -/
def State.takeRing (s : State) (r : Rec) : State :=
  (s.evict r.units s.ts.nextSeq).accept s.ts.occupancy r

/-- R61, R62: the GAP record that reports the lost count, with the gap start time. -/
def Ts.gapRecord (t : Ts) : Rec := { time := t.gapStart.getD 0, body := .gap t.lost }

/-- R61, R62: the lost count restarts at 0 and the gap start time becomes none. -/
def Ts.restartLost (t : Ts) : Ts := { t with lost := 0, gapStart := none }

/-- R59, R64: the store becomes STOPPED and STORE_STOP is raised. -/
def State.stopStore (s : State) : State := (s.setTs { s.ts with state := .stopped }).raise .storeStop

/-! ## The modes (4.4, 4.5) -/

/-- R59: STOP mode takes an ordinary record. -/
def State.takeStop (s : State) (r : Rec) : State :=
  if s.ts.state = .stopped then s.lose
  else if s.ts.fits r.units then s.accept s.ts.occupancy r
  else s.lose.stopStore

/-- R61: STREAM mode takes an ordinary record that no GAP goes ahead of. -/
def State.takeStream (s : State) (r : Rec) : State :=
  if s.ts.fits r.units then s.accept s.ts.occupancy r else s.lose.raise .storeLoss

/-- R64: WINDOW mode takes an ordinary record: by the RING rule before the trigger, within the post-trigger quota
after it, and lost once the store is STOPPED. -/
def State.takeWindow (s : State) (r : Rec) : State :=
  match s.ts.state with
  | .stopped => s.lose
  | .triggered =>
    let s1 := (s.evict r.units (s.ts.trigSeq.getD 0)).accept s.ts.occupancy r
    let s2 := s1.setTs { s1.ts with post := s1.ts.post + r.units }
    if s2.ts.active.quota ≤ s2.ts.post then s2.stopStore else s2
  | _ => s.takeRing r

/-- R59, R60, R61, R64: an ordinary record is taken under the active mode. -/
def State.takeOrdinary (s : State) (r : Rec) : State :=
  match s.ts.active.mode with
  | .stop => s.takeStop r
  | .ring => s.takeRing r
  | .stream => s.takeStream r
  | .window => s.takeWindow r

/-- R63: the TRIG record is accepted under RING rules; the store state becomes TRIGGERED, its number is kept as the
trigger position, P is 0, and TRIGGER is raised. -/
def State.takeTrig (s : State) (r : Rec) : State :=
  let s1 := s.takeRing r
  (s1.setTs { s1.ts with state := .triggered, trigSeq := some s.ts.nextSeq, post := 0 }).raise .trigger

/-- R51, R59 to R64: a record is taken by its kind. RUN ENDED is accepted in every mode (R62). -/
def State.takeRecord (s : State) (r : Rec) : State :=
  match r.body with
  | .runEnded .. => s.accept s.ts.occupancy r
  | .trig _ => s.takeTrig r
  | _ => s.takeOrdinary r

/-- R61, R62: with losses counted a GAP is accepted ahead of this record: of RUN ENDED, where the GAP fits, and in STREAM of
an ordinary record that fits. -/
def Ts.gapFirst (t : Ts) (r : Rec) : Bool :=
  t.lost != 0 && match r.body with
    | .runEnded .. => decide (t.occupancy + 3 ≤ Config.gapCeiling)
    | .trig _ => false
    | _ => t.active.mode == .stream && t.fits r.units

/-- R51, R52, R61: the record admitted with its GAP is accepted, whatever the occupancy; the lost count restarts. -/
def State.takeAdmitted (s : State) (r : Rec) : State :=
  let s1 := s.accept s.ts.occupancy r
  s1.setTs { s1.ts.restartLost with admitted := false }

/-- R51, R52, R61, R62: the GAP is accepted, and the record `w` admitted with it goes to the head of the input: it is the next
acceptance. With RUN ENDED the lost count restarts at the GAP, in STREAM with the record behind it
(notes/assumptions/15.md). -/
def State.takeGap (s : State) (k : Nat) (w : Waiting) : State :=
  let s1 := s.accept s.ts.occupancy s.ts.gapRecord
  let t := match w.record.body with
    | .runEnded .. => s1.ts.restartLost
    | _ => s1.ts
  s1.setTs { t with input := w :: s.ts.input.eraseIdx k, admitted := true, nextTake := s.clock + 1 }

/-! ## Which waiting record is taken (R52) -/

/-- A waiting record is the run's first, RUN ARMED, which takes number 0 (R6). -/
def RecBody.isArmed : RecBody → Bool
  | .runArmed _ => true
  | _ => false

/-- A waiting record is RUN ENDED, which is taken after every other (R52). -/
def RecBody.isEnded : RecBody → Bool
  | .runEnded .. => true
  | _ => false

/-- A waiting record is TRIG, which is the TS's next acceptance (R63). -/
def RecBody.isTrig : RecBody → Bool
  | .trig _ => true
  | _ => false

/-- R52: a waiting record may be taken ahead of an earlier one where both reached the TS together and come from
different sources; TRIG may be taken ahead of any (R63). RUN ARMED is taken first and RUN ENDED last (R6, R52), a
closing record of the end work is not taken ahead of a STEP record (R15), and what the RC or a step writes after it
fired the trigger is not taken ahead of TRIG (4.10) (notes/assumptions/13.md). -/
def Waiting.mayPass (w e : Waiting) : Bool :=
  !e.record.body.isArmed &&
    (w.record.body.isTrig ||
      w.reached == e.reached && w.source != e.source && !w.record.body.isEnded
        && !(w.endWork && e.source == .run) && !(e.record.body.isTrig && w.source == .run))

/-- R63: TRIG is the TS's next acceptance: while `e` is a TRIG that waits, the record `w` is taken before it only where
it reached the TS together with the firing, or is RUN ARMED, which takes number 0 (R6) (notes/assumptions/13.md). -/
def Waiting.mayPrecede (w e : Waiting) : Bool :=
  !e.record.body.isTrig || w.record.body.isTrig || w.record.body.isArmed || w.reached == e.reached

/-- The TS may take the `k`-th waiting record now (R52, R63); after a GAP, the record admitted with it and no other (R61,
R62). -/
def Ts.mayTake (t : Ts) (clock k : Nat) : Bool :=
  decide (t.nextTake ≤ clock) &&
    match t.input[k]? with
    | none => false
    | some w =>
      if t.admitted then k == 0
      else (t.input.take k).all (fun e => w.mayPass e) && t.input.all (fun e => w.mayPrecede e)

/-- R68: the MARK request in hand is answered once its record has been taken, with the record's number or none. -/
def State.answerMark (s : State) (accepted : Bool) (seq : Nat) : State :=
  match s.mp.inHand with
  | none => s
  | some (kind, tag) =>
    let s1 := { s with mp := { s.mp with inHand := none } }
    s1.reply { kind, tag, status := .ok, body := leOrNone 6 (if accepted then some seq else none) }

/-- R52: the TS takes the `k`-th waiting record, or the GAP that goes ahead of it. One acceptance is made a tick, so after an
acceptance the next take is a tick later. A record that is accepted takes the number before the next one
(notes/assumptions/15.md). -/
def State.takeWaiting (s : State) (k : Nat) : State :=
  match s.ts.input[k]? with
  | none => s
  | some w =>
    if !s.ts.admitted && s.ts.gapFirst w.record then s.takeGap k w
    else
      let s1 := s.setTs { s.ts with input := s.ts.input.eraseIdx k }
      let s2 := if s.ts.admitted then s1.takeAdmitted w.record else s1.takeRecord w.record
      let s3 := s2.setTs { s2.ts with nextTake := s.clock + (s2.ts.nextSeq - s.ts.nextSeq) }
      if w.awaited then s.beside (s3.answerMark (s2.ts.nextSeq != s.ts.nextSeq) (s2.ts.nextSeq - 1)) else s3

/-! ## The trigger and arming -/

/-- R63: the firing of the trigger takes effect: the mode is WINDOW, the run state ARMED or RUNNING, the trigger
READY. -/
def State.triggerTakes (s : State) : Bool := s.ts.active.mode == .window && s.live && !s.ts.fired

/-- R63: the trigger is fired. Where it takes effect it becomes FIRED and the TRIG record reaches the TS, whose next
acceptance it is (`Waiting.mayPass`, `Waiting.mayPrecede`); in every other case nothing happens
(notes/assumptions/13.md). -/
def State.fireTrigger (s : State) (src : TrigSource) : State :=
  if s.triggerTakes then
    (s.setTs { s.ts with fired := true }).enqueue
      { record := { time := s.rc.timeBase, body := .trig src }, source := .trig, reached := s.clock, endWork := false,
        awaited := false }
  else s

/-- R58: an accepted ARM empties the TS, under the active settings just loaded. -/
def Ts.armed (t : Ts) (settings : StoreSettings) : Ts :=
  { t with
    records := [], occupancy := 0, nextSeq := 0, state := .accepting, active := settings, fired := false,
    trigSeq := none, post := 0, lost := 0, gapStart := none, totalLost := 0, input := [], admitted := false }

end Sys2Proof.Machine
end

