-- ==== Sys2Proof/Machine/Steps.lean ====
section
/-! DEFINITION. Step evaluation (chapter 3): conditions, hold-off and windows, judging an event, the look-back list,
reconstruction, resolution with its actions, opening and replay, failure chains, and the close of a pass. -/

namespace Sys2Proof.Machine

/-- Replace the STE. -/
def State.setSte (s : State) (e : Ste) : State := { s with ste := e }

/-- Replace a step's evaluation record. -/
def State.setEval (s : State) (k : Fin 64) (v : StepEval) : State :=
  s.setSte { s.ste with evals := s.ste.evals.set k (some v) k.isLt }

/-- A success state (R30). -/
def StepState.success : StepState → Bool
  | .matched | .held => true
  | _ => false

/-- A failure state (R30). -/
def StepState.failure : StepState → Bool
  | .early | .missed | .violated | .failed | .skipped => true
  | _ => false

/-- A terminal state (R30). -/
def StepState.terminal : StepState → Bool
  | .pending | .opened => false
  | _ => true

/-- The evaluation record of a used step that an accepted ARM makes PENDING (R30). -/
def StepEval.fresh : StepEval :=
  { state := .pending, anchorTime := none, lo := none, hi := none, decision := none, counted := 0, clipped := false,
    lookback := false, refused := false, resolution := none }

/-! ## Conditions (R22) -/

/-- R22: an event meets an event-source condition when it comes from the named source and carries the named value. -/
def Cond.met (c : Cond) (e : EventBody) : Bool :=
  match c, e with
  | .edge c d, .edge c' d' => c == c' && d == d'
  | .code v m, .code cd _ => cd &&& m == v
  | .text m, .text m' => m == m'
  | .rate m st, .rate m' entered _ => m == m' && st == entered
  | .rail b up, .rail b' present _ => b == b' && up == present
  | .scan t o, .scan t' o' => t == t' && o == o'
  | _, _ => false

/-! ## Hold-off, window and decision time (R35, R36, R37) -/

/-- R35: the hold-off of a condition's source, in ticks. -/
def State.holdOff (s : State) (c : Cond) : Nat :=
  match c with
  | .edge ch _ | .level ch _ => s.mc[ch].settings.debounce * Config.ticksPerUs
  | _ => 0

/-- R43: the evaluation record of a step as it opens: R36 gives the window, clamped to the limit time, R37 the decision
time, and LOOKBACK says that the eviction mark is at or above the anchor time. -/
def State.openEval (s : State) (e : StepEntry) (anchor : Nat) (v : StepEval) : StepEval :=
  let limit := s.rc.limitTime.getD 0
  let lo := anchor + e.windowMin * Config.ticksPerUs
  let hi := anchor + e.windowMax * Config.ticksPerUs
  let hold := s.holdOff e.cond
  let lookback := s.ste.evictionMark.any fun m => decide (anchor ≤ m)
  if e.kind = .check then
    { v with state := .opened, anchorTime := some anchor, lo := some (min lo limit), hi := none,
             decision := some (min lo limit + hold), clipped := decide (limit < lo), lookback }
  else
    { v with state := .opened, anchorTime := some anchor, lo := some (min lo limit), hi := some (min hi limit),
             decision := some (min hi limit + hold), clipped := decide (limit < lo ∨ limit < hi), lookback }

/-! ## Judging an event (R38, R39, R40) -/

/-- R38 to R40: an OPEN step judges an event that meets its condition by the event's timestamp `t`. The answer is the
evaluation record after it and the state the step resolves into at `t`, if it does. -/
def StepEntry.judge (e : StepEntry) (v : StepEval) (t : Nat) : StepEval × Option StepState :=
  let lo := v.lo.getD 0
  let hi := v.hi.getD 0
  match e.kind with
  | .await =>
    if t < lo then (v, if e.earlyFails then some .early else none)
    else if t ≤ hi then
      let n := v.counted + 1
      ({ v with counted := n }, if e.count ≤ n then some .matched else none)
    else (v, none)
  | .guard => (v, if lo ≤ t ∧ t ≤ hi then some .violated else none)
  | .check => (v, none)

/-- R43: the replay: the entries at or after the anchor time that meet the condition are judged oldest first, up to
the one that resolves the step. -/
def StepEntry.replay (e : StepEntry) (anchor : Nat) : List Event → StepEval → StepEval × Option (StepState × Nat)
  | [], v => (v, none)
  | x :: xs, v =>
    if anchor ≤ x.time ∧ e.cond.met x.body then
      match e.judge v x.time with
      | (v', some st) => (v', some (st, x.time))
      | (v', none) => e.replay anchor xs v'
    else e.replay anchor xs v

/-! ## Reconstruction (R41, R42) -/

/-- The state a CHECK step reads (R42): a level, a rail state, a monitor's state, or the history head's code. -/
inductive SourceState where
  | level (l : Bool)
  | rail (present : Bool)
  | rate (st : RateState)
  | code (head : Option Byte)
  | always
deriving DecidableEq, Repr

/-- R42: the present state of a CHECK condition's source. -/
def State.sourceNow (s : State) (c : Cond) : SourceState :=
  match c with
  | .level ch _ => .level s.mc[ch].level
  | .railState b _ => .rail s.lau[b].present
  | .rateState m _ => .rate s.rm[m].state
  | .lastCode _ _ => .code (s.cdp.history.head?.map CodeEntry.code)
  | _ => .always

/-- R42: undoing an entry of the condition's source gives the state before it; other entries leave the state. -/
def Cond.undo (c : Cond) (e : EventBody) (now : SourceState) : SourceState :=
  match c, e with
  | .level ch _, .edge c' d => if ch = c' then .level (d == .falling) else now
  | .level ch _, .rail b present levels =>
    if chanBank ch = b then
      if present then .level false else .level ((levels.getD 0).getLsbD (ch.val % 8))
    else now
  | .railState b _, .rail b' present _ => if b = b' then .rail (!present) else now
  | .rateState m _, .rate m' _ left => if m = m' then .rate left else now
  | .lastCode _ _, .code _ prior => .code prior
  | _, _ => now

/-- R41: undo, from the newest entry to the oldest, every entry of the source with a timestamp above `lo`. -/
def Cond.undoAbove (c : Cond) (lo : Nat) (entries : List Event) (now : SourceState) : SourceState :=
  entries.foldr (fun x acc => if lo < x.time then c.undo x.body acc else acc) now

/-- R22: the reconstructed state meets the condition. -/
def Cond.holds (c : Cond) (st : SourceState) : Bool :=
  match c, st with
  | .level _ l, .level l' => l == l'
  | .railState _ p, .rail p' => p == p'
  | .rateState _ r, .rate r' => r == r'
  | .lastCode v m, .code (some cd) => cd &&& m == v
  | .always, _ => true
  | _, _ => false

/-- R41, R42: the state of a CHECK condition's source as of `lo`. An event handed over and not yet delivered has
changed its source already, which R31 puts at the delivery: it is undone first, whatever its timestamp
(notes/assumptions/20.md). -/
def State.reconstruct (s : State) (c : Cond) (lo : Nat) : SourceState :=
  c.undoAbove lo s.ste.lookback
    (s.ste.events.foldr (fun x acc => c.undo x.body acc) (s.sourceNow c))

/-! ## The decision (R37, R39, R40, R41) -/

/-- The state and time an OPEN step resolves into at its decision time: MISSED or HELD at hi, and for a CHECK step
MATCHED or FAILED at lo. -/
def State.verdictOf (s : State) (e : StepEntry) (v : StepEval) : StepState × Nat :=
  match e.kind with
  | .await => (.missed, v.hi.getD 0)
  | .guard => (.held, v.hi.getD 0)
  | .check =>
    let lo := v.lo.getD 0
    (if e.cond.holds (s.reconstruct e.cond lo) then .matched else .failed, lo)

/-- R41: at the decision of a CHECK step LOOKBACK is set where the eviction mark is above lo. An ALWAYS condition
needs no reconstruction; the flag is set for it as for the others (notes/assumptions/32.md). -/
def State.decideEval (s : State) (e : StepEntry) (v : StepEval) : StepEval :=
  if e.kind = .check ∧ (s.ste.evictionMark.any fun m => decide (v.lo.getD 0 < m)) then { v with lookback := true } else v

/-! ## Records, actions and resolution (R23, R46, R48) -/

/-- R48: the STEP record of a resolved step. -/
def stepRecord (k : Fin 64) (e : StepEntry) (v : StepEval) : Rec :=
  { time := v.resolution.getD 0
    body := .step k v.state e.label (if e.kind = .await then v.counted else 0) v.clipped v.lookback v.refused }

/-- The 16-byte label of a MARK action: step number, code, zeros (R23). -/
def markLabel (k : Fin 64) (code : Byte) : Bytes := padTo 16 [byte k.val, code]

/-- R46: the step's ACTION_REFUSED flag is set. -/
def State.setRefused (s : State) (k : Fin 64) : State :=
  match s.ste.evals[k] with
  | none => s
  | some v => s.setEval k { v with refused := true }

/-- R23: one action of a successful step. -/
def State.act (k : Fin 64) (s : State) (a : Action) : State :=
  match a with
  | .drive c op => let (s1, refused) := s.stepClaim c op; if refused then s1.setRefused k else s1
  | .scan t => s.submitStep t
  | .mark code => s.hand .run { time := s.rc.timeBase, body := .mark true (markLabel k code) }
  | .trigger => s.fireTrigger (.step k)
  | .endRun => s.setSte { s.ste with pass := { s.ste.pass with endRun := true } }

/-- What a resolution leaves for the close of the pass (R49), and its place in resolution order (R16). -/
def Ste.note (t : Ste) (k : Fin 64) (e : StepEntry) (st : StepState) : Ste :=
  { t with
    order := t.order ++ [k]
    pass := { t.pass with
      resolved := true
      stopFail := t.pass.stopFail || (e.required && st.failure && e.stopOnFail) } }

/-- R46, steps 1 to 3: a step resolves into `st` at `time`: on a success its actions, then its STEP record, and
STEP_FAIL for a required failure. -/
def State.resolveStep (s : State) (k : Fin 64) (e : StepEntry) (v : StepEval) (st : StepState) (time : Nat) : State :=
  let s1 := s.setEval k { v with state := st, resolution := some time }
  let s2 := s1.setSte (s1.ste.note k e st)
  let s3 := if st.success then e.actions.foldl (State.act k) s2 else s2
  let s4 := match s3.ste.evals[k] with
    | none => s3
    | some v' => s3.hand .run (stepRecord k e v')
  s4.raiseIf (e.required && st.failure) .stepFail

/-- The active entry and the evaluation record of a step in a given state. -/
def Ste.inState (t : Ste) (k : Fin 64) (st : StepState) : Option (StepEntry × StepEval) :=
  match t.active[k], t.evals[k] with
  | some e, some v => if v.state = st then some (e, v) else none
  | _, _ => none

/-! ## Failure chains (R45) -/

/-- R45: one step of the chain: a PENDING step anchored to a step already failed is made SKIPPED at `time`. -/
def skipOne (time : Nat) (acc : State × List (Fin 64)) (j : Fin 64) : State × List (Fin 64) :=
  match acc.1.ste.inState j .pending with
  | some (e, v) =>
    match e.anchor with
    | .step a => if a ∈ acc.2 then (acc.1.resolveStep j e v .skipped time, j :: acc.2) else acc
    | .start => acc
  | none => acc

/-- R45: every PENDING step whose chain of anchors leads to the failed step `k` becomes SKIPPED, in ascending step
number, with the failed step's resolution time. -/
def State.skipChain (s : State) (k : Fin 64) (time : Nat) : State :=
  ((List.finRange 64).foldl (skipOne time) (s, [k])).1

/-! ## Opening (R43, R44) -/

/-- R43: step `j` opens at an anchor time: its window is computed, the look-back list replayed, and the step decided
at once where its decision time has passed. The answer says how it resolves, if it does. -/
def State.openStep (s : State) (j : Fin 64) (e : StepEntry) (v : StepEval) (anchor : Nat) :
    State × Option (StepState × Nat) :=
  let v1 := s.openEval e anchor v
  let (v2, r) := if e.kind = .check then (v1, none) else e.replay anchor s.ste.lookback v1
  match r with
  | some res => (s.setEval j v2, some res)
  | none =>
    if v2.decision.getD 0 ≤ s.rc.timeBase then (s.setEval j (s.decideEval e v2), some (s.verdictOf e v2))
    else (s.setEval j v2, none)

/-- R46: step `k` resolves into `st` at `time`, with all that follows from it: its actions, record and flag, and then,
on a success, the opening of the steps anchored to it in ascending order, each completed with everything it sets off
before the next (R44); on a failure, the chain of R45. The first argument bounds the depth of the chains of anchors,
which a valid plan keeps below 64 (R28) (notes/assumptions/33.md). -/
def State.resolve : Nat → Fin 64 → StepState → Nat → State → State
  | 0, _, _, _, s => s
  | n + 1, k, st, time, s =>
    match s.ste.inState k .opened with
    | none => s
    | some (e, v) =>
      let s1 := s.resolveStep k e v st time
      if st.success then
        (List.finRange 64).foldl (fun s j =>
          match s.ste.inState j .pending with
          | some (e', v') =>
            if e'.anchor = .step k then
              match s.openStep j e' v' time with
              | (s', some (st', t')) => State.resolve n j st' t' s'
              | (s', none) => s'
            else s
          | none => s) s1
      else s1.skipChain k time

/-- Depth enough for any chain of anchors of a valid plan. -/
def chainDepth : Nat := 65

/-- R44, R49: the steps anchored to START open in ascending step number with anchor time T_s. -/
def State.openStarts (s : State) (anchor : Nat) : State :=
  (List.finRange 64).foldl (fun s j =>
    match s.ste.inState j .pending with
    | some (e, v) =>
      if e.anchor = .start then
        match s.openStep j e v anchor with
        | (s', some (st, t)) => s'.resolve chainDepth j st t
        | (s', none) => s'
      else s
    | none => s) s

/-! ## Passes -/

/-- R13, R49: every used step of the active plan is in a terminal state. -/
def Ste.allTerminal (t : Ste) : Bool :=
  (List.finRange 64).all fun k =>
    match t.active[k] with
    | none => true
    | some _ => t.evals[k].any fun v => v.state.terminal

/-- R13, R49: the cause of the end request of a pass, by the first row that applies. -/
def Ste.endCause (t : Ste) : Option EndCause :=
  if !t.pass.resolved then none
  else if t.pass.endRun then some .endAction
  else if t.pass.stopFail then some .stopOnFail
  else if t.allTerminal then some .allResolved
  else none

/-- R49: the close of a pass sends the RC at most one end request. -/
def State.closePass (s : State) : State :=
  { s with
    rc := { s.rc with endRequests := s.rc.endRequests ++ s.ste.endCause.toList }
    ste := { s.ste with pass := Pass.none } }

/-- R33: an event joins the look-back list; from a full list the oldest entry leaves and its timestamp becomes the
eviction mark. -/
def Ste.append (t : Ste) (e : Event) : Ste :=
  match t.lookback with
  | x :: xs =>
    if Config.lookbackMax ≤ t.lookback.length then { t with lookback := xs ++ [e], evictionMark := some x.time }
    else { t with lookback := t.lookback ++ [e] }
  | [] => { t with lookback := [e] }

/-- R32: the event is offered to step `j`, where it is still OPEN and its condition is met. -/
def offerTo (x : Event) (s : State) (j : Fin 64) : State :=
  match s.ste.inState j .opened with
  | none => s
  | some (e, v) =>
    if e.cond.met x.body then
      match e.judge v x.time with
      | (v', some st) => (s.setEval j v').resolve chainDepth j st x.time
      | (v', none) => s.setEval j v'
    else s

/-- The steps OPEN now, in ascending step number (R32). -/
def Ste.openSteps (t : Ste) : List (Fin 64) := (List.finRange 64).filter fun j => (t.inState j .opened).isSome

/-- R32: a delivery in RUNNING: the event joins the look-back list and is offered to each step that was OPEN when the
delivery was taken; the pass is closed. -/
def State.deliverRunning (s : State) (x : Event) : State :=
  let s1 := s.setSte (s.ste.append x)
  (s1.ste.openSteps.foldl (offerTo x) s1).closePass

/-- A step's decision time is reached (R37). -/
def StepEval.decisionDue (v : StepEval) (timeBase : Nat) : Bool := v.decision.any fun d => decide (d ≤ timeBase)

/-- R37: step `j` is decided by its kind, where it is OPEN and its decision time is reached. -/
def decideStep (s : State) (j : Fin 64) : State :=
  match s.ste.inState j .opened with
  | none => s
  | some (e, v) =>
    if v.decisionDue s.rc.timeBase then
      let (st, t) := s.verdictOf e v
      (s.setEval j (s.decideEval e v)).resolve chainDepth j st t
    else s

/-- R37: the decision time of some OPEN step is reached. -/
def State.decisionsDue (s : State) : Bool :=
  s.rc.runState == .running &&
    (List.finRange 64).any fun j =>
      match s.ste.inState j .opened with
      | some (_, v) => v.decisionDue s.rc.timeBase
      | none => false

/-- R37: the decision times reached are taken in one pass, in ascending step number. -/
def State.decideAll (s : State) : State := ((List.finRange 64).foldl decideStep s).closePass

end Sys2Proof.Machine
end

