-- ==== Sys2Proof/Machine/Run.lean ====
section
/-! DEFINITION. The Run Controller's own operations (chapter 1) and the validation at ARM (2.6): what an accepted ARM
does, the work at start, the end of a run, the verdict; and the delivery of an event (R32). -/

namespace Sys2Proof.Machine

/-- Replace the RC. -/
def State.setRc (s : State) (r : Rc) : State := { s with rc := r }

/-! ## Validation at ARM (R27, R28) -/

/-- Validation reasons (12.2). -/
inductive Reason where
  | empty | anchor | kind | window | count | source | denied | order | start
deriving DecidableEq, Repr

/-- The code of a validation reason (12.2). -/
def Reason.code : Reason → Byte
  | .empty => 1 | .anchor => 2 | .kind => 3 | .window => 4 | .count => 5 | .source => 6 | .denied => 7 | .order => 8
  | .start => 9

/-- R22: a condition with an event source, which serves AWAIT and GUARD; the others serve CHECK. -/
def Cond.isEvent : Cond → Bool
  | .edge .. | .code .. | .text _ | .rate .. | .rail .. | .scan .. => true
  | .level .. | .railState .. | .rateState .. | .lastCode .. | .always => false

/-- R28, ANCHOR: a STEP anchor names a used step with a lower number. -/
def anchorOk (plan : Plan) (k : Fin 64) (e : StepEntry) : Bool :=
  match e.anchor with
  | .start => true
  | .step j => decide (j < k) && plan[j].isSome

/-- R28, KIND: the condition source is allowed for the kind. -/
def StepEntry.kindOk (e : StepEntry) : Bool :=
  if e.kind = .check then !e.cond.isEvent else e.cond.isEvent

/-- R28, WINDOW: an AWAIT or GUARD window has its min at or below its max. -/
def StepEntry.windowOk (e : StepEntry) : Bool := e.kind == .check || decide (e.windowMin ≤ e.windowMax)

/-- R28, COUNT: an AWAIT step counts at least 1. -/
def StepEntry.countOk (e : StepEntry) : Bool := e.kind != .await || decide (0 < e.count)

/-- R28, SOURCE: what a condition names is enabled, or its template in use. -/
def State.condOk (s : State) (c : Cond) : Bool :=
  match c with
  | .edge ch _ | .level ch _ => s.mc[ch].settings.enabled
  | .rate m _ | .rateState m _ => s.rm[m].settings.enabled
  | .text m => s.tm[m].settings.enabled
  | .scan t _ => s.sc.staged[t].isSome
  | .code .. | .lastCode .. => s.cdp.settings.enabled
  | .rail .. | .railState .. | .always => true

/-- R28, SOURCE: the template a SCAN action names is in use. -/
def State.actionSourceOk (s : State) (a : Action) : Bool :=
  match a with
  | .scan t => s.sc.staged[t].isSome
  | _ => true

/-- R28, DENIED: the channel a DRIVE action names is in the permit mask. -/
def State.actionPermitted (s : State) (a : Action) : Bool :=
  match a with
  | .drive c _ => s.permitMask.getLsbD c.val
  | _ => true

/-- R28, ORDER: END_RUN stands only at the end of the list. -/
def StepEntry.orderOk (e : StepEntry) : Bool := e.actions.dropLast.all (· != .endRun)

/-- R27: the first check a step of the staged plan fails. -/
def State.stepFault (s : State) (k : Fin 64) (e : StepEntry) : Option Reason :=
  if !anchorOk s.ste.staged k e then some .anchor
  else if !e.kindOk then some .kind
  else if !e.windowOk then some .window
  else if !e.countOk then some .count
  else if !(s.condOk e.cond && e.actions.all s.actionSourceOk) then some .source
  else if !e.actions.all s.actionPermitted then some .denied
  else if !e.orderOk then some .order
  else none

/-- R27: the fault of the lowest-numbered used step that has one. -/
def State.planFault (s : State) : Option (Fin 64 × Reason) :=
  (List.finRange 64).findSome? fun k =>
    match s.ste.staged[k] with
    | none => none
    | some e => (s.stepFault k e).map fun r => (k, r)

/-- R28, START: an EDGE start names an enabled channel. -/
def State.startOk (s : State) : Bool :=
  match s.rc.staged.source with
  | .edge c _ => s.mc[c].settings.enabled
  | _ => true

/-- R27: the validation: the step number, none for EMPTY and START, and the reason of the first check that fails. -/
def State.validate (s : State) : Option (Option (Fin 64) × Reason) :=
  if (List.finRange 64).all fun k => s.ste.staged[k].isNone then some (none, .empty)
  else match s.planFault with
  | some (k, r) => some (some k, r)
  | none => if s.startOk then none else some (none, .start)

/-- The body of a BAD_PLAN reply: the step number, 255 for none, and the reason (12.3). -/
def faultBody (f : Option (Fin 64) × Reason) : Bytes := [f.1.elim 255 (fun k => byte k.val), f.2.code]

/-! ## Arming (R6) -/

/-- R6, steps 1, 3 and 4, in the STE: the staged plan becomes active, each used step PENDING, the look-back list
empty. Events handed over before the ARM belong to no run: the STE would discard them (R32) (notes/assumptions/19.md).
-/
def Ste.armed (t : Ste) : Ste :=
  { t with
    active := t.staged
    evals := Vector.ofFn fun k => t.staged[k].map fun _ => StepEval.fresh
    lookback := [], evictionMark := none, order := [], pass := Pass.none, events := [] }

/-- R6, steps 1 and 5, in the RC. An end request not yet taken is dropped (notes/assumptions/19.md). -/
def Rc.armed (r : Rc) : Rc :=
  { r with
    runState := .armed, active := r.staged, timeBase := 0, startTime := none, limitTime := none, cause := none,
    verdict := none, firstFail := none, endRequests := [] }

/-- R6, steps 1 and 7, in the SC. -/
def Sc.armed (c : Sc) : Sc := { c.clearMarks with active := c.staged }

/-- R6: the effects of an accepted ARM. -/
def State.armRun (s : State) : State :=
  let s1 := { s with rc := s.rc.armed, ste := s.ste.armed, ts := s.ts.armed s.ts.staged, sc := s.sc.armed }
  s1.hand .run { time := 0, body := .runArmed s1.rc.active.source }

/-! ## The start (R9, R10) -/

/-- R10, step 1, and the start time: the run is RUNNING. -/
def Rc.started (r : Rc) (time : Nat) : Rc :=
  { r with
    runState := .running
    startTime := some time
    limitTime := some (time + r.active.limit * Config.ticksPerMs) }

/-- R10: the work at start, with T_s the `time`. -/
def State.startRun (s : State) (time : Nat) : State :=
  let s1 := s.setRc (s.rc.started time)
  let s2 := s1.hand .run { time, body := .runStarted s1.rc.active.source }
  let s3 := s2.raise .runStart
  let s4 := (s3.openStarts time).closePass
  if s4.rc.active.fromTrigger then s4.fireTrigger .start else s4

/-- R9: an event is the start event of a start source. -/
def StartSource.startedBy (src : StartSource) (e : EventBody) : Bool :=
  match src, e with
  | .edge c d, .edge c' d' => c == c' && d == d'
  | .railUp b, .rail b' present _ => b == b' && present
  | _, _ => false

/-! ## The end (R15, R16) -/

/-- R16: step `k` of the active plan is required and has resolved outside MATCHED and HELD; its outcome. -/
def Ste.failing (t : Ste) (k : Fin 64) : Option (Fin 64 × StepState) :=
  match t.active[k], t.evals[k] with
  | some e, some v => if e.required && !v.state.success then some (k, v.state) else none
  | _, _ => none

/-- R16: the verdict of an end, by its cause and the step states. -/
def Ste.verdict (t : Ste) (cause : EndCause) : Verdict :=
  match cause with
  | .armTimeout => .notStarted
  | .abort => .aborted
  | _ => if (List.finRange 64).all (fun k => (t.failing k).isNone) then .pass else .fail

/-- R16: the first failing step, under FAIL: the first of them in resolution order. -/
def Ste.firstFail (t : Ste) (v : Verdict) : Option (Fin 64 × StepState) :=
  if v = .fail then t.order.findSome? t.failing else none

/-- R15, step 1, for step `k`: a PENDING or OPEN step becomes CANCELLED at the end time, with its STEP record. DESIGN
CHOICE: R21 has a step whose anchor was cancelled become SKIPPED; R15 and R45 have it CANCELLED and not SKIPPED, and the
model follows them (notes/assumptions/35.md). -/
def cancelStep (s : State) (k : Fin 64) : State :=
  match s.ste.active[k], s.ste.evals[k] with
  | some e, some v =>
    if v.state.terminal then s
    else
      let v' := { v with state := .cancelled, resolution := some s.rc.timeBase }
      let s1 := s.setEval k v'
      (s1.setSte { s1.ste with order := s1.ste.order ++ [k] }).handEnd .run (stepRecord k e v')
  | _, _ => s

/-- R15, step 1: every PENDING or OPEN step is cancelled, in ascending step number. -/
def State.cancelSteps (s : State) : State := (List.finRange 64).foldl cancelStep s

/-- R15, step 2: the code port and the console ports close their pending records. -/
def State.closeSources (s : State) : State :=
  let s1 := s.closeCode true
  let s2 := (s1.closeFragment true 0 .rx false).closeFragment true 0 .tx false
  (s2.closeFragment true 1 .rx false).closeFragment true 1 .tx false

/-- R15, steps 3 and 4: the verdict is fixed, the RUN ENDED record written and RUN_END raised. -/
def State.closeRun (s : State) (cause : EndCause) : State :=
  let v := s.ste.verdict cause
  let ff := s.ste.firstFail v
  let s1 := s.setRc { s.rc with cause := some cause, verdict := some v, firstFail := ff }
  (s1.handEnd .run { time := s.rc.timeBase, body := .runEnded s.rc.active.source cause v ff }).raise .runEnd

/-- R15: an end of any cause is taken, with no pass in hand or the pass in hand completed: the run state becomes ENDED, the
time base stops, and the end work follows (notes/assumptions/12.md). -/
def State.endRun (s : State) (cause : EndCause) : State :=
  let s1 := s.setRc { s.rc with runState := .ended }
  ((s1.cancelSteps.closeSources).closeRun cause).cancelWhere Job.isStep

/-- The arm timeout in ticks is reached while ARMED (R11). -/
def State.armTimeoutDue (s : State) : Bool :=
  s.rc.runState == .armed && decide (s.rc.active.armTimeout * Config.ticksPerMs ≤ s.rc.timeBase)

/-- The limit time L is reached while RUNNING (R12). -/
def State.limitDue (s : State) : Bool :=
  s.rc.runState == .running && s.rc.limitTime.any fun l => decide (l ≤ s.rc.timeBase)

/-! ## Deliveries (R32) -/

/-- R32: the STE takes a delivery, by the run state: discarded in IDLE and ENDED, appended in ARMED, where it may start
the run (R9), and appended and offered in RUNNING. -/
def State.deliver (s : State) (x : Event) : State :=
  match s.rc.runState with
  | .idle | .ended => s
  | .armed =>
    let s1 := s.setSte (s.ste.append x)
    if s.rc.active.source.startedBy x.body then s1.startRun x.time else s1
  | .running => s.deliverRunning x

/-- R32: the oldest event handed over, if there is one, is delivered. -/
def State.deliverNext (s : State) : State :=
  match s.ste.events with
  | [] => s
  | x :: rest => (s.setSte { s.ste with events := rest }).deliver x

/-- R32: the `n` oldest events handed over are delivered, one after another. -/
def State.deliverFirst : Nat → State → State
  | 0, s => s
  | n + 1, s => s.deliverNext.deliverFirst n

/-- R84, R100, R112: the events handed over so far are delivered before the STE stops taking deliveries, and before the
code history is cleared (R102) (notes/assumptions/34.md). -/
def State.settle (s : State) : State := s.deliverFirst s.ste.events.length

/-! ## An end with an evaluation pass in hand (R15, R32, R47) -/

/-- R15: the records of a pass in hand that the TS accepts after the end is taken: STEP and MARK. -/
def Waiting.ofPass (w : Waiting) : Bool :=
  match w.record.body with
  | .step .. | .mark .. => true
  | _ => false

/-- R63: the record of a firing of the trigger. -/
def Waiting.ofTrigger (w : Waiting) : Bool :=
  match w.record.body with
  | .trig _ => true
  | _ => false

/-- R15, R32, R47: the pass that makes `w` of `s` is in hand when the end is taken, the first `k` of its records having
reached the TS before it. The pass is completed. Of its later records only STEP and MARK still count, and in ENDED the
trigger no longer fires (R63). -/
def State.endedInPass (s w : State) (k : Nat) : State :=
  let before := s.ts.input.length + k
  let late := w.ts.input.drop before
  w.setTs { w.ts with
    input := w.ts.input.take before ++ late.filter Waiting.ofPass
    fired := w.ts.fired && !late.any Waiting.ofTrigger }

/-- What comes before the end work of an end: the events handed over are delivered, and the pass of the last of them, or one
of decision times reached, may be the pass in hand when the end is taken: the free value `c` says which, and how many of its
records the end comes after. The work at a start is complete before the end is taken (R10) (notes/assumptions/48.md). -/
def State.settleEnd (c : Nat) (s : State) : State :=
  let n := s.ste.events.length
  let s1 := s.deliverFirst (n - 1)
  let s2 := s.settle
  if s2.decisionsDue ∧ c % 2 = 1 then s2.endedInPass s2.decideAll (c / 2)
  else if n ≠ 0 ∧ s1.rc.runState = .running then s1.endedInPass s2 (c / 2)
  else s2

/-- R12, R13, R14, R15: an end is taken, wherever it falls with the passes that come with it. -/
def State.takeEnd (s : State) (cause : EndCause) : State :=
  let s1 := s.settleEnd (Config.choose s.choices)
  State.endRun { s1 with choices := s1.choices + 1 } cause

end Sys2Proof.Machine
end

