-- ==== Sys2Proof/Machine/CodeCommands.lean ====
section
/-! DEFINITION. The commands of the code port (chapter 7). -/

namespace Sys2Proof.Machine

/-- R101: the port as an accepted CODE_SET leaves it: the new settings, the fold timer EXPIRED, and STB's level now as
the reference where it is watched (notes/assumptions/17.md). -/
def State.codeSet (s : State) (r : CodeSettings) : State :=
  let s1 := s.setCdp { s.cdp with settings := r, foldFrom := none }
  s1.setCdp { s1.cdp with reference := s1.freshReference }

/-- R101: the port's work on CODE_SET. -/
def codeSetOwner (settings : Bytes) (s : State) : Answer :=
  match CodeSettings.dec settings with
  | none => refuse s .range
  | some r => if s.live then refuse s .state else okay (s.codeSet r) r.enc

/-- CODE_SET (R101). -/
def execCodeSet (tag : Byte) (settings : Bytes) (s : State) : Result :=
  .next (takeRequest (.codeSet tag settings) 0x40 tag (codeSetOwner settings) s)

/-- The open CODE record as CODE_HISTORY reports it (12.6). -/
def encPending : Option PendingCode → Bytes
  | none => List.replicate 14 0
  | some p => [1, p.code] ++ le 2 p.count ++ le 5 p.first ++ le 5 p.last

/-- The body of CODE_HISTORY's reply (R102, 12.6). The fold timer's code is 0 while it runs and 1 when EXPIRED. -/
def Cdp.report (c : Cdp) : Bytes :=
  c.settings.enc ++ [yn c.foldFrom.isNone] ++ encPending c.pending ++ [byte c.history.length]
    ++ c.history.flatMap fun e => e.code :: le 2 e.count

/-- R102: the port's work on CODE_HISTORY: the reply gives the history before the clear. -/
def State.codeHistory (s : State) (clear : Bool) : Answer :=
  okay (if clear then s.setCdp { s.cdp with history := [] } else s) s.cdp.report

/-- R102, R135: a clear option that is neither yes nor no is refused with RANGE (notes/assumptions/24.md). -/
def codeHistoryOwner (option : Byte) (s : State) : Answer :=
  match ynOf option with
  | none => refuse s .range
  | some clear => s.codeHistory clear

/-- CODE_HISTORY (R102) with a clear option other than yes. -/
def execCodeHistory (tag option : Byte) (s : State) : Result :=
  .next (takeRequest (.codeHistory tag option) 0x41 tag (codeHistoryOwner option) s)

/-- CODE_HISTORY (R102) with the clear option yes. A CODE event handed over before the clear is delivered before it, so
that a reconstruction does not undo the clear (R100). -/
def execCodeHistoryClear (tag : Byte) (s : State) : Result :=
  .next (takeRequest (.codeHistoryClear tag) 0x41 tag (fun s => s.settle.codeHistory true) s)

/-- STROBE_EDGE (R96): the reference takes STB's level and the code D0..D7 show is captured. -/
def execStrobeEdge (s : State) : Result :=
  .next (if s.strobeNow then (s.setCdp { s.cdp with reference := some s.readStb }).capture s.readData else s)

/-- R96: the strobe blanking ends, and the first sample becomes the reference. -/
def State.endStrobeBlanking (s : State) : State :=
  let s1 := s.setCdp { s.cdp with blanking := none }
  s1.setCdp { s1.cdp with reference := s1.freshReference }

/-- STROBE_BLANKING_END (R96). -/
def execStrobeBlankingEnd (s : State) : Result := .next (if s.strobeBlankingDue then s.endStrobeBlanking else s)

/-- FOLD_TIMER_EXPIRY (R97, R99): the timer becomes EXPIRED and the open CODE record closes. -/
def execFoldTimerExpiry (s : State) : Result :=
  .next (if s.foldDue then (s.setCdp { s.cdp with foldFrom := none }).closeCode false else s)

end Sys2Proof.Machine
end

