-- ==== Sys2Proof/Machine/ConsoleCommands.lean ====
section
/-! DEFINITION. The commands of the console ports and text matchers (chapter 8). -/

namespace Sys2Proof.Machine

/-! ## Port requests (R104, R108, R111) -/

/-- R104: an accepted CONS_SET: the reception abandoned, the transmit side discarded, the port's matchers restarted,
the new settings in place and the receiver in WAIT_IDLE. -/
def State.consSet (s : State) (p : Fin 2) (r : ConsSettings) : State :=
  let s1 := (s.dropTransmit p).restartMatchers p
  s1.setCp p ({ s1.cp[p] with settings := r }.beginWait (s1.readRx p) s1.clock)

/-- R104: the port's work on CONS_SET. -/
def consSetOwner (port : Byte) (settings : Bytes) (s : State) : Answer :=
  match indexOf 2 port, ConsSettings.dec settings with
  | some p, some r => if s.live then refuse s .state else okay (s.consSet p r) (port :: r.enc)
  | _, _ => refuse s .range

/-- CONS_SET (R104). -/
def execConsSet (tag port : Byte) (settings : Bytes) (s : State) : Result :=
  .next (takeRequest (.consSet tag port settings) 0x48 tag (consSetOwner port settings) s)

/-- R108, R109: bytes join the transmit queue, and an idle transmitter starts at once. -/
def State.consSend (s : State) (p : Fin 2) (bytes : Bytes) : State :=
  s.setCp p ({ s.cp[p] with queue := s.cp[p].queue ++ bytes }.transmit s.clock)

/-- R108: the port's work on CONS_SEND. The reply counts the queue with the bytes just added
(notes/assumptions/16.md). -/
def consSendOwner (port : Byte) (bytes : Bytes) (s : State) : Answer :=
  match indexOf 2 port with
  | none => refuse s .range
  | some p =>
    if bytes.length = 0 ∨ 240 < bytes.length then refuse s .range
    else if !s.cp[p].settings.enabled then refuse s .state
    else if !s.lau[portBank p].present then refuse s .rail
    else if Config.transmitMax < s.cp[p].queue.length + bytes.length then refuse s .full
    else okay (s.consSend p bytes) (le 2 (s.cp[p].queue.length + bytes.length))

/-- CONS_SEND (R108). -/
def execConsSend (tag port : Byte) (bytes : Bytes) (s : State) : Result :=
  .next (takeRequest (.consSend tag port bytes) 0x49 tag (consSendOwner port bytes) s)

/-- The receiver state (12.2): INERT while the port is disabled or its rail ABSENT (R105). -/
def State.receiverCode (s : State) (p : Fin 2) : Byte :=
  if !s.portLive p then 0
  else match s.cp[p].rx with
  | .waitIdle => 1 | .idle => 2 | .receiving => 3 | .waitHigh => 4

/-- Whether a fragment is open, and its byte count (12.6). -/
def encOpen (f : Option Fragment) : Bytes := [yn f.isSome, f.elim 0 fun f => byte f.bytes.length]

/-- The body of CONS_QUERY's reply after the port number (R111, 12.6). -/
def State.consReport (s : State) (p : Fin 2) : Bytes :=
  let c := s.cp[p]
  c.settings.enc ++ [s.receiverCode p] ++ encOpen c.rxFragment
    ++ [c.rxFragment.elim 0 fun f => yn f.error + 2 * yn f.brk] ++ le 5 (c.rxFragment.elim 0 Fragment.first)
    ++ encOpen c.txFragment ++ le 5 (c.txFragment.elim 0 Fragment.first)
    ++ le 2 c.queue.length ++ [yn c.inFlight.isSome, 0] ++ le 4 c.discards

/-- R111: the port's work on CONS_QUERY. -/
def consQueryOwner (port : Byte) (s : State) : Answer :=
  match indexOf 2 port with
  | none => refuse s .range
  | some p => okay s (port :: s.consReport p)

/-- CONS_QUERY (R111). -/
def execConsQuery (tag port : Byte) (s : State) : Result :=
  .next (takeRequest (.consQuery tag port) 0x4A tag (consQueryOwner port) s)

/-! ## Matcher requests (R114) -/

/-- R114: the matcher's work on MATCH_SET. -/
def matchSetOwner (matcher : Byte) (settings : Bytes) (s : State) : Answer :=
  match indexOf 8 matcher, MatchSettings.dec settings with
  | some m, some r =>
    if s.live then refuse s .state else okay (s.setTm m { settings := r, progress := 0 }) (matcher :: r.enc)
  | _, _ => refuse s .range

/-- MATCH_SET (R114). -/
def execMatchSet (tag matcher : Byte) (settings : Bytes) (s : State) : Result :=
  .next (takeRequest (.matchSet tag matcher settings) 0x4B tag (matchSetOwner matcher settings) s)

/-- R114: the matcher's work on MATCH_QUERY. -/
def matchQueryOwner (matcher : Byte) (s : State) : Answer :=
  match indexOf 8 matcher with
  | none => refuse s .range
  | some m => okay s (matcher :: s.tm[m].settings.enc ++ [byte s.tm[m].progress])

/-- MATCH_QUERY (R114). -/
def execMatchQuery (tag matcher : Byte) (s : State) : Result :=
  .next (takeRequest (.matchQuery tag matcher) 0x4C tag (matchQueryOwner matcher) s)

/-! ## The receiver (R105, R106) -/

/-- The receiver of a port enters a state, holding no bits of a frame (R105). -/
def State.receiver (s : State) (p : Fin 2) (st : RxState) : State :=
  s.setCp p { s.cp[p] with rx := st, bits := [], held := false }

/-- WAIT_IDLE_EXPIRY (R105): the line has read 1 for the frame time. -/
def execWaitIdleExpiry (p : Fin 2) (s : State) : Result := .next (if s.waitIdleDue p then s.receiver p .idle else s)

/-- R105, R106: the line reads 0 in IDLE: the tick is the start edge, from which a break is timed. -/
def State.startByte (s : State) (p : Fin 2) : State :=
  let s1 := s.receiver p .receiving
  s1.setCp p { s1.cp[p] with rxStart := s.clock, steadyLow := true }

/-- START_EDGE (R105). -/
def execStartEdge (p : Fin 2) (s : State) : Result := .next (if s.startDue p then s.startByte p else s)

/-- START_BIT_GLITCH (R105): the line reads 1 at the start bit's sample point. -/
def execStartBitGlitch (p : Fin 2) (s : State) : Result := .next (if s.glitchDue p then s.receiver p .idle else s)

/-- R105: the stop bit's sample point. An all-zero frame is held; any other byte is taken, good or in error, and the
receiver goes to IDLE, or to WAIT_HIGH after a stop bit of 0. -/
def State.arrival (s : State) (p : Fin 2) : State :=
  let c := s.cp[p]
  let stop := s.readRx p
  if !stop && c.bits.all (!·) then s.setCp p { c with held := true }
  else
    let err := !stop || !parityOk c.settings.format c.bits
    (s.receiver p (if stop then .idle else .waitHigh)).takeByte p (dataByte c.bits) s.rc.timeBase err

/-- BYTE_ARRIVAL (R105). -/
def execByteArrival (p : Fin 2) (s : State) : Result := .next (if s.arrivalDue p then s.arrival p else s)

/-- The ticks since the stop bit's sample point of the frame in reception (R105). -/
def State.sinceArrival (s : State) (p : Fin 2) : Nat :=
  s.clock - (s.cp[p].rxStart + s.cp[p].settings.samplePoint s.cp[p].settings.stopBit)

/-- R105: a held frame is taken as an error byte of value 0 that arrived at its stop bit's sample point. One that
arrived before the run was armed joins no fragment of the run (notes/assumptions/14.md). -/
def State.heldTaken (s : State) (p : Fin 2) : State :=
  let s1 := s.receiver p .idle
  if s.sinceArrival p ≤ s.rc.timeBase then s1.takeByte p 0 (s.rc.timeBase - s.sinceArrival p) true
  else s1.restartMatchers p

/-- HELD_FRAME_TAKEN (R105). -/
def execHeldFrameTaken (p : Fin 2) (s : State) : Result := .next (if s.heldDue p then s.heldTaken p else s)

/-- R106: a break: the held frame is discarded, the open receive fragment closes with BREAK, the port's matchers
restart, and the receiver waits for the line. -/
def State.takeBreak (s : State) (p : Fin 2) : State :=
  ((s.receiver p .waitHigh).closeFragment false p .rx true).restartMatchers p

/-- BREAK (R106). -/
def execBreakSeen (p : Fin 2) (s : State) : Result := .next (if s.breakDue p then s.takeBreak p else s)

/-- WAIT_HIGH_RECOVERY (R105). -/
def execWaitHighRecovery (p : Fin 2) (s : State) : Result := .next (if s.recoveryDue p then s.receiver p .idle else s)

/-! ## Fragments and the transmitter (R107, R109) -/

/-- IDLE_GAP_EXPIRY (R107, R109). -/
def execIdleGapExpiry (p : Fin 2) (d : TextDir) (s : State) : Result :=
  .next (if s.gapDue p d then s.closeFragment false p d false else s)

/-- R109: the byte in flight is complete at its send time; with the echo on it joins the transmit fragment. -/
def State.sendTime (s : State) (p : Fin 2) (f : InFlight) : State :=
  let s1 := s.setCp p { s.cp[p] with inFlight := some { f with complete := true } }
  if s.cp[p].settings.echo then s1.addByte p .tx f.byte s.rc.timeBase false else s1

/-- BYTE_SEND_TIME (R109). -/
def execByteSendTime (p : Fin 2) (s : State) : Result :=
  .next <| match s.cp[p].inFlight with
    | some f => if s.cp[p].sendDue s.clock then s.sendTime p f else s
    | none => s

/-- BYTE_SENT (R109): the frame time ends, and the next byte of the queue begins at once. -/
def execByteSent (p : Fin 2) (s : State) : Result :=
  .next (if s.cp[p].sentDue s.clock then s.setCp p ({ s.cp[p] with inFlight := none }.transmit s.clock) else s)

end Sys2Proof.Machine
end

