-- ==== Sys2Proof/Machine/DriveCommands.lean ====
section
/-! DEFINITION. The commands of the drive channels (chapter 9). -/

namespace Sys2Proof.Machine

/-! ## DRIVE_SET (R118) -/

/-- The settings part a DRIVE_SET carries: none present, refused, or its fields (R118, 12.6). -/
def partOf (part : Bytes) : Option (Option DrivePart) :=
  if part = [] then some none else (DrivePart.dec part).map some

/-- R118: the settings part is applied: output type, polarity and rail-gated at once, the generator values to the
buffered ones. -/
def Dc.apply (d : Dc) (r : DrivePart) : Dc :=
  { d with openDrain := r.openDrain, activeHigh := r.activeHigh, railGated := r.railGated, buffered := r.values }

/-- R118, R120: the settings part applied, with the forced release of a gating switched on while the rail is ABSENT. -/
def State.applyPart (s : State) (c : Fin 8) (part : Option DrivePart) : State :=
  match part with
  | none => s
  | some r =>
    let s1 := s.setDc c (s.dc[c].apply r)
    if s.driveBlocked c r.railGated then s1.forceRelease c else s1

/-- The settings part of a channel as it stands, with the buffered values (12.6). -/
def Dc.part (d : Dc) : DrivePart :=
  { openDrain := d.openDrain, activeHigh := d.activeHigh, railGated := d.railGated, values := d.buffered }

/-- R118: the effect of an accepted DRIVE_SET: the settings part, then the operation, unless it is NONE. -/
def State.driveSet (s : State) (c : Fin 8) (op : Option DriveOp) (part : Option DrivePart) : State :=
  let s1 := s.applyPart c part
  match op with
  | none => s1
  | some o => s1.driveOperate c o .station

/-- The rail-gated setting as it stands after a settings part (R118). -/
def Dc.gatedAfter (d : Dc) (part : Option DrivePart) : Bool := part.elim d.railGated DrivePart.railGated

/-- R118: the channels' work on DRIVE_SET with operation `op`, none for NONE. -/
def driveSetOwner (channel : Byte) (op : Option DriveOp) (part : Bytes) (s : State) : Answer :=
  match indexOf 8 channel, partOf part with
  | some c, some r =>
    if !s.permitMask.getLsbD c.val then refuse s .denied
    else if op.any DriveOp.drives && s.driveBlocked c (s.dc[c].gatedAfter r) then refuse s .rail
    else
      let s1 := s.driveSet c op r
      okay s1 ([channel, s1.dc[c].driveMode.code] ++ s1.dc[c].part.enc)
  | _, _ => refuse s .range

/-- The operation of an operation byte: one of the five, NONE, or none of the six (R118, 12.2). -/
def opOf (op : Byte) : Option (Option DriveOp) :=
  if op = 255 then some none else (DriveOp.dec op).map some

/-- R118: DRIVE_SET by its operation byte; a byte that is none of the six is refused with RANGE. -/
def driveSetByByte (channel op : Byte) (part : Bytes) (s : State) : Answer :=
  match opOf op with
  | some o => driveSetOwner channel o part s
  | none => refuse s .range

/-- DRIVE_SET (R118) with operation NONE, or an operation byte outside the six (notes/assumptions/24.md). -/
def execDriveSetNone (tag channel op : Byte) (part : Bytes) (s : State) : Result :=
  .next (takeRequest (.driveSetNone tag channel op part) 0x50 tag (driveSetByByte channel op part) s)

/-- DRIVE_SET (R118) with operation RELEASE. -/
def execDriveSetRelease (tag channel : Byte) (part : Bytes) (s : State) : Result :=
  .next (takeRequest (.driveSetRelease tag channel part) 0x50 tag (driveSetOwner channel (some .release) part) s)

/-- DRIVE_SET (R118) with operation LOW. -/
def execDriveSetLow (tag channel : Byte) (part : Bytes) (s : State) : Result :=
  .next (takeRequest (.driveSetLow tag channel part) 0x50 tag (driveSetOwner channel (some .low) part) s)

/-- DRIVE_SET (R118) with operation HIGH. -/
def execDriveSetHigh (tag channel : Byte) (part : Bytes) (s : State) : Result :=
  .next (takeRequest (.driveSetHigh tag channel part) 0x50 tag (driveSetOwner channel (some .high) part) s)

/-- DRIVE_SET (R118) with operation START_PULSE. -/
def execDriveSetStartPulse (tag channel : Byte) (part : Bytes) (s : State) : Result :=
  .next (takeRequest (.driveSetStartPulse tag channel part) 0x50 tag (driveSetOwner channel (some .startPulse) part) s)

/-- DRIVE_SET (R118) with operation STOP_PULSE. -/
def execDriveSetStopPulse (tag channel : Byte) (part : Bytes) (s : State) : Result :=
  .next (takeRequest (.driveSetStopPulse tag channel part) 0x50 tag (driveSetOwner channel (some .stopPulse) part) s)

/-! ## DRIVE_QUERY (R122) -/

/-- Generator values as DRIVE_QUERY reports them: p, repeat, A, B (12.6). -/
def GenValues.report (v : GenValues) : Bytes := [byte v.prescaler, yn v.rep] ++ le 2 v.a ++ le 2 v.b

/-- The body of DRIVE_QUERY's reply after the channel number (R122, 12.6). -/
def State.driveReport (s : State) (c : Fin 8) : Bytes :=
  let d := s.dc[c]
  [d.driveMode.code] ++ le 2 d.counter ++ [yn d.openDrain, yn d.activeHigh, yn d.railGated, d.pin.code]
    ++ d.active.report ++ d.buffered.report ++ [s.permitMask, yn s.permitLock]

/-- R122: the channels' work on DRIVE_QUERY. -/
def driveQueryOwner (channel : Byte) (s : State) : Answer :=
  match indexOf 8 channel with
  | none => refuse s .range
  | some c => okay s (channel :: s.driveReport c)

/-- DRIVE_QUERY (R122). -/
def execDriveQuery (tag channel : Byte) (s : State) : Result :=
  .next (takeRequest (.driveQuery tag channel) 0x51 tag (driveQueryOwner channel) s)

/-! ## The permit mask (R121) -/

/-- R121: a channel removed from the mask is forced to RELEASED; one that was not RELEASED raises DRIVE_BLOCK. It
writes no DRIVE record. -/
def State.revoke (s : State) (c : Fin 8) : State :=
  (s.setDc c (s.dc[c].operate .release)).raiseIf (s.dc[c].driveMode != .released) .driveBlock

/-- R121: an accepted PERMIT_SET: the mask is replaced and the channels it loses are released. -/
def State.permit (s : State) (mask : Byte) : State :=
  let gone := (List.finRange 8).filter fun c => s.permitMask.getLsbD c.val && !mask.getLsbD c.val
  gone.foldl State.revoke { s with permitMask := mask }

/-- R121: the channels' work on PERMIT_SET. -/
def permitSetOwner (mask : Byte) (s : State) : Answer :=
  if s.live then refuse s .state
  else if s.permitLock then refuse s .locked
  else okay (s.permit mask) [mask, yn s.permitLock]

/-- PERMIT_SET (R121). -/
def execPermitSet (tag mask : Byte) (s : State) : Result :=
  .next (takeRequest (.permitSet tag mask) 0x52 tag (permitSetOwner mask) s)

/-- PERMIT_LOCK (R121). -/
def execPermitLock (tag : Byte) (s : State) : Result :=
  .next (takeRequest (.permitLock tag) 0x53 tag (fun s => okay { s with permitLock := true } []) s)

/-! ## The generator (R116) -/

/-- GENERATOR_ACTIVE_LEVEL (R116): the counter has reached A, and the level becomes the active one. -/
def execGeneratorActiveLevel (c : Fin 8) (s : State) : Result :=
  .next (if s.dc[c].activeDue then s.setDc c { s.dc[c] with activeLevel := true } else s)

/-- R116, R119: a period ends. In repeat the next begins, with no record; a one-shot generator becomes IDLE and hands
over a DRIVE record with cause ONE_SHOT_DONE. -/
def State.endPeriod (s : State) (c : Fin 8) : State :=
  let s1 := s.setDc c s.dc[c].periodEnd
  if s.dc[c].active.rep then s1 else s1.handDrive c s1.dc[c].driveMode .oneShotDone

/-- PERIOD_END (R116). -/
def execPeriodEnd (c : Fin 8) (s : State) : Result := .next (if s.dc[c].periodDue then s.endPeriod c else s)

end Sys2Proof.Machine
end

