-- ==== Sys2Proof/Machine/FlagCommands.lean ====
section
/-! DEFINITION. The flag requests FLAGS_QUERY, FLAGS_ENABLE and FLAGS_CLEAR (R136, R137). -/

namespace Sys2Proof.Machine

/-- A mask of the 15 flags in its 2-byte form (12.3). -/
def encFlags (m : BitVec 15) : Bytes := le 2 m.toNat

/-- The mask of a flag request: none where a bit above bit 14 is set (R136). -/
def maskOf (m : BitVec 16) : Option (BitVec 15) := if m.getLsbD 15 then none else some (m.truncate 15)

/-- FLAGS_QUERY (R136). -/
def execFlagsQuery (tag : Byte) (s : State) : Result :=
  .next (takeRequest (.flagsQuery tag) 0x03 tag
    (fun s => okay s (encFlags s.fu.flags ++ encFlags s.fu.enables ++ [yn (s.fu.slot != 0)])) s)

/-- R136: the FU's work on FLAGS_ENABLE. -/
def flagsEnableOwner (mask : BitVec 16) (s : State) : Answer :=
  match maskOf mask with
  | none => refuse s .range
  | some m => okay { s with fu := s.fu.enable m } (encFlags m)

/-- FLAGS_ENABLE (R136, R137). -/
def execFlagsEnable (tag : Byte) (mask : BitVec 16) (s : State) : Result :=
  .next (takeRequest (.flagsEnable tag mask) 0x04 tag (flagsEnableOwner mask) s)

/-- R136: the FU's work on FLAGS_CLEAR. -/
def flagsClearOwner (mask : BitVec 16) (s : State) : Answer :=
  match maskOf mask with
  | none => refuse s .range
  | some m => okay { s with fu := s.fu.clear m } (encFlags (s.fu.clear m).flags)

/-- FLAGS_CLEAR (R136, R137). -/
def execFlagsClear (tag : Byte) (mask : BitVec 16) (s : State) : Result :=
  .next (takeRequest (.flagsClear tag mask) 0x05 tag (flagsClearOwner mask) s)

end Sys2Proof.Machine
end

