-- ==== Sys2Proof/Machine/LinkCommands.lean ====
section
/-! DEFINITION. The commands of the link, the resets and the error entries (R18, R133, R134, R137, R138), and the MP's own
requests IDENTIFY and RESET_PROBE (R135, R138). -/

namespace Sys2Proof.Machine

/-! ## Resets -/

/-- R18, R138 and the reset rule of every chapter: the state after a POR or a pin reset. The commands still waiting
and the pins, which the outside world holds, stay; `choices` keeps counting (notes/assumptions/3.md)
(notes/assumptions/7.md). -/
def State.hardReset (s : State) : State :=
  { State.reset with pending := s.pending, pins := s.pins, choices := s.choices }

/-- POR (R18, R138). -/
def execPor (s : State) : Result := .next s.hardReset

/-- PIN_RESET (R18, R138). -/
def execPinReset (s : State) : Result := .next s.hardReset

/-- R138: after a soft reset the MP resumes unframing at the start of the next USB transfer, so what is left of the
present one is discarded. -/
def Transfer.afterSoftReset : Transfer → Transfer
  | .between => .between
  | .unframing | .discarding => .discarding

/-- R138 and the reset rule of every chapter: a soft reset keeps the permit mask and its lock (R121), and the part stays
attached. -/
def State.softReset (s : State) : State :=
  { s.hardReset with
    permitMask := s.permitMask
    permitLock := s.permitLock
    mp := { Mp.reset with
      lastSent := s.mp.lastSent, attached := s.mp.attached, transfer := s.mp.transfer.afterSoftReset } }

/-- SOFT_RESET (R138): it acts once the reply to RESET_PROBE has been written, and not before. -/
def execSoftReset (s : State) : Result := .next (if s.mp.resetDue then s.softReset else s)

/-- R138: a link reset empties the queue, drops the bytes in reception, ends the reply in progress, and the next byte is
the first of a transfer. DESIGN CHOICE: a soft reset already due stands; DEDUCED: one whose reply was discarded does not act
(notes/assumptions/9.md). -/
def Mp.linkReset (m : Mp) (detach : Bool) : Mp :=
  { m with
    queue := [], reception := [], transfer := .between, inHand := none, reply := none, together := false
    probeSent := false, attached := !detach }

/-- R138: a MARK whose request was in hand at a link reset has taken effect although its reply is lost. DEDUCED: its record
stays and is taken as any other, and no request is answered with its number (notes/assumptions/9.md). -/
def Waiting.unawaited (w : Waiting) : Waiting := { w with awaited := false }

/-- LINK_RESET (R138): every block outside the MP goes on; the notice slot is emptied and the flags stay. -/
def execLinkReset (detach : Bool) (s : State) : Result :=
  .next { s with
    mp := s.mp.linkReset detach
    fu := { s.fu with slot := 0 }
    ts := { s.ts with input := s.ts.input.map Waiting.unawaited } }

/-! ## Frames on the pipes -/

/-- The value of a frame's length field (12.1). -/
def frameLength (b : Bytes) : Nat := field b 0 2

/-- R133: a good length field. -/
def lengthGood (b : Bytes) : Bool := decide (6 ≤ frameLength b) && decide (frameLength b ≤ 1024)

/-- R134: the entries of the request queue that are held: one by each frame or ERROR entry that waits, and one by a frame
in reception, which claimed it with its first byte. -/
def Mp.held (m : Mp) : Nat := m.queue.length + if m.reception.isEmpty then 0 else 1

/-- R134: the MP takes a byte from the OUT pipe: it is attached, and not all the entries of the queue are held. The bytes of
a frame in reception that holds the last entry wait too, until the head entry leaves the queue. -/
def Mp.takesByte (m : Mp) : Bool := m.attached && decide (m.held < Config.requestQueueMax)

/-- R133: one byte of the stream. A byte of a transfer whose rest is discarded goes nowhere. Any other joins the frame in
reception, or begins one; with two bytes in, the length is judged: a bad one queues an ERROR entry in place of the
frame and discards the rest of the transfer. With its last byte in, the frame enters the queue. -/
def Mp.takeByte (m : Mp) (b : Byte) : Mp :=
  let buf := m.reception ++ [b]
  if m.transfer = .discarding then m
  else if buf.length < 2 then { m with reception := buf, transfer := .unframing }
  else if !lengthGood buf then { m with queue := m.queue ++ [.error], reception := [], transfer := .discarding }
  else if buf.length < frameLength buf then { m with reception := buf, transfer := .unframing }
  else
    { m with
      queue := m.queue ++ [.frame (byteAt buf 2) (byteAt buf 3) (buf.drop 6)], reception := [], transfer := .unframing }

/-- R133, R134: bytes of the stream are taken one after another; none where the MP does not take them all now
(notes/assumptions/10.md). -/
def Mp.receive : Bytes → Mp → Option Mp
  | [], m => some m
  | b :: bs, m => if m.takesByte then (m.takeByte b).receive bs else none

/-- R133: the bytes taken ended their USB transfer, where `ends`. -/
def Mp.endTransfer (m : Mp) (ends : Bool) : Mp := if ends then { m with transfer := .between } else m

/-- FRAME_RECEIVE (R133, R134): bytes of the stream arrive. Bytes that cannot all be taken now are held off whole
(notes/assumptions/10.md). -/
def execFrameReceive (bytes : OutBytes) (s : State) : Result :=
  .next <| match s.mp.receive bytes.bytes with
    | none => s
    | some m => { s with mp := m.endTransfer bytes.ends }

/-- ERROR_ENTRY (R133): bytes of the stream arrive and bring a bad length field, with which the discarding begins
(notes/assumptions/10.md). -/
def execErrorEntry (bytes : OutBytes) (s : State) : Result :=
  .next <| match s.mp.receive bytes.bytes with
    | none => s
    | some m =>
      if s.mp.transfer ≠ .discarding ∧ m.transfer = .discarding then { s with mp := m.endTransfer bytes.ends } else s

/-- The reply of kind ERROR (12.1). -/
def errorKind : Byte := 0x81

/-- The kind of a notice (12.1). -/
def noticeKind : Byte := 0x80

/-- R133: the reply to a frame of unknown kind, or to a frame of wrong body length or an ERROR entry. -/
def errorReply (e : Entry) : Reply :=
  match e with
  | .error => { kind := errorKind, tag := 0, status := .malformed, body := [] }
  | .frame k t _ =>
    if kindKnown k then { kind := k, tag := t, status := .malformed, body := [] }
    else { kind := errorKind, tag := t, status := .unknown, body := [] }

/-- R133: the MP answers an entry itself, where it can be taken now and command `c` is what it calls for. -/
def State.answerEntry (s : State) (c : Instr) (e : Entry) : State :=
  if s.mp.canTake c && e.command == c then { s with mp := s.mp.pop }.reply (errorReply e) else s

/-- UNKNOWN_KIND (R133). -/
def execUnknownKind (kind tag : Byte) (body : Bytes) (s : State) : Result :=
  .next (s.answerEntry (.unknownKind kind tag body) (.frame kind tag body))

/-- MALFORMED (R133). -/
def execMalformed (e : Entry) (s : State) : Result := .next (s.answerEntry (.malformed e) e)

/-- REPLY_SEND (R134, R138): the reply in progress is written whole to the IN pipe. Once RESET_PROBE's has been, the
soft reset is to act. -/
def execReplySend (s : State) : Result :=
  .next <| match s.mp.attached, s.mp.reply with
    | true, some r =>
      { s with mp := { s.mp with
          reply := none
          together := false
          lastSent := some (frameBytes r.kind r.tag r.status.code r.body)
          resetDue := s.mp.resetDue || s.mp.probeSent
          probeSent := false } }
    | _, _ => s

/-- NOTICE_SEND (R137): the waiting notice is sent between two frames, with a snapshot of the set and enabled flags: while no
reply is in progress, or ahead of the reply that became ready together with it. -/
def execNoticeSend (s : State) : Result :=
  .next (if s.mp.attached && (s.mp.reply.isNone || s.mp.together) && s.fu.slot != 0 then
    { s with
      mp := { s.mp with
        together := false
        lastSent := some (frameBytes noticeKind 0 0 (le 2 s.fu.snapshot.toNat)) }
      fu := { s.fu with slot := 0 } }
  else s)

/-! ## The MP's own requests -/

/-- The body of IDENTIFY's reply (R135, 12.6): vendor, part, revision, and the capacities. -/
def identity : Bytes :=
  le 2 Config.vendorCode ++ le 2 Config.partCode ++ [byte Config.revision] ++ le 2 Config.storeUnits ++ [64, 8, 8, 16]

/-- IDENTIFY (R135). -/
def execIdentify (tag : Byte) (s : State) : Result :=
  .next (takeRequest (.identify tag) 0x01 tag (fun s => okay s identity) s)

/-- RESET_PROBE (R138): its OK reply is to be written before the soft reset acts. -/
def execResetProbe (tag : Byte) (s : State) : Result :=
  .next (takeRequest (.resetProbe tag) 0x02 tag
    (fun s => okay { s with mp := { s.mp with probeSent := true } } []) s)

end Sys2Proof.Machine
end

