-- ==== Sys2Proof/Machine/MonitorCommands.lean ====
section
/-! DEFINITION. The commands of the monitor channels and rate monitors (chapter 6), and the movement of an input pin. -/

namespace Sys2Proof.Machine

/-! ## Channel requests (R82, R87) -/

/-- R82: a channel as an accepted CHAN_SET leaves it: no pending transition, the new settings, and the level that the
raw input shows where the channel is enabled on a PRESENT rail. A blanking goes on. -/
def Mc.install (m : Mc) (r : ChanSettings) (present raw : Bool) : Mc :=
  { m with settings := r, level := r.enabled && present && raw, pending := none }

/-- R82: the channels' work on CHAN_SET. -/
def chanSetOwner (channel : Byte) (settings : Bytes) (s : State) : Answer :=
  match indexOf 24 channel, ChanSettings.dec settings with
  | some c, some r =>
    if s.live then refuse s .state
    else okay (s.setMc c (s.mc[c].install r s.lau[chanBank c].present (s.rawMc c))) (channel :: r.enc)
  | _, _ => refuse s .range

/-- CHAN_SET (R82). -/
def execChanSet (tag channel : Byte) (settings : Bytes) (s : State) : Result :=
  .next (takeRequest (.chanSet tag channel settings) 0x38 tag (chanSetOwner channel settings) s)

/-- The slot of a channel in CHAN_QUERY's reply (R87, 12.6). -/
def Mc.report (m : Mc) : Bytes :=
  m.settings.enc.take 2 ++ le 2 m.settings.debounce ++ [yn m.level, yn m.pending.isSome]

/-- CHAN_QUERY (R87). -/
def execChanQuery (tag : Byte) (s : State) : Result :=
  .next (takeRequest (.chanQuery tag) 0x39 tag (fun s => okay s (s.mc.toList.flatMap Mc.report)) s)

/-! ## Rate monitor requests (R89, R95) -/

/-- The raw input of a channel as a monitor may read it: none while the rail is ABSENT (R93). -/
def State.rawIfPresent (s : State) (c : Fin 24) : Option Bool :=
  if s.lau[chanBank c].present then some (s.rawMc c) else none

/-- R89: the monitors' work on RATE_SET. -/
def rateSetOwner (monitor : Byte) (settings : Bytes) (s : State) : Answer :=
  match indexOf 4 monitor, RateSettings.dec settings with
  | some m, some r =>
    if s.live then refuse s .state
    else okay (s.setRm m (r.install s.clock (s.rawIfPresent r.channel))) (monitor :: r.enc)
  | _, _ => refuse s .range

/-- RATE_SET (R89). -/
def execRateSet (tag monitor : Byte) (settings : Bytes) (s : State) : Result :=
  .next (takeRequest (.rateSet tag monitor settings) 0x3A tag (rateSetOwner monitor settings) s)

/-- The body of RATE_QUERY's reply after the monitor number (R95, 12.6). -/
def Rm.report (r : Rm) : Bytes :=
  r.settings.enc ++ le 2 r.reading ++ [r.state.code, r.candidate.elim 255 RateState.code, byte r.agreement]

/-- R95: the monitors' work on RATE_QUERY. -/
def rateQueryOwner (monitor : Byte) (s : State) : Answer :=
  match indexOf 4 monitor with
  | none => refuse s .range
  | some m => okay s (monitor :: s.rm[m].report)

/-- RATE_QUERY (R95). -/
def execRateQuery (tag monitor : Byte) (s : State) : Result :=
  .next (takeRequest (.rateQuery tag monitor) 0x3B tag (rateQueryOwner monitor) s)

/-! ## Pins -/

/-- An input pin takes a voltage. -/
def Pins.put (p : Pins) (pin : Pin) (mv : Nat) : Pins :=
  match pin with
  | .mc c => { p with mc := p.mc.set c mv c.isLt }
  | .stb => { p with stb := mv }
  | .data k => { p with data := p.data.set k mv k.isLt }
  | .rx q => { p with rx := p.rx.set q mv q.isLt }
  | .tdo => { p with tdo := mv }
  | .ref b => { p with ref := p.ref.set b mv b.isLt }

/-- R83: a channel that watches its raw input sees it. -/
def State.watchChannel (s : State) (c : Fin 24) : State :=
  if s.watching c then s.setMc c (s.mc[c].watch (s.rawMc c) s.clock) else s

/-- R83, R91, R92, R96, R105: what reads a pin sees it move. D0..D7, TDO and the reference pins are read only at the
moments their blocks sample them (notes/assumptions/18.md). -/
def State.pinMoved (s : State) (pin : Pin) : State :=
  match pin with
  | .mc c => (s.watchChannel c).sampleChannel c
  | .stb => s.sampleStb
  | .rx p => s.sampleRx p
  | .data _ | .tdo | .ref _ => s

/-- RAW_INPUT_CHANGE (R83): the outside world moves an input pin. -/
def execRawInputChange (pin : Pin) (mv : Nat) (s : State) : Result :=
  .next ({ s with pins := s.pins.put pin mv }.pinMoved pin)

/-! ## Channel events (R84, R85) -/

/-- TRANSITION_ACCEPTED (R83, R84): the pending transition has held for the channel's debounce. -/
def execTransitionAccepted (c : Fin 24) (s : State) : Result :=
  .next <| match s.mc[c].pending with
    | some p => if s.mc[c].acceptDue s.clock then s.acceptTransition c p else s
    | none => s

/-- BLANKING_END (R85). -/
def execBlankingEnd (c : Fin 24) (s : State) : Result :=
  .next (if s.mc[c].blankingDue s.clock then s.setMc c (s.mc[c].blankingEnd (s.rawMc c) s.clock) else s)

/-! ## Rate monitor events (R91, R92) -/

/-- TACH_FALLING_EDGE (R91). -/
def execTachFallingEdge (m : Fin 4) (s : State) : Result :=
  .next (if s.tachEdge m then s.updateRm m (s.rm[m].fallingEdge s.clock) else s)

/-- STALL_EXPIRY (R91). -/
def execStallExpiry (m : Fin 4) (s : State) : Result :=
  .next (if s.rm[m].stallDue s.clock then s.updateRm m s.rm[m].stallExpiry else s)

/-- GATE_END (R92). -/
def execGateEnd (m : Fin 4) (s : State) : Result :=
  .next (if s.rm[m].gateDue s.clock then s.updateRm m (s.rm[m].gateEnd s.clock) else s)

end Sys2Proof.Machine
end

