-- ==== Sys2Proof/Machine/PlanCommands.lean ====
section
/-! DEFINITION. The plan requests PLAN_PUT, PLAN_GET and PLAN_WIPE (R24 to R26). -/

namespace Sys2Proof.Machine

/-- R24: what a PLAN_PUT writes: the mark "unused", or the entry its bytes hold; none where it is refused.
DESIGN CHOICE: step bytes sent with the mark "unused" are stored nowhere and not judged; R24 does not say whether their
values could call for RANGE (notes/assumptions/36.md). -/
def planEntryOf (used : Byte) (step : Bytes) : Option (Option StepEntry) :=
  match ynOf used with
  | none => none
  | some false => some none
  | some true => (StepEntry.dec step).map some

/-- R24: the STE's work on PLAN_PUT. -/
def planPutOwner (entry used : Byte) (step : Bytes) (s : State) : Answer :=
  match indexOf 64 entry, planEntryOf used step with
  | some k, some e =>
    okay (s.setSte { s.ste with staged := s.ste.staged.set k e k.isLt }) (entry :: encPlanEntry e)
  | _, _ => refuse s .range

/-- PLAN_PUT (R24). -/
def execPlanPut (tag entry used : Byte) (step : Bytes) (s : State) : Result :=
  .next (takeRequest (.planPut tag entry used step) 0x18 tag (planPutOwner entry used step) s)

/-- R25: the STE's work on PLAN_GET. -/
def planGetOwner (entry copy : Byte) (s : State) : Answer :=
  match indexOf 64 entry, copyDec copy with
  | some k, some active =>
    okay s (entry :: encPlanEntry (if active then s.ste.active[k] else s.ste.staged[k]))
  | _, _ => refuse s .range

/-- PLAN_GET (R25). -/
def execPlanGet (tag entry copy : Byte) (s : State) : Result :=
  .next (takeRequest (.planGet tag entry copy) 0x19 tag (planGetOwner entry copy) s)

/-- PLAN_WIPE (R26). -/
def execPlanWipe (tag : Byte) (s : State) : Result :=
  .next (takeRequest (.planWipe tag) 0x1A tag
    (fun s => okay (s.setSte { s.ste with staged := Plan.reset }) []) s)

end Sys2Proof.Machine
end

