-- ==== Sys2Proof/Machine/RunCommands.lean ====
section
/-! DEFINITION. The commands of the Run Controller (chapter 1): its requests, the arm timeout, the limit expiry and the
end request; and the commands of the Step Engine: an event's delivery and a decision time (R32, R37). -/

namespace Sys2Proof.Machine

/-! ## Run settings (R2, R3) -/

/-- R2: the RC's work on RUNSET_PUT. -/
def runsetPutOwner (settings : Bytes) (s : State) : Answer :=
  match RunSettings.dec settings with
  | none => refuse s .range
  | some r => okay (s.setRc { s.rc with staged := r }) r.enc

/-- RUNSET_PUT (R2). -/
def execRunsetPut (tag : Byte) (settings : Bytes) (s : State) : Result :=
  .next (takeRequest (.runsetPut tag settings) 0x10 tag (runsetPutOwner settings) s)

/-- R3: the RC's work on RUNSET_GET. -/
def runsetGetOwner (copy : Byte) (s : State) : Answer :=
  match copyDec copy with
  | none => refuse s .range
  | some active => okay s (if active then s.rc.active.enc else s.rc.staged.enc)

/-- RUNSET_GET (R3). -/
def execRunsetGet (tag copy : Byte) (s : State) : Result :=
  .next (takeRequest (.runsetGet tag copy) 0x11 tag (runsetGetOwner copy) s)

/-! ## Arming, start and abort -/

/-- R5: the RC's work on ARM: STATE in a run, BAD_PLAN where the validation finds a fault, else the effects of R6. -/
def armOwner (s : State) : Answer :=
  if s.live then refuse s .state
  else match s.validate with
  | some f => { state := s, status := .badPlan, body := faultBody f }
  | none => okay s.armRun []

/-- ARM (R5, R6). -/
def execArm (tag : Byte) (s : State) : Result := .next (takeRequest (.arm tag) 0x12 tag armOwner s)

/-- R8: START is accepted: ARMED, with start source STATION. -/
def State.mayStart (s : State) : Bool := s.rc.runState == .armed && s.rc.active.source == .station

/-- R8: the RC's work on START: the start time is the run time base now. -/
def startOwner (s : State) : Answer :=
  if s.mayStart then okay (s.startRun s.rc.timeBase) [] else refuse s .state

/-- START (R8, R10). -/
def execStart (tag : Byte) (s : State) : Result := .next (takeRequest (.start tag) 0x13 tag startOwner s)

/-- R14: the RC's work on ABORT, the events handed over before it delivered first. -/
def abortOwner (s : State) : Answer := if s.live then okay (s.takeEnd .abort) [] else refuse s .state

/-- ABORT (R14, R15). -/
def execAbort (tag : Byte) (s : State) : Result := .next (takeRequest (.abort tag) 0x14 tag abortOwner s)

/-! ## RUN_QUERY (R17, 12.3) -/

/-- The state of a plan entry as RUN_QUERY reports it: 255 for UNUSED (R17, 12.2). -/
def Ste.stateCode (t : Ste) (k : Fin 64) : Byte := t.evals[k].elim 255 fun v => v.state.code

/-- The 79-byte body of RUN_QUERY's reply (12.3). -/
def State.runReport (s : State) : Bytes :=
  [s.rc.runState.code] ++ leOrNone 5 s.rc.startTime ++ le 5 s.rc.timeBase
    ++ [s.rc.cause.elim 255 EndCause.code, s.rc.verdict.elim 255 Verdict.code] ++ encFail s.rc.firstFail
    ++ (List.finRange 64).map s.ste.stateCode

/-- RUN_QUERY (R17). -/
def execRunQuery (tag : Byte) (s : State) : Result :=
  .next (takeRequest (.runQuery tag) 0x15 tag (fun s => okay s s.runReport) s)

/-! ## Expiries and end requests -/

/-- ARM_TIMEOUT (R11): with the arm timeout reached while ARMED the run ends. Where a start event handed over before it
has started the run, the expiry does not happen (R9). -/
def execArmTimeout (s : State) : Result :=
  .next (if s.armTimeoutDue then if s.settle.armTimeoutDue then s.settle.endRun .armTimeout else s.settle else s)

/-- LIMIT_EXPIRY (R12): with the limit time reached while RUNNING the run ends. -/
def execLimitExpiry (s : State) : Result := .next (if s.limitDue then s.takeEnd .limit else s)

/-- END_REQUEST (R13): the RC takes the oldest end request of the STE: in RUNNING the run ends with its cause, in any
other state it is ignored. A pass that the events handed over before it set off sends a request of its own, which
stays behind it. -/
def execEndRequest (s : State) : Result :=
  .next <| match s.rc.endRequests with
    | [] => s
    | cause :: rest =>
      let s1 := s.setRc { s.rc with endRequests := rest }
      if s.rc.runState = .running then s1.takeEnd cause else s1

/-! ## Deliveries and decisions -/

/-- The source of an event, within which deliveries keep their order (R31). The rail of a bank and the levels of its
channels are one in this: an acceptance and the rail loss are each taken whole (R86) (notes/assumptions/21.md). -/
def EventBody.sameSource (a b : EventBody) : Bool :=
  match a, b with
  | .edge c _, .rail b _ _ | .rail b _ _, .edge c _ => chanBank c == b
  | .edge c _, .edge c' _ => c == c'
  | .code .., .code .. => true
  | .text m, .text m' => m == m'
  | .rate m _ _, .rate m' _ _ => m == m'
  | .rail b _ _, .rail b' _ _ => b == b'
  | .scan .., .scan .. => true
  | _, _ => false

/-- R32: the `k`-th waiting event may be taken now: deliveries that reach the STE together are taken in either order,
those of one source in theirs. -/
def Ste.deliverable (t : Ste) (k : Nat) : Option Event :=
  match t.events[k]? with
  | none => none
  | some x => if (t.events.take k).all (fun y => !y.body.sameSource x.body) then some x else none

/-- EVENT_DELIVERY (R32). -/
def execEventDelivery (k : Nat) (s : State) : Result :=
  .next <| match s.ste.deliverable k with
    | none => s
    | some x => (s.setSte { s.ste with events := s.ste.events.eraseIdx k }).deliver x

/-- DECISION_TIME (R37): every OPEN step whose decision time is reached is decided in one pass. -/
def execDecisionTime (s : State) : Result := .next (if s.decisionsDue then s.decideAll else s)

end Sys2Proof.Machine
end

