-- ==== Sys2Proof/Machine/ScanCommands.lean ====
section
/-! DEFINITION. The commands of the Scan Controller (chapter 10). -/

namespace Sys2Proof.Machine

/-- R123: the SC's work on SCAN_CONFIG. -/
def scanConfigOwner (settings : Bytes) (s : State) : Answer :=
  match ScanSettings.dec settings with
  | none => refuse s .range
  | some r => okay (s.setSc { s.sc with settings := r }) r.enc

/-- SCAN_CONFIG (R123). -/
def execScanConfig (tag : Byte) (settings : Bytes) (s : State) : Result :=
  .next (takeRequest (.scanConfig tag settings) 0x60 tag (scanConfigOwner settings) s)

/-! ## Templates (R126) -/

/-- R126: what a TEMPLATE_PUT writes: the mark "unused", or the body its bytes hold; none where it is refused.
DESIGN CHOICE: body bytes sent with the mark "unused" are stored nowhere and not judged; R126 does not say whether their
values could call for RANGE (notes/assumptions/44.md). -/
def templateOf (used : Byte) (body : Bytes) : Option (Option JobBody) :=
  match ynOf used with
  | none => none
  | some false => some none
  | some true => (JobBody.dec body).map some

/-- R126: the SC's work on TEMPLATE_PUT. -/
def templatePutOwner (template used : Byte) (body : Bytes) (s : State) : Answer :=
  match indexOf 8 template, templateOf used body with
  | some t, some j => okay (s.setSc { s.sc with staged := s.sc.staged.set t j t.isLt }) (template :: encTemplate j)
  | _, _ => refuse s .range

/-- TEMPLATE_PUT (R126). -/
def execTemplatePut (tag template used : Byte) (body : Bytes) (s : State) : Result :=
  .next (takeRequest (.templatePut tag template used body) 0x61 tag (templatePutOwner template used body) s)

/-- R126: the SC's work on TEMPLATE_GET. -/
def templateGetOwner (template copy : Byte) (s : State) : Answer :=
  match indexOf 8 template, copyDec copy with
  | some t, some active => okay s (template :: encTemplate (if active then s.sc.active[t] else s.sc.staged[t]))
  | _, _ => refuse s .range

/-- TEMPLATE_GET (R126). -/
def execTemplateGet (tag template copy : Byte) (s : State) : Result :=
  .next (takeRequest (.templateGet tag template copy) 0x62 tag (templateGetOwner template copy) s)

/-! ## Jobs (R127, R129) -/

/-- R127: a host job joins the queue at its tail, and becomes active at once where the port is free. -/
def State.submitHost (s : State) (job : Byte) (body : JobBody) : State :=
  (s.setSc { s.sc with queue := s.sc.queue ++ [{ cls := .host job, body, current := false }] }).scanGo

/-- R126, R127: the SC's work on SCAN_SUBMIT. The reply gives the job's place in the queue it joined
(notes/assumptions/22.md). -/
def scanSubmitOwner (job : Byte) (body : Bytes) (s : State) : Answer :=
  match JobBody.dec body with
  | none => refuse s .range
  | some j =>
    if Config.scanQueueMax ≤ s.sc.queue.length then refuse s .full
    else okay (s.submitHost job j) [byte (s.sc.queue.length + 1)]

/-- SCAN_SUBMIT (R127). -/
def execScanSubmit (tag job : Byte) (body : Bytes) (s : State) : Result :=
  .next (takeRequest (.scanSubmit tag job body) 0x63 tag (scanSubmitOwner job body) s)

/-- R129: a host job that carries the tag. -/
def Job.isHost (tag : Byte) (j : Job) : Bool := j.cls == .host tag

/-- R129: the SC's work on SCAN_CANCEL. -/
def scanCancelOwner (job : Byte) (s : State) : Answer :=
  if s.sc.countWhere (Job.isHost job) = 0 then refuse s .notFound
  else okay (s.cancelWhere (Job.isHost job)) [byte (s.sc.countWhere (Job.isHost job))]

/-- SCAN_CANCEL (R129). -/
def execScanCancel (tag job : Byte) (s : State) : Result :=
  .next (takeRequest (.scanCancel tag job) 0x64 tag (scanCancelOwner job) s)

/-! ## Queries (R132) -/

/-- The body of SCAN_RESULT's reply (R132, 12.6). -/
def ScanResult.report (r : ScanResult) : Bytes :=
  [r.cls.code, r.cls.number, r.outcome.code, faultCode r.reason, yn r.inserted, byte r.captureLen]
    ++ le 16 r.capture.toNat

/-- R132: the SC's work on SCAN_RESULT: the newest result of that class and number. -/
def scanResultOwner (cls number : Byte) (s : State) : Answer :=
  match JobClass.dec cls number with
  | none => refuse s .range
  | some c =>
    match s.sc.results.find? fun r => r.cls == c with
    | none => refuse s .notFound
    | some r => okay s r.report

/-- SCAN_RESULT (R132). -/
def execScanResult (tag cls number : Byte) (s : State) : Result :=
  .next (takeRequest (.scanResult tag cls number) 0x65 tag (scanResultOwner cls number) s)

/-- The active job as SCAN_QUERY reports it: 201 bytes, the class none and the rest 0 where there is none (12.6). -/
def encActive : Option Active → Bytes
  | none => 255 :: List.replicate 200 0
  | some a =>
    [a.job.cls.code, a.job.cls.number, a.op.elim 8 byte, yn a.cancel, 0] ++ a.job.body.enc

/-- The body of SCAN_QUERY's reply (R132, 12.6). -/
def Sc.report (c : Sc) : Bytes :=
  c.settings.enc ++ [tapCode c.tap] ++ encActive c.job ++ [byte c.queue.length]
    ++ c.queue.flatMap fun j => [j.cls.code, j.cls.number]

/-- SCAN_QUERY (R132). -/
def execScanQuery (tag : Byte) (s : State) : Result :=
  .next (takeRequest (.scanQuery tag) 0x66 tag (fun s => okay s s.sc.report) s)

/-! ## The end of an operation (R125) -/

/-- OPERATION_END (R125, R128): the last TCK period of the operation in progress has ended. -/
def execOperationEnd (s : State) : Result :=
  .next <| match s.sc.job with
    | some a => if a.opDone s.clock then s.operationEnd a else s
    | none => s

end Sys2Proof.Machine
end

