-- ==== Sys2Proof/Machine/StoreCommands.lean ====
section
/-! DEFINITION. The commands of the Trace Store (chapter 4): its requests and the taking of a waiting record. -/

namespace Sys2Proof.Machine

/-- R56: the TS's work on STORE_SET. -/
def storeSetOwner (settings : Bytes) (s : State) : Answer :=
  match StoreSettings.dec settings with
  | none => refuse s .range
  | some r => okay (s.setTs { s.ts with staged := r }) r.enc

/-- STORE_SET (R56). -/
def execStoreSet (tag : Byte) (settings : Bytes) (s : State) : Result :=
  .next (takeRequest (.storeSet tag settings) 0x20 tag (storeSetOwner settings) s)

/-- The 47-byte body of STORE_QUERY's reply (R69, 12.3). -/
def Ts.report (t : Ts) : Bytes :=
  [t.state.code, t.active.mode.code] ++ le 2 t.active.quota ++ le 2 t.active.watermark ++ le 2 t.occupancy
    ++ leOrNone 6 (t.records.head?.map Stored.seq) ++ leOrNone 6 (t.records.getLast?.map Stored.seq)
    ++ le 6 t.nextSeq ++ [yn t.fired] ++ leOrNone 6 t.trigSeq ++ le 2 t.post ++ le 6 t.lost ++ le 6 t.totalLost

/-- STORE_QUERY (R69). -/
def execStoreQuery (tag : Byte) (s : State) : Result :=
  .next (takeRequest (.storeQuery tag) 0x21 tag (fun s => okay s s.ts.report) s)

/-- R66: as many whole records as fit within `max` bytes, from the first on. -/
def takeFitting : Nat → List Stored → List Stored
  | _, [] => []
  | max, r :: rs => if 8 * r.record.units ≤ max then r :: takeFitting (max - 8 * r.record.units) rs else []

/-- R66: the oldest retained sequence number, or the next one where the store is empty. -/
def Ts.oldest (t : Ts) : Nat := (t.records.head?.map Stored.seq).getD t.nextSeq

/-- R66: the TS's work on FETCH. A record count of 0 goes with a from seq at or above the next sequence number. -/
def fetchOwner (fromSeq max : Nat) (s : State) : Answer :=
  if max = 0 then refuse s .range
  else if fromSeq < s.ts.oldest then { state := s, status := .gone, body := le 6 s.ts.oldest }
  else
    let rs := takeFitting (min max 1016) (s.ts.records.filter fun r => decide (fromSeq ≤ r.seq))
    okay s (le 2 rs.length ++ rs.flatMap Stored.bytes)

/-- FETCH (R66). -/
def execFetch (tag : Byte) (fromSeq : BitVec 48) (max : BitVec 16) (s : State) : Result :=
  .next (takeRequest (.fetch tag fromSeq max) 0x22 tag (fetchOwner fromSeq.toNat max.toNat) s)

/-- R67: the records numbered at or below `seq` leave the store, oldest first. -/
def releaseUpTo (seq : Nat) : List Stored → Nat → List Stored × Nat
  | [], occ => ([], occ)
  | r :: rs, occ => if r.seq ≤ seq then releaseUpTo seq rs (occ - r.record.units) else (r :: rs, occ)

/-- R67: the TS's work on RELEASE. -/
def releaseOwner (seq : Nat) (s : State) : Answer :=
  if s.ts.active.mode = .stream then
    let (rs, occ) := releaseUpTo seq s.ts.records s.ts.occupancy
    okay (s.setTs { s.ts with records := rs, occupancy := occ }) []
  else refuse s .state

/-- RELEASE (R67). -/
def execRelease (tag : Byte) (seq : BitVec 48) (s : State) : Result :=
  .next (takeRequest (.release tag seq) 0x23 tag (releaseOwner seq.toNat) s)

/-- TRIGGER (R63): accepted in every run state; the reply says whether it took effect. -/
def execTrigger (tag : Byte) (s : State) : Result :=
  .next (takeRequest (.trigger tag) 0x24 tag (fun s => okay (s.fireTrigger .station) [yn s.triggerTakes]) s)

/-- R68: the record of a MARK request. -/
def State.stationMark (s : State) (label : Bytes) : Waiting :=
  { record := { time := s.rc.timeBase, body := .mark false label }, source := .station, reached := s.clock,
    endWork := false, awaited := true }

/-- MARK (R68): in a run the record reaches the TS, and the request stays in hand until it has been taken. In IDLE and
ENDED it is refused with STATE. -/
def execMark (tag : Byte) (label : Bytes) (s : State) : Result :=
  .next <|
    let c : Instr := .mark tag label
    if s.mp.canTake c && c.bodyOk && s.live then
      { s with mp := { s.mp.pop with inHand := some (0x25, tag) } }.enqueue (s.stationMark label)
    else takeRequest c 0x25 tag (fun s => refuse s .state) s

/-- RECORD_TAKE (R52): the TS takes the `k`-th waiting record. -/
def execRecordTake (k : Nat) (s : State) : Result :=
  .next (if s.ts.mayTake s.clock k then s.takeWaiting k else s)

end Sys2Proof.Machine
end

