-- ==== Sys2Proof/Machine/Due.lean ====
section
/-! DEFINITION. What the part does by itself: the commands that are ready for it to take at this tick, each due by the
condition under which its meaning acts, and one tick of the core clock. -/

namespace Sys2Proof.Machine

/-- A command where a condition holds. -/
def whenDue (c : Bool) (i : Instr) : List Instr := if c then [i] else []

/-- R134: the request the MP would take from the head of its queue now. -/
def State.readyRequest (s : State) : List Instr :=
  match s.mp.queue with
  | [] => []
  | e :: _ => whenDue (s.mp.canTake e.command) e.command

/-- The commands of the run, the plan's evaluation and the store that are ready (R11, R12, R13, R32, R37, R52). -/
def State.readyRun (s : State) : List Instr :=
  whenDue s.armTimeoutDue .armTimeout ++ whenDue s.limitDue .limitExpiry
    ++ whenDue (s.rc.endRequests != []) .endRequest
    ++ (List.range s.ste.events.length).flatMap (fun k => whenDue (s.ste.deliverable k).isSome (.eventDelivery k))
    ++ whenDue s.decisionsDue .decisionTime
    ++ (List.range s.ts.input.length).flatMap fun k => whenDue (s.ts.mayTake s.clock k) (.recordTake k)

/-- The commands of the banks that are ready (R73, R74). -/
def State.readyBank (s : State) (b : Fin 4) : List Instr :=
  whenDue (s.lau[b].intervalDue s.clock) (.intervalStart b)
    ++ whenDue (s.lau[b].acq.any Acq.done) (.acquisitionEnd b)

/-- The commands of a monitor channel that are ready (R83, R85). -/
def State.readyChannel (s : State) (c : Fin 24) : List Instr :=
  whenDue (s.mc[c].acceptDue s.clock) (.transitionAccepted c) ++ whenDue (s.mc[c].blankingDue s.clock) (.blankingEnd c)

/-- The commands of a rate monitor that are ready (R91, R92). -/
def State.readyMonitor (s : State) (m : Fin 4) : List Instr :=
  whenDue (s.tachEdge m) (.tachFallingEdge m) ++ whenDue (s.rm[m].stallDue s.clock) (.stallExpiry m)
    ++ whenDue (s.rm[m].gateDue s.clock) (.gateEnd m)

/-- The commands of the code port that are ready (R96, R97). -/
def State.readyCode (s : State) : List Instr :=
  whenDue s.strobeNow .strobeEdge ++ whenDue s.strobeBlankingDue .strobeBlankingEnd
    ++ whenDue s.foldDue .foldTimerExpiry

/-- The commands of a console port that are ready (R105, R106, R107, R109). -/
def State.readyPort (s : State) (p : Fin 2) : List Instr :=
  whenDue (s.waitIdleDue p) (.waitIdleExpiry p) ++ whenDue (s.startDue p) (.startEdge p)
    ++ whenDue (s.glitchDue p) (.startBitGlitch p) ++ whenDue (s.arrivalDue p) (.byteArrival p)
    ++ whenDue (s.heldDue p) (.heldFrameTaken p) ++ whenDue (s.breakDue p) (.breakSeen p)
    ++ whenDue (s.recoveryDue p) (.waitHighRecovery p) ++ whenDue (s.gapDue p .rx) (.idleGapExpiry p .rx)
    ++ whenDue (s.gapDue p .tx) (.idleGapExpiry p .tx) ++ whenDue (s.cp[p].sendDue s.clock) (.byteSendTime p)
    ++ whenDue (s.cp[p].sentDue s.clock) (.byteSent p)

/-- The commands of a drive channel that are ready (R116). -/
def State.readyDrive (s : State) (c : Fin 8) : List Instr :=
  whenDue s.dc[c].activeDue (.generatorActiveLevel c) ++ whenDue s.dc[c].periodDue (.periodEnd c)

/-- The command of the SC that is ready (R125). -/
def State.readyScan (s : State) : List Instr := whenDue (s.sc.job.any fun a => a.opDone s.clock) .operationEnd

/-- Everything that is ready for the part to take at this tick without the outside world. The commands of the outside
world are the resets other than the soft reset, the frames and their pipes, and the pins. -/
def State.ready (s : State) : List Instr :=
  whenDue s.mp.resetDue .softReset ++ s.readyRequest ++ s.readyRun ++ (List.finRange 4).flatMap s.readyBank
    ++ (List.finRange 24).flatMap s.readyChannel ++ (List.finRange 4).flatMap s.readyMonitor ++ s.readyCode
    ++ (List.finRange 2).flatMap s.readyPort ++ (List.finRange 8).flatMap s.readyDrive ++ s.readyScan

/-- R4: one tick of the run time base. -/
def Rc.tick (r : Rc) : Rc := { r with timeBase := if r.runState.live then r.timeBase + 1 else r.timeBase }

/-- One tick of the core clock: the run time base (R4), the acquisitions (R72), the generators (R116), and the bits
that the receivers (R105) and the SC (R125) sample at the new tick. DESIGN CHOICE: the samples the tick takes see the
lines as they are before any that moves at this tick; a start edge and a stop bit, taken as commands, see them after
the moves taken first (notes/assumptions/39.md). -/
def State.tick (s : State) : State :=
  { s with
    clock := s.clock + 1
    rc := s.rc.tick
    lau := Vector.ofFn fun b => s.lau[b].tick s.pins.ref[b] (Config.noise b s.choices s.clock)
    cp := Vector.ofFn fun p => s.cp[p].tick (s.clock + 1) (s.readRx p)
    dc := Vector.ofFn fun c => s.dc[c].tick
    sc := s.sc.tick (s.clock + 1) s.readTdo }

/-- What the part does with no command waiting: with nothing ready the core clock ticks; one command that is ready is
taken up; of several, which the manual lets it take in either order (00_scope.md, "Taken together"), one that
`Config.choose` names (notes/assumptions/3.md). -/
def State.advance (s : State) : State :=
  match s.ready with
  | [] => s.tick
  | [c] => { s with pending := [c] }
  | c :: cs =>
    { s with
      pending := [(c :: cs).getD (Config.choose s.choices % (c :: cs).length) c]
      choices := s.choices + 1 }

end Sys2Proof.Machine
end

