-- ==== Sys2Proof/Machine/Dispatch.lean ====
section
/-! DEFINITION. The dispatch: one arm per command, each one call of its meaning. -/

namespace Sys2Proof.Machine

/-- What a command does (Sys2Proof/Machine/*Commands.lean), on everything but the queue of waiting commands. -/
def exec (i : Instr) (s : State) : Host.Outcome State Fault Refusal :=
  match i with
  | .por => Sys2Proof.Machine.execPor s
  | .pinReset => Sys2Proof.Machine.execPinReset s
  | .softReset => Sys2Proof.Machine.execSoftReset s
  | .linkReset detach => Sys2Proof.Machine.execLinkReset detach s
  | .frameReceive bytes => Sys2Proof.Machine.execFrameReceive bytes s
  | .errorEntry bytes => Sys2Proof.Machine.execErrorEntry bytes s
  | .unknownKind kind tag body => Sys2Proof.Machine.execUnknownKind kind tag body s
  | .malformed e => Sys2Proof.Machine.execMalformed e s
  | .replySend => Sys2Proof.Machine.execReplySend s
  | .noticeSend => Sys2Proof.Machine.execNoticeSend s
  | .identify tag => Sys2Proof.Machine.execIdentify tag s
  | .resetProbe tag => Sys2Proof.Machine.execResetProbe tag s
  | .flagsQuery tag => Sys2Proof.Machine.execFlagsQuery tag s
  | .flagsEnable tag mask => Sys2Proof.Machine.execFlagsEnable tag mask s
  | .flagsClear tag mask => Sys2Proof.Machine.execFlagsClear tag mask s
  | .runsetPut tag settings => Sys2Proof.Machine.execRunsetPut tag settings s
  | .runsetGet tag copy => Sys2Proof.Machine.execRunsetGet tag copy s
  | .arm tag => Sys2Proof.Machine.execArm tag s
  | .start tag => Sys2Proof.Machine.execStart tag s
  | .abort tag => Sys2Proof.Machine.execAbort tag s
  | .runQuery tag => Sys2Proof.Machine.execRunQuery tag s
  | .planPut tag entry used step => Sys2Proof.Machine.execPlanPut tag entry used step s
  | .planGet tag entry copy => Sys2Proof.Machine.execPlanGet tag entry copy s
  | .planWipe tag => Sys2Proof.Machine.execPlanWipe tag s
  | .storeSet tag settings => Sys2Proof.Machine.execStoreSet tag settings s
  | .storeQuery tag => Sys2Proof.Machine.execStoreQuery tag s
  | .fetch tag from_ max => Sys2Proof.Machine.execFetch tag from_ max s
  | .release tag seq => Sys2Proof.Machine.execRelease tag seq s
  | .trigger tag => Sys2Proof.Machine.execTrigger tag s
  | .mark tag label => Sys2Proof.Machine.execMark tag label s
  | .bankSet tag bank settings => Sys2Proof.Machine.execBankSet tag bank settings s
  | .acquire tag bank => Sys2Proof.Machine.execAcquire tag bank s
  | .bankQuery tag bank => Sys2Proof.Machine.execBankQuery tag bank s
  | .chanSet tag channel settings => Sys2Proof.Machine.execChanSet tag channel settings s
  | .chanQuery tag => Sys2Proof.Machine.execChanQuery tag s
  | .rateSet tag monitor settings => Sys2Proof.Machine.execRateSet tag monitor settings s
  | .rateQuery tag monitor => Sys2Proof.Machine.execRateQuery tag monitor s
  | .codeSet tag settings => Sys2Proof.Machine.execCodeSet tag settings s
  | .codeHistory tag option => Sys2Proof.Machine.execCodeHistory tag option s
  | .codeHistoryClear tag => Sys2Proof.Machine.execCodeHistoryClear tag s
  | .consSet tag port settings => Sys2Proof.Machine.execConsSet tag port settings s
  | .consSend tag port bytes => Sys2Proof.Machine.execConsSend tag port bytes s
  | .consQuery tag port => Sys2Proof.Machine.execConsQuery tag port s
  | .matchSet tag matcher settings => Sys2Proof.Machine.execMatchSet tag matcher settings s
  | .matchQuery tag matcher => Sys2Proof.Machine.execMatchQuery tag matcher s
  | .driveSetNone tag channel op part => Sys2Proof.Machine.execDriveSetNone tag channel op part s
  | .driveSetRelease tag channel part => Sys2Proof.Machine.execDriveSetRelease tag channel part s
  | .driveSetLow tag channel part => Sys2Proof.Machine.execDriveSetLow tag channel part s
  | .driveSetHigh tag channel part => Sys2Proof.Machine.execDriveSetHigh tag channel part s
  | .driveSetStartPulse tag channel part => Sys2Proof.Machine.execDriveSetStartPulse tag channel part s
  | .driveSetStopPulse tag channel part => Sys2Proof.Machine.execDriveSetStopPulse tag channel part s
  | .driveQuery tag channel => Sys2Proof.Machine.execDriveQuery tag channel s
  | .permitSet tag mask => Sys2Proof.Machine.execPermitSet tag mask s
  | .permitLock tag => Sys2Proof.Machine.execPermitLock tag s
  | .scanConfig tag settings => Sys2Proof.Machine.execScanConfig tag settings s
  | .templatePut tag template used body => Sys2Proof.Machine.execTemplatePut tag template used body s
  | .templateGet tag template copy => Sys2Proof.Machine.execTemplateGet tag template copy s
  | .scanSubmit tag job body => Sys2Proof.Machine.execScanSubmit tag job body s
  | .scanCancel tag job => Sys2Proof.Machine.execScanCancel tag job s
  | .scanResult tag cls number => Sys2Proof.Machine.execScanResult tag cls number s
  | .scanQuery tag => Sys2Proof.Machine.execScanQuery tag s
  | .armTimeout => Sys2Proof.Machine.execArmTimeout s
  | .limitExpiry => Sys2Proof.Machine.execLimitExpiry s
  | .endRequest => Sys2Proof.Machine.execEndRequest s
  | .eventDelivery k => Sys2Proof.Machine.execEventDelivery k s
  | .decisionTime => Sys2Proof.Machine.execDecisionTime s
  | .recordTake k => Sys2Proof.Machine.execRecordTake k s
  | .intervalStart b => Sys2Proof.Machine.execIntervalStart b s
  | .acquisitionEnd b => Sys2Proof.Machine.execAcquisitionEnd b s
  | .rawInputChange pin mv => Sys2Proof.Machine.execRawInputChange pin mv s
  | .transitionAccepted c => Sys2Proof.Machine.execTransitionAccepted c s
  | .blankingEnd c => Sys2Proof.Machine.execBlankingEnd c s
  | .tachFallingEdge m => Sys2Proof.Machine.execTachFallingEdge m s
  | .stallExpiry m => Sys2Proof.Machine.execStallExpiry m s
  | .gateEnd m => Sys2Proof.Machine.execGateEnd m s
  | .strobeEdge => Sys2Proof.Machine.execStrobeEdge s
  | .strobeBlankingEnd => Sys2Proof.Machine.execStrobeBlankingEnd s
  | .foldTimerExpiry => Sys2Proof.Machine.execFoldTimerExpiry s
  | .waitIdleExpiry p => Sys2Proof.Machine.execWaitIdleExpiry p s
  | .startEdge p => Sys2Proof.Machine.execStartEdge p s
  | .startBitGlitch p => Sys2Proof.Machine.execStartBitGlitch p s
  | .byteArrival p => Sys2Proof.Machine.execByteArrival p s
  | .heldFrameTaken p => Sys2Proof.Machine.execHeldFrameTaken p s
  | .breakSeen p => Sys2Proof.Machine.execBreakSeen p s
  | .waitHighRecovery p => Sys2Proof.Machine.execWaitHighRecovery p s
  | .idleGapExpiry p d => Sys2Proof.Machine.execIdleGapExpiry p d s
  | .byteSendTime p => Sys2Proof.Machine.execByteSendTime p s
  | .byteSent p => Sys2Proof.Machine.execByteSent p s
  | .generatorActiveLevel c => Sys2Proof.Machine.execGeneratorActiveLevel c s
  | .periodEnd c => Sys2Proof.Machine.execPeriodEnd c s
  | .operationEnd => Sys2Proof.Machine.execOperationEnd s

end Sys2Proof.Machine
end

