-- ==== Sys2Proof/Safety.lean ====
section
/-! DEFINITION. What a sound state is, in the terms the statements use: the invariants that the manual gives the store, the
flags, the queues and the drive channels, what an answered request leaves, what is ready, which bytes of a
body are not checked, and what a step's actions, the end of a run and a rail change leave. -/

namespace Sys2Proof.Machine

/-! ## Answers -/

/-- R134: the state after a request left the queue and its reply became the reply in progress; nothing else has
changed. -/
def State.answered (s : State) (kind tag : Byte) (st : Status) (body : Bytes) : State :=
  { s with mp := { s.mp with
      queue := s.mp.queue.tail
      reply := some { kind, tag, status := st, body } } }

/-- R137: `answered`, of a request taken in `s` whose owner left `t`: a notice that it placed in the empty slot is ready
together with its reply (notes/assumptions/47.md). -/
def State.answeredFrom (t s : State) (kind tag : Byte) (st : Status) (body : Bytes) : State :=
  let u := t.answered kind tag st body
  { u with mp := { u.mp with together := u.mp.together || decide (s.fu.slot = 0 ∧ t.fu.slot ≠ 0) } }

/-- R134: the MP can take no request now: a request is in hand, a reply waits for the IN pipe, or a soft reset is
due. -/
def Mp.busy (m : Mp) : Bool := m.inHand.isSome || m.reply.isSome || m.resetDue

/-! ## Deliveries (R32) -/

/-- R32: `t` is the state after the `n` oldest events handed over have been delivered, one EVENT_DELIVERY each. -/
def delivered : Nat → State → State → Prop
  | 0, s, t => t = s
  | n + 1, s, t => ∃ u, exec (.eventDelivery 0) s = .next u ∧ delivered n u t

/-- R15, R32, R47: `u` is what the pass that makes `w` of `s` leaves where it is in hand when an end is taken, `k` of its
records having reached the TS before: the pass is completed, but of its other records only STEP and MARK have reached the
TS, and a firing of the trigger among them has had no effect. -/
def EndedInPass (s w u : State) (k : Nat) : Prop :=
  ∃ before after : List Waiting, w.ts.input = s.ts.input ++ (before ++ after) ∧
    before.length = min k (before ++ after).length ∧
    u = { w with ts := { w.ts with fired := u.ts.fired, input := s.ts.input ++ (before ++ after.filter fun e =>
      match e.record.body with | .step .. | .mark .. => true | _ => false) } } ∧
    ((∃ e ∈ after, ∃ src, e.record.body = .trig src) → u.ts.fired = false) ∧
    ((∀ e ∈ after, ∀ src, e.record.body ≠ .trig src) → u.ts.fired = w.ts.fired)

/-! ## What is ready (00_scope.md, "Taken together") -/

/-- A tick named by a timer has come. -/
def reached (timer : Option Nat) (span clock : Nat) : Prop := ∃ t, timer = some t ∧ t + span ≤ clock

/-- An input at `mv` reads 1 against the threshold of bank `b` (R71). -/
def State.readsHigh (s : State) (b : Fin 4) (mv : Nat) : Prop := s.lau[b].threshold * 14 < mv

/-- The moment of a command that the part takes by itself has come; false for every other command. -/
def State.isDue (s : State) : Instr → Prop
  | .softReset => s.mp.resetDue = true
  | .armTimeout => s.rc.runState = .armed ∧ s.rc.active.armTimeout * 100000 ≤ s.rc.timeBase
  | .limitExpiry => s.rc.runState = .running ∧ reached s.rc.limitTime 0 s.rc.timeBase
  | .endRequest => s.rc.endRequests ≠ []
  | .eventDelivery k => ∃ x, s.ste.events[k]? = some x ∧
      ∀ y ∈ s.ste.events.take k, y.body.sameSource x.body = false
  | .decisionTime => s.rc.runState = .running ∧ ∃ (j : Fin 64) (e : StepEntry) (v : StepEval),
      s.ste.active[j] = some e ∧ s.ste.evals[j] = some v ∧ v.state = .opened ∧ reached v.decision 0 s.rc.timeBase
  | .recordTake k => s.ts.mayTake s.clock k = true
  | .intervalStart b => s.lau[b].settings.track = true ∧
      s.lau[b].intervalStart + s.lau[b].settings.interval * 100 ≤ s.clock
  | .acquisitionEnd b => ∃ a, s.lau[b].acq = some a ∧ a.s0 + 8 * (16 * a.factor + a.s1) ≤ a.elapsed
  | .transitionAccepted c => ∃ p, s.mc[c].pending = some p ∧ p.t0 + s.mc[c].settings.debounce * 100 ≤ s.clock
  | .blankingEnd c => reached s.mc[c].blanking 0 s.clock
  | .tachFallingEdge m =>
      let r := s.rm[m]
      let b := chanBank r.settings.channel
      r.settings.enabled = true ∧ r.settings.mode = .tach ∧ s.lau[b].present = true ∧ r.last = some true ∧
        ¬s.readsHigh b s.pins.mc[r.settings.channel]
  | .stallExpiry m => s.rm[m].settings.enabled = true ∧ s.rm[m].settings.mode = .tach ∧
      reached s.rm[m].stallFrom (s.rm[m].settings.stall * 100000) s.clock
  | .gateEnd m => s.rm[m].settings.enabled = true ∧ s.rm[m].settings.mode = .clock ∧
      s.rm[m].gateStart + 100000 ≤ s.clock
  | .strobeEdge =>
      let rising := decide (s.cdp.settings.strobe = .rising)
      s.cdp.settings.enabled = true ∧ s.lau[(3 : Fin 4)].present = true ∧ s.cdp.blanking = none ∧
        s.cdp.reference = some (!rising) ∧ (s.readsHigh 3 s.pins.stb ↔ rising = true)
  | .strobeBlankingEnd => reached s.cdp.blanking 0 s.clock
  | .foldTimerExpiry => reached s.cdp.foldFrom (s.cdp.settings.foldWindow * 100000) s.clock
  | .waitIdleExpiry p => s.portLive p = true ∧ s.cp[p].rx = .waitIdle ∧
      reached s.cp[p].highSince s.cp[p].settings.frameTime s.clock
  | .startEdge p => s.portLive p = true ∧ s.cp[p].rx = .idle ∧ ¬s.readsHigh (portBank p) s.pins.rx[p]
  | .startBitGlitch p => s.portLive p = true ∧ s.cp[p].rx = .receiving ∧ s.cp[p].bits = [] ∧
      s.cp[p].rxStart + s.cp[p].settings.samplePoint 0 ≤ s.clock ∧ s.readsHigh (portBank p) s.pins.rx[p]
  | .byteArrival p =>
      let stop := if s.cp[p].settings.format = .f8N1 then 9 else 10
      s.portLive p = true ∧ s.cp[p].rx = .receiving ∧ s.cp[p].held = false ∧ s.cp[p].bits.length = stop ∧
        s.cp[p].rxStart + s.cp[p].settings.samplePoint stop ≤ s.clock
  | .heldFrameTaken p => s.portLive p = true ∧ s.cp[p].rx = .receiving ∧ s.cp[p].held = true ∧
      s.readsHigh (portBank p) s.pins.rx[p]
  | .breakSeen p =>
      let bits := if s.cp[p].settings.format = .f8N1 then 10 else 11
      s.portLive p = true ∧ s.cp[p].rx = .receiving ∧ s.cp[p].held = true ∧ s.cp[p].steadyLow = true ∧
        ¬s.readsHigh (portBank p) s.pins.rx[p] ∧
        bits * 100000000 < (s.clock - s.cp[p].rxStart) * baudRate s.cp[p].settings.baud
  | .waitHighRecovery p => s.portLive p = true ∧ s.cp[p].rx = .waitHigh ∧ s.readsHigh (portBank p) s.pins.rx[p]
  | .idleGapExpiry p d => (s.rc.runState = .armed ∨ s.rc.runState = .running) ∧
      ∃ f, s.cp[p].fragment d = some f ∧ f.last + s.cp[p].settings.idleGap * 100000 ≤ s.rc.timeBase
  | .byteSendTime p =>
      let stop := if s.cp[p].settings.format = .f8N1 then 9 else 10
      ∃ f, s.cp[p].inFlight = some f ∧ f.complete = false ∧ f.started + s.cp[p].settings.samplePoint stop ≤ s.clock
  | .byteSent p => ∃ f, s.cp[p].inFlight = some f ∧ f.complete = true ∧
      f.started + s.cp[p].settings.frameTime ≤ s.clock
  | .generatorActiveLevel c => s.dc[c].running = true ∧ s.dc[c].active.a ≤ s.dc[c].counter ∧
      s.dc[c].counter < s.dc[c].active.b ∧ s.dc[c].activeLevel = false
  | .periodEnd c => s.dc[c].running = true ∧ s.dc[c].active.b ≤ s.dc[c].counter
  | .operationEnd => ∃ a, s.sc.job = some a ∧
      a.opStart + a.current.periods * (2 * a.settings.divider) ≤ s.clock
  | _ => False

/-- A command is ready for the part to take: the request at the head of its queue, or a command whose moment has come. -/
def State.isReady (s : State) (c : Instr) : Prop :=
  (∃ e q, s.mp.queue = e :: q ∧ e.command = c ∧ s.mp.busy = false) ∨ s.isDue c

/-! ## The Trace Store (R51, R53) -/

/-- R51: the occupancy is the sum of the sizes of the retained records. -/
def Ts.occupancyExact (t : Ts) : Prop := t.occupancy = (t.records.map fun r => r.record.units).sum

/-- R53: the retained sequence numbers form one unbroken ascending range, which ends just below the next sequence
number. -/
def Ts.unbroken (t : Ts) : Prop :=
  t.records.length ≤ t.nextSeq ∧
    ∀ i (h : i < t.records.length), t.records[i].seq = t.nextSeq - t.records.length + i

/-- The store is sound. -/
def Ts.Sound (t : Ts) : Prop := t.occupancyExact ∧ t.unbroken

/-- A record is RUN ENDED (R62). -/
def Rec.closesRun (r : Rec) : Prop := ∃ src cause v ff, r.body = .runEnded src cause v ff

/-- A record is TRIG (R63). -/
def Rec.isTrigger (r : Rec) : Prop := ∃ src, r.body = .trig src

/-- R51, R61, R62: a GAP is due ahead of a waiting record: records have been lost, and it is RUN ENDED with room for the GAP, or
in STREAM an ordinary record that fits. -/
def Ts.gapDue (t : Ts) (w : Waiting) : Prop :=
  t.admitted = false ∧ t.lost ≠ 0 ∧
    ((w.record.closesRun ∧ t.occupancy + 3 ≤ 32765) ∨
      (¬w.record.closesRun ∧ ¬w.record.isTrigger ∧ t.active.mode = .stream ∧ t.occupancy + w.record.units ≤ 32762))

/-- R51: the room of the store, `live` saying that a run is ARMED or RUNNING. The store never holds more than 32,768 units,
and while it still has records to take, at most 32,765, which leaves room for RUN ENDED. No record that waits is larger than
9 units; RUN ENDED waits behind every other, not in a run, and for as long as records of the ended run wait. A record admitted
with its GAP has room. -/
structure Ts.Roomy (t : Ts) (live : Bool) : Prop where
  capacity : t.occupancy ≤ 32768
  reserve : live = true ∨ t.input ≠ [] → t.occupancy ≤ 32765
  sizes : ∀ w ∈ t.input, w.record.units ≤ 9
  quotas : 16 ≤ t.active.quota ∧ t.active.quota ≤ 32000 ∧ 16 ≤ t.staged.quota ∧ t.staged.quota ≤ 32000
  running : live = true → ∀ w ∈ t.input, ¬w.record.closesRun
  ended : live = false → t.input ≠ [] → ∃ before w, t.input = before ++ [w] ∧ w.record.closesRun ∧
    ∀ e ∈ before, ¬e.record.closesRun
  /-- R51, R61, R62: the record admitted with a GAP heads the input; it is RUN ENDED, or in STREAM an ordinary record for which
  there is room -/
  pair : t.admitted = true → ∃ w ws, t.input = w :: ws ∧ (w.record.closesRun ∨
    (¬w.record.isTrigger ∧ t.active.mode = .stream ∧ t.occupancy + w.record.units ≤ 32765))

/-- R64: in WINDOW mode an accepted TRIG record stays retained at the trigger position, and while the store is TRIGGERED and
has records to take, but for RUN ENDED behind its GAP, which P does not count, P is the units of the records after it and lies
below Q. -/
def Ts.triggerKept (t : Ts) (live : Bool) : Prop :=
  t.active.mode = .window → t.state = .triggered ∨ t.state = .stopped →
    ∃ n, t.trigSeq = some n ∧ (∃ r ∈ t.records, r.seq = n ∧ r.record.isTrigger) ∧
      (t.state = .triggered → live = true ∨ t.input ≠ [] → t.admitted = false → t.post < t.active.quota ∧
        t.post = ((t.records.filter fun r : Stored => decide (n < r.seq)).map fun r : Stored => r.record.units).sum)

/-! ## The Flag Unit (R137) -/

/-- R137: every flag of the waiting notice is set and enabled. -/
def Fu.Sound (u : Fu) : Prop := u.slot &&& ~~~(u.flags &&& u.enables) = 0

/-! ## Capacities -/

/-- R134: the request queue holds at most 4 entries, a frame in reception holding one. -/
def Mp.fitsQueue (m : Mp) : Prop := m.queue.length + (if m.reception = [] then 0 else 1) ≤ 4

/-- R33: the look-back list holds at most 64 entries. -/
def Ste.fitsLookback (t : Ste) : Prop := t.lookback.length ≤ 64

/-- R98: the code history holds at most 16 entries, each with a count from 1 to 65,535. -/
def Cdp.historySound (c : Cdp) : Prop :=
  c.history.length ≤ 16 ∧ ∀ e ∈ c.history, 1 ≤ e.count ∧ e.count ≤ 65535

/-- R127, R131: the scan queue holds at most 16 waiting jobs and the result list at most 16 results. -/
def Sc.fits (c : Sc) : Prop := c.queue.length ≤ 16 ∧ c.results.length ≤ 16

/-- R108: the transmit queue of a console port holds at most 256 bytes. -/
def Cp.fitsTransmit (c : Cp) : Prop := c.queue.length ≤ 256

/-- R107: a fragment that is open holds from 1 to 55 bytes: it closes when it reaches 56. -/
def Fragment.sound (f : Fragment) : Prop := 1 ≤ f.bytes.length ∧ f.bytes.length ≤ 55

/-- R107: the open fragments of a console port are sound. -/
def Cp.fragmentsSound (c : Cp) : Prop :=
  (∀ f, c.rxFragment = some f → f.sound) ∧ ∀ f, c.txFragment = some f → f.sound

/-- R99: an open CODE record is one of a run with trace on; it counts from 1 to 65,535, and no more than the history's head
where there is one. -/
def State.codeRecordSound (s : State) : Prop :=
  ∀ p, s.cdp.pending = some p → s.live = true ∧ s.cdp.settings.trace = true ∧ 1 ≤ p.count ∧ p.count ≤ 65535 ∧
    ∀ h hs, s.cdp.history = h :: hs → p.count ≤ h.count

/-- R112: a matcher's progress is 0 or below the length of its pattern: at the length it is a hit. -/
def Tm.progressSound (t : Tm) : Prop := t.progress = 0 ∨ t.progress < t.settings.pattern.length

/-- Each list and count named stays within the room the manual gives it. -/
structure State.Fits (s : State) : Prop where
  requests : s.mp.fitsQueue
  lookback : s.ste.fitsLookback
  history : s.cdp.historySound
  codeRecord : s.codeRecordSound
  scans : s.sc.fits
  transmit : ∀ p : Fin 2, s.cp[p].fitsTransmit
  fragments : ∀ p : Fin 2, s.cp[p].fragmentsSound
  progress : ∀ m : Fin 8, s.tm[m].progressSound

/-- The store of the part: sound, within its room, its trigger kept, and fed with fragments that make records of at most 9
units (R51, R53, R64, R107); one waiting record is awaited for a MARK request in hand, none without one (R68). -/
structure State.StoreSound (s : State) : Prop where
  sound : s.ts.Sound
  roomy : s.ts.Roomy s.live
  trigger : s.ts.triggerKept s.live
  marks : (s.ts.input.filter Waiting.awaited).length = if s.mp.inHand.isSome then 1 else 0
  fragments : ∀ p : Fin 2, s.cp[p].fragmentsSound

/-! ## Drive channels (R120, R121) -/

/-- R120: a rail-gated channel drives no level while the rail state of its bank is ABSENT. -/
def State.railsRespected (s : State) : Prop :=
  ∀ c : Fin 8, s.dc[c].railGated = true → s.lau[driveBank c].present = false → s.dc[c].mode = .released

/-- R121: a channel outside the permit mask is always RELEASED. -/
def State.maskRespected (s : State) : Prop :=
  ∀ c : Fin 8, s.permitMask.getLsbD c.val = false → s.dc[c].mode = .released

/-- R28, R29: while a run is ARMED or RUNNING, every channel that a DRIVE action of the active plan names is in the
permit mask. -/
def State.planPermitted (s : State) : Prop :=
  s.live = true → ∀ (k : Fin 64) (e : StepEntry), s.ste.active[k] = some e →
    ∀ (c : Fin 8) (op : DriveOp), Action.drive c op ∈ e.actions → s.permitMask.getLsbD c.val = true

/-- A generator runs only in PULSE mode, and its level is inactive while it does not run (chapter 9, R115). -/
def Dc.generatorSound (d : Dc) : Prop :=
  (d.running = true → d.mode = .pulse) ∧ (d.running = false → d.activeLevel = false ∧ d.counter = 0)

/-- The drive channels are safe. -/
structure State.DrivesSafe (s : State) : Prop where
  rails : s.railsRespected
  mask : s.maskRespected
  plan : s.planPermitted
  generators : ∀ c : Fin 8, s.dc[c].generatorSound

/-! ## The Scan Controller (R124) -/

/-- R124: between jobs the TAP state is Run-Test/Idle or UNKNOWN. -/
def Sc.restsIdle (c : Sc) : Prop := c.job = none → c.tap = none ∨ c.tap = some .runTestIdle

/-! ## Bytes of a body that are not checked (12.6) -/

/-- 12.6: byte `i` of the 36 of this step entry is ignored on receipt: the anchor step for START, a condition or action
parameter marked 0, the last byte of an action slot, and the slots above the number of actions. -/
def StepEntry.unused (e : StepEntry) (i : Nat) : Bool :=
  match i with
  | 3 => e.anchor == .start
  | 5 => e.cond == .always
  | 6 => match e.cond with
    | .text _ | .always => true
    | _ => false
  | _ =>
    decide (20 ≤ i) && match e.actions[(i - 20) / 4]?, (i - 20) % 4 with
      | none, _ | some _, 3 | some (.scan _), 2 | some (.mark _), 2 | some .trigger, 1 | some .trigger, 2
      | some .endRun, 1 | some .endRun, 2 => true
      | _, _ => false

/-- 12.6: byte `i` of the 196 of this job body is ignored on receipt: the bytes marked 0, the parameter of a TAP_RESET, the
out value of a TAP_RESET or an IDLE, the slots above the number of operations, and the compare where none is given. -/
def JobBody.unused (j : JobBody) (i : Nat) : Bool :=
  if i < 4 then decide (2 ≤ i)
  else if i < 164 then
    match j.ops[(i - 4) / 20]?, (i - 4) % 20 with
    | none, _ | some _, 1 => true
    | some .tapReset, o => decide (2 ≤ o)
    | some (.idle _), o => decide (4 ≤ o)
    | _, _ => false
  else j.compare.isNone

/-! ## The end of a run (R15, R16) -/

/-- R16: a required step of the active plan that has resolved outside MATCHED and HELD, with its outcome. -/
def Ste.failedStep (t : Ste) (k : Fin 64) (o : StepState) : Prop :=
  ∃ e v, t.active[k] = some e ∧ t.evals[k] = some v ∧ e.required = true ∧ v.state = o ∧ o ≠ .matched ∧ o ≠ .held

/-- R16: the verdict that an end of this cause has, given the step states after the cancellations. -/
def Ste.verdictIs (t : Ste) (cause : EndCause) (v : Verdict) : Prop :=
  match cause with
  | .armTimeout => v = .notStarted
  | .abort => v = .aborted
  | .allResolved | .limit | .endAction | .stopOnFail =>
    ((∀ k o, ¬ t.failedStep k o) → v = .pass) ∧ ((∃ k o, t.failedStep k o) → v = .fail)

/-- R15, step 1: the used steps still PENDING or OPEN, in ascending step number. -/
def Ste.unresolved (t : Ste) : List (Fin 64) :=
  (List.finRange 64).filter fun k => t.active[k].isSome &&
    t.evals[k].any fun v => decide (v.state = .pending ∨ v.state = .opened)

/-- R15, R48: the STEP record of a step cancelled at `time`. -/
def cancelledRecord (time : Nat) (k : Fin 64) (e : StepEntry) (v : StepEval) : Rec :=
  { time, body := .step k .cancelled e.label (if e.kind = .await then v.counted else 0) v.clipped v.lookback v.refused }

/-- R15, step 1: the STEP records of the cancelled steps, in ascending step number. -/
def State.cancelledRecords (s : State) : List Rec :=
  s.ste.unresolved.filterMap fun k =>
    match s.ste.active[k], s.ste.evals[k] with
    | some e, some v => some (cancelledRecord s.rc.timeBase k e v)
    | _, _ => none

/-- R15, step 2: the records of the open CODE record and of the open fragments. -/
def State.closingRecords (s : State) : List Rec :=
  (s.cdp.pending.toList.map fun p => { time := p.first, body := .code p.code p.count p.last }) ++
  [((0 : Fin 2), TextDir.rx), (0, .tx), (1, .rx), (1, .tx)].flatMap fun (p, d) =>
    (s.cp[p].fragment d).toList.map fun f => { time := f.first, body := .text p d f.bytes f.error f.brk }

/-- R15, R32, R84, R100, R112: `u` is what the end work of an end that comes in `s` begins with. The events handed over are
delivered. The pass of decision times reached, where `c` is odd, or else the pass of the last event delivered in RUNNING is
in hand when the end is taken, after `c / 2` of its records (notes/assumptions/34.md, 48.md). -/
def EndBegins (c : Nat) (s u : State) : Prop :=
  ∃ d v, delivered s.ste.events.length s d ∧ u = { v with choices := s.choices + 1 } ∧
    (c % 2 = 1 ∧ d.isDue .decisionTime → ∃ w, exec .decisionTime d = .next w ∧ EndedInPass d w v (c / 2)) ∧
    (¬(c % 2 = 1 ∧ d.isDue .decisionTime) →
      (s.ste.events = [] → v = d) ∧
      ∀ n p, s.ste.events.length = n + 1 → delivered n s p →
        (p.rc.runState = .running → EndedInPass p d v (c / 2)) ∧ (p.rc.runState ≠ .running → v = d))

/-- R15: what the end of a run of a given cause leaves, `s` the state its end work begins with and `t` the state after. -/
structure RunEnded (s t : State) (why : EndCause) : Prop where
  state : t.rc.runState = .ended
  time : t.rc.timeBase = s.rc.timeBase
  cause : t.rc.cause = some why
  verdict : ∃ v, t.rc.verdict = some v ∧ t.ste.verdictIs why v
  /-- R16: the RC names the first failing step of the resolution order -/
  firstFail : ∀ v, t.rc.verdict = some v → t.rc.firstFail = t.ste.firstFail v
  /-- every PENDING or OPEN step is CANCELLED at the end time -/
  cancelled : ∀ (k : Fin 64) (e : StepEntry) (v : StepEval), s.ste.active[k] = some e → s.ste.evals[k] = some v →
    v.state.terminal = false →
    t.ste.evals[k] = some { v with state := .cancelled, resolution := some s.rc.timeBase }
  /-- every other step keeps its evaluation record -/
  kept : ∀ (k : Fin 64) (v : StepEval), s.ste.evals[k] = some v → v.state.terminal = true → t.ste.evals[k] = some v
  /-- R16: the cancelled steps resolve last, in ascending step number -/
  order : t.ste.order = s.ste.order ++ s.ste.unresolved
  /-- the records waiting stay, and behind them go the STEP records of the cancelled steps, the closing CODE and TEXT
  records, and RUN ENDED with the cause, the verdict and the first failing step -/
  records : ∃ v, t.rc.verdict = some v ∧ ∃ work : List Waiting, t.ts.input = s.ts.input ++ work ∧
    (∀ w ∈ work, w.endWork = true ∧ w.awaited = false) ∧
    work.map Waiting.record = s.cancelledRecords ++ s.closingRecords ++
      [{ time := s.rc.timeBase, body := .runEnded s.rc.active.source why v t.rc.firstFail }]
  /-- no CODE record and no fragment is open any more -/
  closed : t.cdp.pending = none ∧ ∀ (p : Fin 2) (d : TextDir), t.cp[p].fragment d = none
  flag : t.fu.flags.getLsbD 1 = true
  /-- R15, R129: every waiting step job leaves the queue, an active one gets the cancel mark, and host jobs stay as they
  were, with all else of the SC but its results -/
  jobs : t.sc = { s.sc with
    queue := s.sc.queue.filter fun j => !j.isStep
    job := s.sc.job.map fun a : Active => { a with cancel := a.cancel || a.job.isStep }
    results := t.sc.results }
  /-- R131: each step job that waited is completed CANCELLED, in queue order, with its result, with its SCAN event where it is
  of the run, and with SCAN_DONE; it leaves no SCAN record (`records`) -/
  completed :
    let gone := s.sc.queue.filter Job.isStep
    (s.sc.results.length ≤ 16 → t.sc.results = ((gone.map fun j : Job => ({
      cls := j.cls, outcome := .cancelled, reason := none, inserted := false, capture := 0
      captureLen := 0 } : ScanResult)).reverse ++ s.sc.results).take 16) ∧
    (gone ≠ [] → t.fu.flags.getLsbD 12 = true) ∧
    t.ste.events = s.ste.events ++ gone.filterMap fun j : Job =>
      match j.cls with
      | .step n => if j.current then some ⟨s.rc.timeBase, .scan n .cancelled⟩ else none
      | .host _ => none
  /-- the drive channels, the banks, the permit mask, the code history and the retained records stay as they were -/
  board : t.dc = s.dc ∧ t.lau = s.lau ∧ t.permitMask = s.permitMask ∧ t.cdp.history = s.cdp.history ∧
    t.ts.records = s.ts.records

/-! ## A bank's threshold and rail (R71, R79) -/

/-- R130, R131: the results of the jobs that the loss of bank D's rail ends, in the order they end. -/
def Sc.railFaults (c : Sc) : List ScanResult :=
  (c.job.toList.map fun a => {
    cls := a.job.cls, outcome := .fault, reason := some .rail, inserted := a.inserted, capture := a.capture
    captureLen := a.captureLen }) ++
  c.queue.map fun j => {
    cls := j.cls, outcome := .fault, reason := some .rail, inserted := false, capture := 0, captureLen := 0 }

/-- R79: what a rail change of bank `b` to `up` leaves, `s` the state before it and `t` the state after. -/
structure RailMoved (s t : State) (b : Fin 4) (up : Bool) : Prop where
  /-- the RAIL event, with the eight levels of a change to ABSENT on bank A, B or C -/
  event : ∃ levels, ({ time := s.rc.timeBase, body := .rail b up levels } : Event) ∈ t.ste.events ∧
    (up = false → b.val < 3 → ∃ l, levels = some l ∧
      ∀ c : Fin 24, c.val / 8 = b.val → l.getLsbD (c.val % 8) = s.mc[c].level)
  flag : t.fu.flags.getLsbD 7 = true
  /-- R85, R86 -/
  channels : ∀ c : Fin 24, c.val / 8 = b.val → t.mc[c] =
    if up then { s.mc[c] with pending := none, blanking := some (s.clock + 200) }
    else { s.mc[c] with pending := none, blanking := none, level := false }
  /-- R93: a loss ends what is being measured; a return takes the raw input as the first sample, and a CLOCK gate in progress
  is void -/
  monitors : ∀ m : Fin 4, s.rm[m].settings.enabled = true → s.rm[m].settings.channel.val / 8 = b.val →
    (up = false → t.rm[m] = { s.rm[m] with
      candidate := none, agreement := 0, last := none, revolution := none, edges := 0, gateVoid := false }) ∧
    (up = true → s.rm[m].last = none → t.rm[m] = { s.rm[m] with
      last := some (decide (t.lau[b].threshold * 14 < s.pins.mc[s.rm[m].settings.channel]))
      gateVoid := decide (s.rm[m].settings.mode = .clock) })
  otherMonitors : ∀ m : Fin 4, s.rm[m].settings.enabled = false ∨ s.rm[m].settings.channel.val / 8 ≠ b.val →
    t.rm[m] = s.rm[m]
  /-- R120 -/
  drives : ∀ c : Fin 8, t.dc[c] =
    if c.val / 4 = b.val ∧ up = false ∧ s.dc[c].railGated = true ∧ s.dc[c].mode ≠ .released then
      { s.dc[c] with mode := .released, running := false, counter := 0, subTicks := 0, activeLevel := false }
    else s.dc[c]
  blocked : up = false →
    (∃ c : Fin 8, c.val / 4 = b.val ∧ s.dc[c].railGated = true ∧ s.dc[c].mode ≠ .released) →
    t.fu.flags.getLsbD 14 = true
  /-- R120: a DRIVE record with cause RAIL for each channel released -/
  driveRecords : up = false → s.live = true → ∀ c : Fin 8, c.val / 4 = b.val → s.dc[c].railGated = true →
    s.dc[c].mode ≠ .released → ∃ w ∈ t.ts.input, w.record = ⟨s.rc.timeBase, .drive c .released .rail⟩
  /-- R105, R110 -/
  ports : ∀ p : Fin 2, p.val + 2 = b.val → t.cp[p].rx = .waitIdle ∧ t.cp[p].bits = [] ∧ t.cp[p].held = false ∧
    (up = false → t.cp[p].queue = [] ∧ t.cp[p].inFlight = none ∧ t.cp[p].rxFragment = none ∧ t.cp[p].txFragment = none ∧
      t.cp[p].discards = min 4294967295
        (s.cp[p].discards + (s.cp[p].queue.length + if s.cp[p].inFlight.isSome then 1 else 0)))
  /-- R105: with the rail back the receiver waits for a quiet line from this moment on -/
  lines : up = true → ∀ p : Fin 2, p.val + 2 = b.val → t.cp[p].highSince =
    if t.lau[b].threshold * 14 < s.pins.rx[p] then some s.clock else none
  /-- R110: the open fragments go to the trace, and a byte not sent raises TX_DROP -/
  texts : up = false → s.live = true → ∀ p : Fin 2, p.val + 2 = b.val → ∀ d f, s.cp[p].fragment d = some f →
    ∃ w ∈ t.ts.input, w.record = ⟨f.first, .text p d f.bytes f.error f.brk⟩
  dropped : up = false → (∃ p : Fin 2, p.val + 2 = b.val ∧ (s.cp[p].queue ≠ [] ∨ s.cp[p].inFlight ≠ none)) →
    t.fu.flags.getLsbD 13 = true
  /-- R113 -/
  matchers : up = false → ∀ m : Fin 8, s.tm[m].settings.port.val + 2 = b.val → t.tm[m].progress = 0
  /-- R96, R99 -/
  code : b = 3 → t.cdp.blanking = (if up then some (s.clock + 200) else none) ∧ t.cdp.reference = none ∧
    t.cdp.pending = (if up then s.cdp.pending else none)
  codeRecord : b = 3 → up = false → s.live = true → ∀ p, s.cdp.pending = some p →
    ∃ w ∈ t.ts.input, w.record = ⟨p.first, .code p.code p.count p.last⟩
  /-- R130: the TAP state is UNKNOWN, and every job held has ended FAULT, reason RAIL, the active one first -/
  scan : b = 3 → up = false → t.sc.tap = none ∧ t.sc.job = none ∧ t.sc.queue = [] ∧
    (s.sc.results.length ≤ 16 → t.sc.results = (s.sc.railFaults.reverse ++ s.sc.results).take 16) ∧
    (s.sc.railFaults ≠ [] → t.fu.flags.getLsbD 12 = true)
  /-- R131: each job's SCAN record in a run, and the SCAN event of each step job of the run -/
  scanRecords : b = 3 → up = false → s.live = true → ∀ r ∈ s.sc.railFaults, ∃ w ∈ t.ts.input,
    w.record = ⟨s.rc.timeBase, .scan r.cls .fault (some .rail) r.inserted r.capture r.captureLen⟩
  scanEvents : b = 3 → up = false → ∀ j ∈ (s.sc.job.toList.map Active.job) ++ s.sc.queue, ∀ n, j.cls = .step n →
    j.current = true → ({ time := s.rc.timeBase, body := .scan n .fault } : Event) ∈ t.ste.events

/-- R71, R85, R96: what a bank's taking a threshold and a rail state leaves. -/
structure BankTaken (s t : State) (b : Fin 4) (code : Nat) (up : Bool) : Prop where
  threshold : t.lau[b].threshold = code
  present : t.lau[b].present = up
  moved : s.lau[b].present ≠ up → RailMoved s t b up
  kept : s.lau[b].present = up →
    t.ste = s.ste ∧ t.dc = s.dc ∧ t.sc = s.sc ∧ t.tm = s.tm ∧ t.pins = s.pins ∧ t.permitMask = s.permitMask ∧
    ∀ c : Fin 24, t.mc[c] =
      if c.val / 8 = b.val ∧ up = true ∧ s.lau[b].threshold ≠ code then
        { s.mc[c] with pending := none, blanking := some (s.clock + 200) }
      else s.mc[c]
  /-- R71, R91, R92, R93: a new threshold on a PRESENT rail is one sample for each enabled monitor of the bank
  (notes/assumptions/18.md) -/
  monitors : s.lau[b].present = up → ∀ m : Fin 4,
    let r := s.rm[m]
    let raw := decide (code * 14 < s.pins.mc[r.settings.channel])
    let sampled := s.lau[b].threshold ≠ code ∧ up = true ∧ r.settings.enabled = true ∧ r.settings.channel.val / 8 = b.val
    (¬sampled → t.rm[m] = r) ∧ (sampled → r.last = none → t.rm[m] = { r with last := some raw }) ∧
    ∀ l, sampled → r.last = some l →
      (r.settings.mode = .clock → t.rm[m] = { r with
        last := some raw, edges := r.edges + if raw = true ∧ l = false then 1 else 0 }) ∧
      (r.settings.mode = .tach → t.rm[m] = { r with last := some (raw || l) })
  /-- R71, R105, R106: and one for the receive line of the bank's port -/
  lines : s.lau[b].present = up → ∀ p : Fin 2, t.cp[p] =
    if p.val + 2 = b.val ∧ s.lau[b].threshold ≠ code then
      let high := decide (code * 14 < s.pins.rx[p])
      { s.cp[p] with
        highSince := if high then some (s.cp[p].highSince.getD s.clock) else none
        steadyLow := s.cp[p].steadyLow && !high }
    else s.cp[p]
  strobe : s.lau[b].present = up → t.cdp =
    if b = 3 ∧ up = true ∧ s.lau[b].threshold ≠ code then
      { s.cdp with blanking := some (s.clock + 200), reference := none }
    else s.cdp

/-! ## A console byte (R105, R107, R112, R113) -/

/-- R112: two bytes are equal to a matcher. -/
def sameLetter (ci : Bool) (a b : Byte) : Prop :=
  a = b ∨ (ci = true ∧ ((0x41 ≤ a.toNat ∧ a.toNat ≤ 0x5A ∧ b = a + 0x20) ∨ (0x41 ≤ b.toNat ∧ b.toNat ≤ 0x5A ∧ a = b + 0x20)))

/-- R112: the first `n` bytes of a pattern equal the last `n` bytes taken. -/
def endsWithPrefix (ci : Bool) (pattern taken : Bytes) (n : Nat) : Prop :=
  n ≤ pattern.length ∧ n ≤ taken.length ∧
    ∀ i < n, sameLetter ci (byteAt pattern i) (byteAt taken (taken.length - n + i))

/-- R107, R109: what a byte does to the open fragment of a port in direction `d`, `s` the state before it and `t` the
state after: in a run it opens the fragment or joins it, and closes it at LF and at 56 bytes with its TEXT record. -/
structure FragmentTakes (s t : State) (p : Fin 2) (d : TextDir) (b : Byte) (time : Nat) (err : Bool) : Prop where
  idle : s.live = false → t.cp[p].fragment d = s.cp[p].fragment d ∧ t.ts = s.ts
  opened : s.live = true → s.cp[p].fragment d = none → b ≠ 0x0A →
    t.cp[p].fragment d = some { bytes := [b], first := time, last := time, error := err, brk := false } ∧ t.ts = s.ts
  line : s.live = true → s.cp[p].fragment d = none → b = 0x0A → t.cp[p].fragment d = none ∧
    ∃ w, t.ts.input = s.ts.input ++ [w] ∧ w.record = ⟨time, .text p d [b] err false⟩
  joined : ∀ f, s.live = true → s.cp[p].fragment d = some f → b ≠ 0x0A → f.bytes.length < 55 →
    t.cp[p].fragment d = some { f with bytes := f.bytes ++ [b], last := time, error := f.error || err } ∧ t.ts = s.ts
  closed : ∀ f, s.live = true → s.cp[p].fragment d = some f → (b = 0x0A ∨ 55 ≤ f.bytes.length) →
    t.cp[p].fragment d = none ∧ ∃ w, t.ts.input = s.ts.input ++ [w] ∧
      w.record = ⟨f.first, .text p d (f.bytes ++ [b]) (f.error || err) f.brk⟩

/-- R105, R112, R113: what a byte taken by the receiver of port `p` does. -/
structure ByteTaken (s t : State) (p : Fin 2) (b : Byte) (time : Nat) (err : Bool) : Prop where
  fragment : FragmentTakes s t p .rx b time err
  /-- an error byte and no other restarts the matchers of the port -/
  restarted : err = true → t.ste = s.ste ∧ t.fu = s.fu ∧
    ∀ m : Fin 8, s.tm[m].settings.port = p → t.tm[m] = { s.tm[m] with progress := 0 }
  advanced : err = false → ∀ m : Fin 8, s.tm[m].settings.enabled = true → s.tm[m].settings.port = p →
    let n := s.tm[m].advance b
    (n ≠ s.tm[m].settings.pattern.length → t.tm[m] = { s.tm[m] with progress := n }) ∧
    (n = s.tm[m].settings.pattern.length → t.tm[m] = { s.tm[m] with progress := 0 } ∧
      ({ time, body := .text m } : Event) ∈ t.ste.events ∧ t.fu.flags.getLsbD 11 = true)
  others : ∀ m : Fin 8, s.tm[m].settings.port ≠ p ∨ (err = false ∧ s.tm[m].settings.enabled = false) → t.tm[m] = s.tm[m]

/-! ## Scan jobs (R131) -/

/-- R131: the completion of job `j` with result `r`: the result is the newest of at most 16, the SCAN record is handed over
in a run, a step job of the run delivers its SCAN event, and SCAN_DONE is raised. -/
structure JobCompleted (s t : State) (j : Job) (r : ScanResult) : Prop where
  results : t.sc.results = (r :: s.sc.results).take 16
  flag : t.fu.flags.getLsbD 12 = true
  record : (s.live = false → t.ts = s.ts) ∧ (s.live = true → ∃ w, t.ts.input = s.ts.input ++ [w] ∧
    w.record = ⟨s.rc.timeBase, .scan r.cls r.outcome r.reason r.inserted r.capture r.captureLen⟩)
  event : (∀ n, j.cls = .step n → j.current = true →
      t.ste = { s.ste with events := s.ste.events ++ [⟨s.rc.timeBase, .scan n r.outcome⟩] }) ∧
    ((∃ h, j.cls = .host h) ∨ j.current = false → t.ste = s.ste)

/-! ## The replay of a step that opens (R38, R39, R40, R43) -/

/-- R38, R39, R40, R43: an AWAIT or GUARD step of window `lo` to `hi` judges the events at the times given, in that order, up
to the one that resolves it, `n` counted before: the number counted after, and the state and time of its resolution. -/
def StepEntry.judged (e : StepEntry) (lo hi : Nat) : Nat → List Nat → Nat × Option (StepState × Nat)
  | n, [] => (n, none)
  | n, t :: rest =>
    let inWindow := decide (lo ≤ t ∧ t ≤ hi)
    if e.kind = .guard then if inWindow then (n, some (.violated, t)) else e.judged lo hi n rest
    else if t < lo ∧ e.earlyFails = true then (n, some (.early, t))
    else if inWindow ∧ e.count ≤ n + 1 then (n + 1, some (.matched, t))
    else e.judged lo hi (if inWindow then n + 1 else n) rest

/-! ## A step's actions and the close of its pass (R23, R46, R48, R49) -/

/-- R117: the channel after an operation. -/
def Dc.after (d : Dc) (op : DriveOp) : Dc :=
  let still := { d with running := false, counter := 0, subTicks := 0, activeLevel := false }
  match op with
  | .release => { still with mode := .released }
  | .low => { still with mode := .low }
  | .high => { still with mode := .high }
  | .startPulse => { still with mode := .pulse, running := true, active := d.buffered }
  | .stopPulse => if d.mode = .pulse then still else d

/-- A record of a source that reaches the TS now, outside the end work and awaited by no request (R52). -/
def State.arriving (s : State) (src : RecSource) (r : Rec) : Waiting :=
  { record := r, source := src, reached := s.clock, endWork := false, awaited := false }

/-- R23, R63, R119, R127: what one action of step `k` does in a run, `s` the state before it and `t` the state after. -/
def ActionDone (k : Fin 64) (a : Action) (s t : State) : Prop :=
  match a with
  | .drive c op =>
    let d := s.dc[c]
    let refused := (op = .low ∨ op = .high ∨ op = .startPulse) ∧ d.railGated = true ∧ s.lau[driveBank c].present = false
    let d' := d.after op
    let recorded := d'.driveMode ≠ d.driveMode ∨ (op = .startPulse ∧ d.running = true)
    (refused → ∃ v, s.ste.evals[k] = some v ∧ t = { s.raise .driveBlock with
      ste := { s.ste with evals := s.ste.evals.set k (some { v with refused := true }) k.isLt } }) ∧
    (¬refused → t = { s with
      dc := s.dc.set c d' c.isLt
      ts := { s.ts with input := s.ts.input ++ if recorded then
        [s.arriving (.dc c) ⟨s.rc.timeBase, .drive c d'.driveMode .step⟩] else [] } })
  | .scan n =>
    (s.sc.active[n] = none → t = s) ∧
    ∀ body, s.sc.active[n] = some body →
      let j : Job := { cls := .step n, body, current := true }
      let completed := fun reason => t = { s with
          sc := { s.sc with results := t.sc.results }, fu := t.fu, ts := { s.ts with input := t.ts.input }
          ste := { s.ste with events := t.ste.events } } ∧
        t.fu = (s.raise .scanDone).fu ∧ JobCompleted s t j {
          cls := .step n, outcome := .fault, reason := some reason, inserted := false, capture := 0, captureLen := 0 }
      (16 ≤ s.sc.queue.length → completed .queueFull) ∧
      (s.sc.queue.length < 16 → s.sc.job.isSome = true → ∃ steps hosts, s.sc.queue = steps ++ hosts ∧
        (∀ x ∈ steps, ∃ m, x.cls = .step m) ∧ (∀ x, hosts.head? = some x → ∃ tag, x.cls = .host tag) ∧
        t = { s with sc := { s.sc with queue := steps ++ j :: hosts } }) ∧
      (s.sc.queue = [] → s.sc.job = none → s.lau[(3 : Fin 4)].present = true → t = { s with sc := { s.sc with
        job := some {
          job := j, settings := s.sc.settings, inserted := s.sc.tap.isNone
          op := if s.sc.tap = none then none else some 0, opStart := s.clock, bits := [], capture := 0
          captureLen := 0, cancel := false } } }) ∧
      (s.sc.queue = [] → s.sc.job = none → s.lau[(3 : Fin 4)].present = false → completed .rail)
  | .mark code => t = { s with ts := { s.ts with input := s.ts.input ++
      [s.arriving .run ⟨s.rc.timeBase, .mark true ([byte k.val, code] ++ List.replicate 14 0)⟩] } }
  | .trigger =>
    (s.ts.active.mode = .window → s.ts.fired = false → t = { s with ts := { s.ts with
      fired := true, input := s.ts.input ++ [s.arriving .trig ⟨s.rc.timeBase, .trig (.step k)⟩] } }) ∧
    (s.ts.active.mode ≠ .window ∨ s.ts.fired = true → t = s)
  | .endRun => t = { s with ste := { s.ste with pass := { s.ste.pass with endRun := true } } }

/-- R23, R46: the actions of step `k`, performed in list order. -/
def performed (k : Fin 64) : List Action → State → State → Prop
  | [], s, t => t = s
  | a :: as, s, t => ∃ u, ActionDone k a s u ∧ performed k as u t

/-- R13, R49: the end requests that the close of a pass with a resolution sends: at most one, with END_ACTION before
STOP_ON_FAIL before ALL_RESOLVED. -/
def requestsAtClose (t : Ste) (requests : List EndCause) : Prop :=
  let allDone := ∀ (k : Fin 64) (e : StepEntry), t.active[k] = some e →
    ∃ v, t.evals[k] = some v ∧ v.state ≠ .pending ∧ v.state ≠ .opened
  (t.pass.endRun = true → requests = [.endAction]) ∧
  (t.pass.endRun = false → t.pass.stopFail = true → requests = [.stopOnFail]) ∧
  (t.pass.endRun = false → t.pass.stopFail = false → allDone → requests = [.allResolved]) ∧
  (t.pass.endRun = false → t.pass.stopFail = false → ¬allDone → requests = [])

/-- R16, R23, R46, R48, R49: step `k` of entry `e`, its evaluation record `v` before, resolves into `st` at `time`, alone in
its pass and with no step anchored to it; the pass closes. It joins the resolution order; on a success its actions are
performed; its STEP record reaches the TS; a required failure raises STEP_FAIL; and the pass sends its end request. Between
passes both marks of a pass are no. -/
def ResolvedAlone (s t : State) (k : Fin 64) (e : StepEntry) (v : StepEval) (st : StepState) (time : Nat) : Prop :=
  let failed := decide (st ≠ .matched ∧ st ≠ .held)
  let start := { s with ste := { s.ste with
    evals := s.ste.evals.set k (some { v with state := st, resolution := some time }) k.isLt
    order := s.ste.order ++ [k]
    pass := { s.ste.pass with
      resolved := true, stopFail := s.ste.pass.stopFail || (failed && e.required && e.stopOnFail) } } }
  ∃ u v' requests, performed k (if failed then [] else e.actions) start u ∧ u.ste.evals[k] = some v' ∧
    requestsAtClose u.ste requests ∧
    t = { u with
      fu := if failed && e.required then (u.raise .stepFail).fu else u.fu
      ts := { u.ts with input := u.ts.input ++ [u.arriving .run ⟨time,
        .step k st e.label (if e.kind = .await then v.counted else 0) v.clipped v.lookback v'.refused⟩] }
      rc := { u.rc with endRequests := u.rc.endRequests ++ requests }
      ste := { u.ste with pass := { resolved := false, endRun := false, stopFail := false } } }

end Sys2Proof.Machine
end

