-- ==== Sys2Proof/WellFormed.lean ====
section
/-! DEFINITION. Well-formed commands: the operands that a command's row of the table admits. A request carries the bytes
that its body's layout holds (12.6), and an operation or an option that is its row's; a frame command
brings bytes, or the end of a USB transfer. -/

namespace Sys2Proof

/-- The drive settings part is present whole or absent (12.6). -/
def partLength (b : Bytes) : Bool := b.length == 0 || b.length == 10

/-- A record that follows a used byte: present, or absent where the byte is not 1 (12.6). -/
def usedLength (n : Nat) (used : Byte) (b : Bytes) : Bool := b.length == n || (b.length == 0 && used != 1)

/-- The commands the outside world, or the part itself, can mean. -/
def Instr.wellFormed : Instr → Bool
  | .por | .pinReset | .softReset | .linkReset _ => true
  | .frameReceive b => b.ends || decide (0 < b.bytes.length)
  | .errorEntry b => decide (0 < b.bytes.length)
  | .unknownKind k _ b => !kindKnown k && decide (b.length ≤ 1018)
  | .malformed .error => true
  | .malformed (.frame k _ b) => kindKnown k && !bodyAllowed k b && decide (b.length ≤ 1018)
  | .replySend | .noticeSend => true
  | .identify _ | .resetProbe _ | .flagsQuery _ | .flagsEnable _ _ | .flagsClear _ _ => true
  | .runsetPut _ b => b.length == 12
  | .runsetGet _ _ | .arm _ | .start _ | .abort _ | .runQuery _ => true
  | .planPut _ _ used b => usedLength 36 used b
  | .planGet _ _ _ | .planWipe _ => true
  | .storeSet _ b => b.length == 6
  | .storeQuery _ | .fetch _ _ _ | .release _ _ | .trigger _ => true
  | .mark _ b => b.length == 16
  | .bankSet _ _ b => b.length == 16
  | .acquire _ _ | .bankQuery _ _ => true
  | .chanSet _ _ b => b.length == 7
  | .chanQuery _ => true
  | .rateSet _ _ b => b.length == 14
  | .rateQuery _ _ => true
  | .codeSet _ b => b.length == 10
  | .codeHistory _ option => option != 1
  | .codeHistoryClear _ => true
  | .consSet _ _ b => b.length == 5
  | .consSend _ _ b => decide (b.length ≤ 255)
  | .consQuery _ _ => true
  | .matchSet _ _ b => b.length == 36
  | .matchQuery _ _ => true
  | .driveSetNone _ _ op b => decide (4 < op.toNat) && partLength b
  | .driveSetRelease _ _ b | .driveSetLow _ _ b | .driveSetHigh _ _ b => partLength b
  | .driveSetStartPulse _ _ b | .driveSetStopPulse _ _ b => partLength b
  | .driveQuery _ _ | .permitSet _ _ | .permitLock _ => true
  | .scanConfig _ b => b.length == 4
  | .templatePut _ _ used b => usedLength 196 used b
  | .templateGet _ _ _ => true
  | .scanSubmit _ _ b => b.length == 196
  | .scanCancel _ _ | .scanResult _ _ _ | .scanQuery _ => true
  | .armTimeout | .limitExpiry | .endRequest | .eventDelivery _ | .decisionTime | .recordTake _ => true
  | .intervalStart _ | .acquisitionEnd _ | .rawInputChange _ _ | .transitionAccepted _ | .blankingEnd _ => true
  | .tachFallingEdge _ | .stallExpiry _ | .gateEnd _ | .strobeEdge | .strobeBlankingEnd | .foldTimerExpiry => true
  | .waitIdleExpiry _ | .startEdge _ | .startBitGlitch _ | .byteArrival _ | .heldFrameTaken _ | .breakSeen _ => true
  | .waitHighRecovery _ | .idleGapExpiry _ _ | .byteSendTime _ | .byteSent _ => true
  | .generatorActiveLevel _ | .periodEnd _ | .operationEnd => true

end Sys2Proof
end

