-- ==== Sys2Proof/Certificates/Slice0/Obligations.lean ====
section
/-! DEFINITION. The statements about the HB-420, family by family. Each names in its docstring the rules of spec/ it rests
on. `s.mp.canTake c = true` says that the MP can take the request of command `c` now (R134); `answered` is the state after
it with the reply built. A clause that gives `exec c s` as one `.next` of an explicit state says with it that every other
field keeps its value. -/

open Sys2Proof Sys2Proof.Machine

/-! ## The machine and its queue -/

/-- A step takes the command at the front of the queue and is exec of it on the state with the rest of the queue. -/
def Obligations.StepRunsFrontCommand : Prop :=
  ∀ (s : State) (c : Instr) (rest : List Instr), s.pending = c :: rest → step s = exec c { s with pending := rest }

/-- With no command waiting, a step is one of two (notes/assumptions/1.md: the model's choice of what an empty queue does).
With nothing ready it is one tick of the core clock (00_scope.md): the run time base rises in ARMED and RUNNING only (R4);
each acquisition in flight (R72, with a reference at a trial voltage sampled as the free value says:
notes/assumptions/37.md), each generator (R116) and each console receiver (R105) moves by one tick; at the tick of a rising
edge of TCK the TAP state moves and, in a Shift period, TDO is sampled (R123, R125); nothing else changes. That these
samples see the lines before a move at that tick is the model's choice (39.md). With something ready it puts one ready
command at the front of the queue, whatever the free choice `Config.choose` is (notes/assumptions/3.md), and changes nothing
else but the count of choices. What is ready is spelled in `State.isReady`, command by command. -/
def Obligations.IdleStepTicksOrTakesUp : Prop :=
  (∀ (s : State) (c : Instr), c ∈ s.ready ↔ s.isReady c) ∧
  ∀ s : State, s.pending = [] →
    (s.ready = [] → ∃ t, step s = .next t ∧
      t.clock = s.clock + 1 ∧
      t.rc = { s.rc with timeBase :=
        if s.rc.runState = .armed ∨ s.rc.runState = .running then s.rc.timeBase + 1 else s.rc.timeBase } ∧
      (∀ b : Fin 4, t.lau[b] = { s.lau[b] with
        acq := s.lau[b].acq.map fun a : Acq =>
          if a.s0 + 8 * (16 * a.factor + a.s1) ≤ a.elapsed then a
          else a.tick s.pins.ref[b] (Config.noise b s.choices s.clock) }) ∧
      (∀ p : Fin 2, t.cp[p] = s.cp[p].tick (s.clock + 1) (s.readRx p)) ∧
      (∀ c : Fin 8, t.dc[c] = s.dc[c].tick) ∧
      (s.sc.job = none → t.sc = s.sc) ∧
      (∀ a, s.sc.job = some a →
        let h := a.settings.divider
        let since := s.clock + 1 - a.opStart
        let i := since / (h * 2)
        let rising := since % (h * 2) = h ∧ i < a.current.periods
        (¬rising → t.sc = s.sc) ∧
        (rising → t.sc = { s.sc with
          tap := tapEdge s.sc.tap a.current i
          job := some { a with bits := if a.current.shiftBit i = none then a.bits
            else a.bits ++ [decide (s.lau[(3 : Fin 4)].threshold * 14 < s.pins.tdo)] } })) ∧
      t.pending = [] ∧ t.choices = s.choices ∧ t.pins = s.pins ∧ t.mp = s.mp ∧ t.fu = s.fu ∧ t.ste = s.ste ∧
      t.ts = s.ts ∧ t.mc = s.mc ∧ t.rm = s.rm ∧ t.cdp = s.cdp ∧ t.tm = s.tm ∧ t.permitMask = s.permitMask ∧
      t.permitLock = s.permitLock) ∧
    (s.ready ≠ [] → ∃ c n, c ∈ s.ready ∧ step s = .next { s with pending := [c], choices := n })

/-- Every command has a next state in every state: none stops the part. It never touches the queue of waiting commands, only
a reset moves the core clock, and only an ABORT, LIMIT_EXPIRY or END_REQUEST makes a free choice, one. That a command out of
its moment answers the state unchanged, rather than not at all, is the model's choice (notes/assumptions/4.md). -/
def Obligations.CommandsAnswerAndLeaveQueue : Prop :=
  ∀ (c : Instr) (s : State), ∃ t, exec c s = .next t ∧ t.pending = s.pending ∧
    (t.choices = s.choices ∨
      (t.choices = s.choices + 1 ∧ (c = .limitExpiry ∨ c = .endRequest ∨ ∃ tag, c = .abort tag))) ∧
    ((c ≠ .por ∧ c ≠ .pinReset ∧ c ≠ .softReset) → t.clock = s.clock)

/-! ## Frames (R133, R134) -/

/-- The frame of every well-formed request, as its row's layout gives it, is taken as that request again (R133, 12.1,
12.6). That STORE_QUERY's body is empty is the model's choice (notes/assumptions/45.md). -/
def Obligations.RequestFramesRoundTrip : Prop :=
  ∀ (i : Instr) (e : Entry), i.wellFormed = true → i.entry = some e → e.command = i

/-- FRAME_RECEIVE (R133, R134): with at most two entries waiting, a frame of body `b` joins the queue when its bytes have
arrived, whatever its status byte, in one part or in two; its first part stays in reception until then. The bytes of one
command are taken one after another, so the byte that follows a frame begins the next one. The first byte of a frame claims
an entry: with three waiting it is taken, and no byte after it until the head entry has left the queue. With the four
entries held no byte is taken. A transfer ends where `ends` says so. That a command whose bytes cannot all be taken is held
off whole is the model's choice (notes/assumptions/10.md), and so is that a detached part takes none (11.md). -/
def Obligations.FramesEnterTheQueue : Prop :=
  (∀ (s : State) (kind tag status : Byte) (b xs ys : Bytes) (ends : Bool), s.mp.attached = true → s.mp.reception = [] →
    s.mp.transfer ≠ .discarding → s.mp.queue.length < 3 → b.length ≤ 1018 →
    let at_ := fun ends : Bool => if ends then Transfer.between else .unframing
    let whole := fun ends => { s with mp := { s.mp with
      queue := s.mp.queue ++ [.frame kind tag b], transfer := at_ ends } }
    exec (.frameReceive ⟨frameBytes kind tag status b, ends⟩) s = .next (whole ends) ∧
      (xs ≠ [] → ys ≠ [] → xs ++ ys = frameBytes kind tag status b → ∀ last : Bool,
        let part := { s with mp := { s.mp with reception := xs, transfer := at_ ends } }
        exec (.frameReceive ⟨xs, ends⟩) s = .next part ∧ exec (.frameReceive ⟨ys, last⟩) part = .next (whole last))) ∧
  (∀ (s : State) (xs ys : Bytes) (ends : Bool) (t : State), Mp.receive (xs ++ ys) s.mp ≠ none →
    exec (.frameReceive ⟨xs, false⟩) s = .next t →
    exec (.frameReceive ⟨xs ++ ys, ends⟩) s = exec (.frameReceive ⟨ys, ends⟩) t) ∧
  (∀ (s : State) (kind tag status : Byte) (b ys : Bytes) (last : Bool), s.mp.attached = true → s.mp.reception ≠ [] →
    s.mp.transfer ≠ .discarding → s.mp.queue.length < 3 → b.length ≤ 1018 → ys ≠ [] →
    s.mp.reception ++ ys = frameBytes kind tag status b →
    exec (.frameReceive ⟨ys, last⟩) s = .next { s with mp := { s.mp with
      queue := s.mp.queue ++ [.frame kind tag b], reception := []
      transfer := if last then .between else .unframing } }) ∧
  (∀ (s : State) (x : Byte) (ends : Bool), s.mp.attached = true → s.mp.reception = [] → s.mp.transfer ≠ .discarding →
    s.mp.queue.length < 4 →
    exec (.frameReceive ⟨[x], ends⟩) s = .next { s with mp := { s.mp with
      reception := [x], transfer := if ends then .between else .unframing } }) ∧
  ∀ (s : State) (b : OutBytes), b.bytes ≠ [] →
    s.mp.attached = false ∨ 4 ≤ s.mp.queue.length ∨ (s.mp.reception ≠ [] ∧ 3 ≤ s.mp.queue.length) ∨
      (2 ≤ b.bytes.length ∧ s.mp.transfer ≠ .discarding ∧ 3 ≤ s.mp.queue.length) →
    exec (.frameReceive b) s = .next s

/-- ERROR_ENTRY, UNKNOWN_KIND and MALFORMED (R133, R134): bytes that bring a length field below 6 or above 1,024 queue
an ERROR entry in place of the frame, and what follows them in their USB transfer is discarded, up to the transfer's end;
FRAME_RECEIVE does the same with such bytes. The MP answers an ERROR entry with kind ERROR, tag 0 and MALFORMED, a frame of
unknown kind with kind ERROR, its tag and UNKNOWN, and a frame of wrong body length with its own kind and tag and
MALFORMED. With the four entries held ERROR_ENTRY does nothing; nor does it for bytes that bring no bad length, which is the
model's (notes/assumptions/10.md). That STORE_QUERY allows no body but the empty one is its choice too (45.md). -/
def Obligations.BadFramesAreAnswered : Prop :=
  (∀ (s : State) (b : OutBytes), s.mp.attached = true → s.mp.reception = [] → s.mp.queue.length < 3 →
    2 ≤ b.bytes.length → s.mp.transfer ≠ .discarding → (field b.bytes 0 2 < 6 ∨ 1024 < field b.bytes 0 2) →
    let broken := { s with mp := { s.mp with
      queue := s.mp.queue ++ [.error], transfer := if b.ends then .between else .discarding } }
    exec (.errorEntry b) s = .next broken ∧ exec (.frameReceive b) s = .next broken) ∧
  (∀ (s : State) (b : OutBytes), s.mp.attached = true → s.mp.reception = [] → s.mp.queue.length < 4 →
    s.mp.transfer = .discarding →
    exec (.frameReceive b) s = .next { s with mp := { s.mp with
      transfer := if b.ends then .between else .discarding } } ∧
    exec (.errorEntry b) s = .next s) ∧
  (∀ (s : State) (b : OutBytes), b.bytes ≠ [] →
    4 ≤ s.mp.queue.length ∨ (s.mp.reception ≠ [] ∧ 3 ≤ s.mp.queue.length) → exec (.errorEntry b) s = .next s) ∧
  (∀ (s : State) (x y : Byte) (ends : Bool), s.mp.attached = true → s.mp.transfer ≠ .discarding →
    s.mp.queue.length < 3 → s.mp.reception = [x] → (field [x, y] 0 2 < 6 ∨ 1024 < field [x, y] 0 2) →
    exec (.errorEntry ⟨[y], ends⟩) s = .next { s with mp := { s.mp with
      queue := s.mp.queue ++ [.error], reception := [], transfer := if ends then .between else .discarding } }) ∧
  (∀ (s t : State) (b : OutBytes), exec (.errorEntry b) s = .next t →
    t = s ∨ (t = { s with mp := t.mp } ∧ t.mp.queue.getLast? = some .error)) ∧
  ∀ (s : State) (kind tag : Byte) (b : Bytes),
    (kindKnown kind = false → s.mp.canTake (.unknownKind kind tag b) = true →
      exec (.unknownKind kind tag b) s = .next (s.answered 0x81 tag .unknown [])) ∧
    (kindKnown kind = true → bodyAllowed kind b = false → s.mp.canTake (.malformed (.frame kind tag b)) = true →
      exec (.malformed (.frame kind tag b)) s = .next (s.answered kind tag .malformed [])) ∧
    (s.mp.canTake (.malformed .error) = true →
      exec (.malformed .error) s = .next (s.answered 0x81 0 .malformed []))

/-- One request at a time (R134): while a request is in hand, a reply waits or a soft reset is due, and while another
entry is at the head of the queue, a request changes nothing. That the command then changes nothing, and that with an
empty queue it would bring its request with it, is the model's choice (notes/assumptions/2.md). -/
def Obligations.RequestsWaitTheirTurn : Prop :=
  ∀ (i : Instr) (e : Entry) (s : State), i.entry = some e →
    (s.mp.busy = true ∨ ∃ e' q, s.mp.queue = e' :: q ∧ e'.command ≠ i) → exec i s = .next s

/-- REPLY_SEND and NOTICE_SEND (R134, R137, R138): the reply is written whole, and RESET_PROBE's makes the soft reset due; a
waiting notice is sent when no reply is in progress, or ahead of one that became ready together with it, with the flags that
are set and enabled, and the slot becomes empty; else NOTICE_SEND does nothing. What becomes ready together is the model's
reading of R137 (notes/assumptions/47.md). That a frame is written in one step, and that the last one is held, is the
model's (notes/assumptions/11.md). -/
def Obligations.RepliesAndNoticesAreSent : Prop :=
  (∀ (s : State) (r : Reply), s.mp.attached = true → s.mp.reply = some r →
    exec .replySend s = .next { s with mp := { s.mp with
      reply := none
      together := false
      lastSent := some (frameBytes r.kind r.tag r.status.code r.body)
      resetDue := s.mp.resetDue || s.mp.probeSent
      probeSent := false } }) ∧
  (∀ s : State, s.mp.attached = true → (s.mp.reply = none ∨ s.mp.together = true) → s.fu.slot ≠ 0 →
    exec .noticeSend s = .next { s with
      mp := { s.mp with
        together := false
        lastSent := some (frameBytes 0x80 0 0 (le 2 (s.fu.flags &&& s.fu.enables).toNat)) }
      fu := { s.fu with slot := 0 } }) ∧
  ∀ s : State, s.mp.attached = false ∨ s.fu.slot = 0 ∨ (s.mp.reply ≠ none ∧ s.mp.together = false) →
    exec .noticeSend s = .next s

/-- IDENTIFY and RESET_PROBE (R135, R138): IDENTIFY answers vendor 0x5544, part 0x0420, revision 1 and the capacities
and changes nothing; RESET_PROBE is answered OK, and its reply is the one the soft reset waits for. -/
def Obligations.PortRequestsAnswer : Prop :=
  ∀ (s : State) (tag : Byte),
    (s.mp.canTake (.identify tag) = true → exec (.identify tag) s = .next (s.answered 0x01 tag .ok
      (le 2 0x5544 ++ le 2 0x0420 ++ [1] ++ le 2 32768 ++ [64, 8, 8, 16]))) ∧
    (s.mp.canTake (.resetProbe tag) = true → exec (.resetProbe tag) s =
      .next ({ s with mp := { s.mp with probeSent := true } }.answered 0x02 tag .ok []))

/-! ## Resets (R138 and the reset rule of every chapter) -/

/-- POR, PIN_RESET, SOFT_RESET and LINK_RESET: a POR and a pin reset give every block its reset value; a soft reset that is
due does so too but keeps the permit mask and its lock (R121) and the attachment, and the rest of the USB transfer in
progress is discarded; a link reset empties the request queue, the reception, the reply and the notice slot, ends the
transfer, and leaves every other block (R138). Three of its clauses R138 does not state and are the model's
(notes/assumptions/9.md): a soft reset already due stays due, by choice; a RESET_PROBE whose reply is cut off brings no soft
reset, and a MARK record that waits stays but is awaited by no request any more, by inference. What the outside world holds
(the pins, the commands waiting), the count of choices and the frame last sent, which a POR and a pin reset clear, are the
model's own (1.md, 3.md, 5.md, 11.md), and so is the mark of what became ready together, cleared with the reply (47.md). The
model's too is that PIN_RESET takes no time and leaves the part attached, as a POR does (7.md), that a LINK_RESET without
detach attaches a detached part again (11.md), and that no USB transfer is in progress after a POR (29.md). -/
def Obligations.ResetsAct : Prop :=
  ∀ s : State,
    exec .por s = .next { State.reset with pending := s.pending, pins := s.pins, choices := s.choices } ∧
    exec .pinReset s = .next { State.reset with pending := s.pending, pins := s.pins, choices := s.choices } ∧
    (s.mp.resetDue = true → exec .softReset s = .next { State.reset with
      pending := s.pending, pins := s.pins, choices := s.choices, permitMask := s.permitMask, permitLock := s.permitLock,
      mp := { State.reset.mp with
        lastSent := s.mp.lastSent, attached := s.mp.attached
        transfer := if s.mp.transfer = .between then .between else .discarding } }) ∧
    (s.mp.resetDue = false → exec .softReset s = .next s) ∧
    (∀ detach, exec (.linkReset detach) s = .next { s with
      mp := { s.mp with queue := [], reception := [], transfer := .between, inHand := none, reply := none,
                        together := false, probeSent := false, attached := !detach }
      fu := { s.fu with slot := 0 }
      ts := { s.ts with input := s.ts.input.map fun w : Waiting => { w with awaited := false } } })

/-- The state after reset, as the chapters give it (R18, R19, R50, R70, R81, R88, R95, R103, R111, R114, R122, R132,
R138). That no USB transfer is in progress is the model's reading of R138 (notes/assumptions/29.md). -/
def Obligations.ResetValues : Prop :=
  let s := State.reset
  (s.rc.runState = .idle ∧ s.rc.timeBase = 0 ∧ s.rc.startTime = none ∧ s.rc.cause = none ∧ s.rc.verdict = none ∧
    s.rc.firstFail = none ∧ s.rc.staged = s.rc.active ∧
    s.rc.staged = { source := .station, fromTrigger := false, armTimeout := 60000, limit := 600000 }) ∧
  (∀ k : Fin 64, s.ste.staged[k] = none ∧ s.ste.active[k] = none ∧ s.ste.evals[k] = none) ∧
  (s.ste.lookback = [] ∧ s.ste.evictionMark = none) ∧
  (s.ts.records = [] ∧ s.ts.occupancy = 0 ∧ s.ts.nextSeq = 0 ∧ s.ts.state = .off ∧ s.ts.fired = false ∧ s.ts.post = 0 ∧
    s.ts.lost = 0 ∧ s.ts.totalLost = 0 ∧ s.ts.gapStart = none ∧
    s.ts.staged = { mode := .stop, quota := 16384, watermark := 24576 } ∧ s.ts.active = s.ts.staged) ∧
  (∀ b : Fin 4, s.lau[b].threshold = 64 ∧ s.lau[b].present = false ∧ s.lau[b].lastCode = 0 ∧
    s.lau[b].acq.map Acq.kind = some .track ∧
    s.lau[b].settings = { track := true, interval := 1000, s0 := 200, s1 := 50, factor := 4, up := 50, down := 36,
                          traceAll := false, fixedThreshold := 64, fixedPresent := false }) ∧
  (∀ c : Fin 24, s.mc[c].level = false ∧ s.mc[c].pending = none ∧ s.mc[c].blanking = none ∧
    s.mc[c].settings = { enabled := false, debounce := 0, traceRising := false, traceFalling := false }) ∧
  (∀ m : Fin 4, s.rm[m].state = .off ∧ s.rm[m].reading = 0 ∧ s.rm[m].candidate = none ∧ s.rm[m].agreement = 0 ∧
    s.rm[m].settings = { enabled := false, mode := .tach, channel := 0, ppr := 2, lowRpm := 1000, highRpm := 20000,
                         stall := 1000, expected := 25000, tolerance := 250 }) ∧
  (s.cdp.settings = { enabled := false, strobe := .rising, foldWindow := 100, ignoreList := [], trace := true } ∧
    s.cdp.history = [] ∧ s.cdp.pending = none ∧ s.cdp.foldFrom = none ∧ s.cdp.blanking = none ∧
    s.cdp.reference = none) ∧
  (∀ p : Fin 2, s.cp[p].settings = { enabled := false, baud := 4, format := .f8N1, idleGap := 20, echo := false } ∧
    s.cp[p].queue = [] ∧ s.cp[p].inFlight = none ∧ s.cp[p].rxFragment = none ∧ s.cp[p].txFragment = none ∧
    s.cp[p].discards = 0) ∧
  (∀ m : Fin 8, s.tm[m].settings = { enabled := false, port := 0, caseInsensitive := false, pattern := [] } ∧
    s.tm[m].progress = 0) ∧
  (∀ c : Fin 8, s.dc[c].mode = .released ∧ s.dc[c].running = false ∧ s.dc[c].counter = 0 ∧ s.dc[c].openDrain = false ∧
    s.dc[c].activeHigh = false ∧ s.dc[c].railGated = true ∧ s.dc[c].active = s.dc[c].buffered ∧
    s.dc[c].buffered = { prescaler := 0, a := 1, b := 2, rep := false }) ∧
  (s.permitMask = 0 ∧ s.permitLock = false) ∧
  (s.sc.settings = { divider := 10, irCheck := false, trst := false } ∧ s.sc.tap = none ∧ s.sc.queue = [] ∧
    s.sc.job = none ∧ s.sc.results = []) ∧
  (∀ t : Fin 8, s.sc.staged[t] = none ∧ s.sc.active[t] = none) ∧
  (s.mp.queue = [] ∧ s.mp.reception = [] ∧ s.mp.transfer = .between ∧ s.mp.inHand = none ∧ s.mp.reply = none) ∧
  (s.fu.flags = 0 ∧ s.fu.enables = 0 ∧ s.fu.slot = 0)

/-! ## Invariants -/

/-- The state after reset meets every invariant that is stated below as kept by each step. -/
def Obligations.InvariantsHoldAtReset : Prop :=
  State.reset.fu.Sound ∧ State.reset.StoreSound ∧ State.reset.Fits ∧ State.reset.DrivesSafe ∧ State.reset.sc.restsIdle

/-- The notice slot (R137): every flag of the waiting notice is set and enabled, and each step keeps it so. -/
def Obligations.StepKeepsNoticeSlot : Prop :=
  ∀ s t : State, s.fu.Sound → step s = .next t → t.fu.Sound

/-- The store (R51, R53, R64, R68, R107). The occupancy is the sum of the sizes of the retained records and never above
32,768 units, and at most 32,765 while records may still come, so that RUN ENDED fits; the sequence numbers form one
unbroken ascending range that ends below the next one; in WINDOW an accepted TRIG record stays retained, with P the units
after it, below Q, until a GAP goes ahead of RUN ENDED; one waiting record is awaited for the MARK request in hand, and none
without one, also after a link reset (the model's inference: notes/assumptions/9.md). Each step keeps it so. That a fragment
holds 1 to 55 bytes, no waiting record is above 9 units and RUN ENDED waits behind every other is part of the invariant that
each step keeps. -/
def Obligations.StepKeepsStore : Prop :=
  ∀ s t : State, s.StoreSound → step s = .next t → t.StoreSound

/-- Capacities (R33, R98, R99, R107, R108, R112, R127, R131, R134): no step makes the request queue, the look-back list, the
code history, the scan queue, the scan results, a transmit queue or an open fragment outgrow its room; each code history
entry and an open CODE record, which only a run has, count from 1 to 65,535; a matcher's progress stays below the length of
its pattern. -/
def Obligations.StepKeepsCapacities : Prop :=
  ∀ s t : State, s.Fits → step s = .next t → t.Fits

/-- The drive channels (R120, R121): no step lets a rail-gated channel drive on an ABSENT rail, or a channel outside the
permit mask drive at all; with the permit check of R28 and the freeze of R29 as the part of the invariant that covers the
steps of the active plan, and with a generator running in PULSE mode only, and its level inactive and its counter 0 while it
does not run (R115, R116, R117), as the part that covers the ends of periods. -/
def Obligations.StepKeepsDrivesSafe : Prop :=
  ∀ s t : State, s.DrivesSafe → step s = .next t → t.DrivesSafe

/-- The TAP state (R124): between jobs it is Run-Test/Idle or UNKNOWN, and each step keeps it so. -/
def Obligations.StepKeepsTapAtRest : Prop :=
  ∀ s t : State, s.sc.restsIdle → step s = .next t → t.sc.restsIdle

/-- Terminal steps (R30): a step in a terminal state keeps that state and its evaluation record through every command
but an ARM and the resets. -/
def Obligations.TerminalStepsStay : Prop :=
  ∀ (c : Instr) (s t : State) (k : Fin 64) (v : StepEval),
    (∀ tag, c ≠ .arm tag) → c ≠ .por → c ≠ .pinReset → c ≠ .softReset → exec c s = .next t →
    s.ste.evals[k] = some v → v.state.terminal = true → t.ste.evals[k] = some v

/-! ## Flags (R136, R137) -/

/-- The Flag Unit (R136, R137). Raising a flag: the flag becomes 1 whatever its enable and no other changes; it joins the
notice slot where it was 0 and is enabled; nothing else changes. FLAGS_QUERY reports; FLAGS_ENABLE replaces the enables, and
in the slot a set flag newly enabled joins and a flag disabled leaves; FLAGS_CLEAR clears the flags of the mask, which leave
the slot. A mask with bit 15 set is refused with RANGE. That a notice placed by a request becomes ready together with its
reply is the model's reading (notes/assumptions/47.md). -/
def Obligations.FlagsAndNotices : Prop :=
  (∀ (s : State) (f : Flag) (n : Nat), n < 15 →
    (s.raise f).fu.flags.getLsbD n = (s.fu.flags.getLsbD n || decide (n = f.number)) ∧
    (s.raise f).fu.slot.getLsbD n =
      (s.fu.slot.getLsbD n || (decide (n = f.number) && !s.fu.flags.getLsbD n && s.fu.enables.getLsbD n)) ∧
    s.raise f = { s with fu := { (s.raise f).fu with enables := s.fu.enables } }) ∧
  ∀ (s : State) (tag : Byte) (mask : BitVec 16),
    (s.mp.canTake (.flagsQuery tag) = true → exec (.flagsQuery tag) s = .next (s.answered 0x03 tag .ok
      (le 2 s.fu.flags.toNat ++ le 2 s.fu.enables.toNat ++ [if s.fu.slot = 0 then 0 else 1]))) ∧
    (s.mp.canTake (.flagsEnable tag mask) = true → mask.getLsbD 15 = false →
      exec (.flagsEnable tag mask) s = .next ({ s with fu :=
        { flags := s.fu.flags, enables := mask.truncate 15
          slot := (s.fu.slot ||| (mask.truncate 15 &&& ~~~s.fu.enables &&& s.fu.flags)) &&& mask.truncate 15 } }.answeredFrom
            s 0x04 tag .ok (le 2 mask.toNat))) ∧
    (s.mp.canTake (.flagsClear tag mask) = true → mask.getLsbD 15 = false →
      exec (.flagsClear tag mask) s = .next ({ s with fu :=
        { flags := s.fu.flags &&& ~~~mask.truncate 15, enables := s.fu.enables
          slot := s.fu.slot &&& ~~~mask.truncate 15 } }.answered
            0x05 tag .ok (le 2 (s.fu.flags &&& ~~~mask.truncate 15).toNat))) ∧
    (mask.getLsbD 15 = true →
      (s.mp.canTake (.flagsEnable tag mask) = true →
        exec (.flagsEnable tag mask) s = .next (s.answered 0x04 tag .range [])) ∧
      (s.mp.canTake (.flagsClear tag mask) = true →
        exec (.flagsClear tag mask) s = .next (s.answered 0x05 tag .range [])))

/-! ## Settings records -/

/-- The settings records (12.6): what the part sends for a record with every field in its range, it reads back as that
record. The value of every field matters, so no bit of a layout is dropped. -/
def Obligations.SettingsReadBack : Prop :=
  (∀ r : RunSettings, 1 ≤ r.armTimeout → r.armTimeout ≤ 5000000 → 1 ≤ r.limit → r.limit ≤ 5000000 →
    RunSettings.dec r.enc = some r) ∧
  (∀ r : StoreSettings, 16 ≤ r.quota → r.quota ≤ 32000 → r.watermark ≤ 32768 → StoreSettings.dec r.enc = some r) ∧
  (∀ r : BankSettings, 100 ≤ r.interval → r.interval ≤ 1000000 → 1 ≤ r.s0 → r.s0 ≤ 32767 → 1 ≤ r.s1 → r.s1 ≤ 32767 →
    1 ≤ r.factor → r.factor ≤ 64 → r.down < r.up → r.up ≤ 255 → r.fixedThreshold ≤ 255 →
    BankSettings.dec r.enc = some r) ∧
  (∀ r : ChanSettings, r.debounce ≤ 65535 → ChanSettings.dec r.enc = some r) ∧
  (∀ r : RateSettings, 1 ≤ r.ppr → r.ppr ≤ 4 → r.lowRpm ≤ r.highRpm → r.highRpm ≤ 65535 → 100 ≤ r.stall →
    r.stall ≤ 5000 → 1 ≤ r.expected → r.expected ≤ 50000 → r.tolerance ≤ 50000 → RateSettings.dec r.enc = some r) ∧
  (∀ r : CodeSettings, r.foldWindow ≤ 60000 → r.ignoreList.length ≤ 4 → CodeSettings.dec r.enc = some r) ∧
  (∀ r : ConsSettings, 1 ≤ r.idleGap → r.idleGap ≤ 255 → ConsSettings.dec r.enc = some r) ∧
  (∀ r : MatchSettings, 1 ≤ r.pattern.length → r.pattern.length ≤ 32 → MatchSettings.dec r.enc = some r) ∧
  (∀ r : DrivePart, r.values.prescaler ≤ 14 → 1 ≤ r.values.a → r.values.a ≤ 65535 → 1 ≤ r.values.b →
    r.values.b ≤ 65535 → DrivePart.dec r.enc = some r) ∧
  (∀ r : ScanSettings, 2 ≤ r.divider → r.divider ≤ 1000 → ScanSettings.dec r.enc = some r)

/-- The step entry (12.6, R24): an entry whose condition and windows lie in the values R22 and R24 allow, with up to four
actions, is read back from its 36 bytes as that entry. -/
def Obligations.StepEntriesReadBack : Prop :=
  ∀ e : StepEntry, e.windowMin ≤ 4000000000 → e.windowMax ≤ 4000000000 → e.count ≤ 255 → e.actions.length ≤ 4 →
    (∀ v m, e.cond = .code v m ∨ e.cond = .lastCode v m → v &&& ~~~m = 0) →
    (∀ m st, e.cond = .rate m st → st ≠ .off) →
    (∀ t o, e.cond = .scan t o → o = .match_ ∨ o = .mismatch ∨ o = .fault) →
    e.enc.length = 36 ∧ StepEntry.dec e.enc = some e

/-- The job body (12.6, R126): a body of 1 to 8 operations whose lengths, out values, total and compare lie in the values
R126 allows is read back from its 196 bytes as that body. -/
def Obligations.JobBodiesReadBack : Prop :=
  ∀ j : JobBody, 1 ≤ j.ops.length → j.ops.length ≤ 8 → (j.ops.map ScanOp.bits).sum ≤ 512 →
    (∀ n out, ScanOp.irScan n out ∈ j.ops → 1 ≤ n ∧ n ≤ 64 ∧ out.toNat < 2 ^ n) →
    (∀ n out, ScanOp.drScan n out ∈ j.ops → 1 ≤ n ∧ n ≤ 128 ∧ out.toNat < 2 ^ n) →
    (∀ m, ScanOp.idle m ∈ j.ops → 1 ≤ m ∧ m ≤ 65535) →
    (∀ c, j.compare = some c → ∃ n, lastDrLength j.ops = some n ∧ c.mask.toNat < 2 ^ n) →
    j.enc.length = 196 ∧ JobBody.dec j.enc = some j

/-- Record layouts (R54, 12.2, 12.4, 12.5), of a text of 1 to 56 bytes and a label of at most 16: the bytes are 8 times the
size in units; the header holds kind, source, size, flags, the sequence number at byte 4, the timestamp at byte 10 and aux at
byte 15; from byte 16 on stand the fields of the kind, and 0 beside them. Every number of the enumerations is given. -/
def Obligations.RecordsFillTheirUnits : Prop :=
  ([StartSource.station, .edge 5 .rising, .edge 6 .falling, .railUp 3].map StartSource.enc =
      [[0, 0, 0], [1, 5, 0], [1, 6, 1], [2, 3, 0]] ∧
    [EndCause.allResolved, .limit, .endAction, .stopOnFail, .abort, .armTimeout].map EndCause.code = [0, 1, 2, 3, 4, 5] ∧
    [Verdict.pass, .fail, .notStarted, .aborted].map Verdict.code = [0, 1, 2, 3] ∧
    [StepState.pending, .opened, .matched, .held, .early, .missed, .violated, .failed, .skipped, .cancelled].map
      StepState.code = [0, 1, 2, 3, 4, 5, 6, 7, 8, 9] ∧
    [RateState.off, .low, .ok, .high, .stall].map RateState.code = [0, 1, 2, 3, 4] ∧
    [RateMode.tach, .clock].map RateMode.code = [0, 1] ∧
    [DriveMode.released, .low, .high, .pulseRunning, .pulseIdle].map DriveMode.code = [0, 1, 2, 3, 4] ∧
    [DriveCause.station, .step, .rail, .oneShotDone].map DriveCause.code = [0, 1, 2, 3] ∧
    [ScanOutcome.match_, .mismatch, .done, .fault, .cancelled].map ScanOutcome.code = [0, 1, 2, 3, 4] ∧
    [none, some FaultReason.rail, some .irCheck, some .queueFull].map faultCode = [255, 1, 2, 3]) ∧
  ∀ r : Stored, r.seq < 2 ^ 48 → r.record.time < 2 ^ 40 →
    (∀ p d b err brk, r.record.body = .text p d b err brk → 1 ≤ b.length ∧ b.length ≤ 56) →
    (∀ st l, r.record.body = .mark st l → l.length ≤ 16) →
    let at_ := byteAt r.bytes
    let header := fun (kind : Byte) (units : Nat) (source flags aux : Byte) =>
      r.record.units = units ∧ r.bytes.length = 8 * units ∧ at_ 0 = kind ∧ at_ 1 = source ∧ (at_ 2).toNat = units ∧
        at_ 3 = flags ∧ field r.bytes 4 6 = r.seq ∧ field r.bytes 10 5 = r.record.time ∧ at_ 15 = aux
    let bits := fun b0 b1 b2 : Bool => byte ((if b0 then 1 else 0) + (if b1 then 2 else 0) + if b2 then 4 else 0)
    let start := fun src : StartSource => (r.bytes.drop 16).take 3 = src.enc
    let zeros := fun lo hi : Nat => ∀ i, lo ≤ i → i ≤ hi → at_ i = 0
    let none_ := fun lo hi : Nat => ∀ i, lo ≤ i → i ≤ hi → at_ i = 255
    match r.record.body with
    | .runArmed src => header 1 3 0 0 0 ∧ start src ∧ none_ 19 22 ∧ at_ 23 = 0
    | .runStarted src => header 1 3 0 0 1 ∧ start src ∧ none_ 19 22 ∧ at_ 23 = 0
    | .runEnded src cause v ff => header 1 3 0 0 2 ∧ start src ∧ at_ 19 = cause.code ∧ at_ 20 = v.code ∧
        (ff = none → none_ 21 22) ∧ (∀ k o, ff = some (k, o) → at_ 21 = byte k.val ∧ at_ 22 = o.code) ∧ at_ 23 = 0
    | .edge c level retimed => header 2 2 (byte c.val) (bits retimed false false) (if level then 1 else 0)
    | .level b code present change => header 3 2 (byte b.val) (bits change present false) code
    | .code code count last => header 4 3 0 0 code ∧ (count < 2 ^ 16 → field r.bytes 16 2 = count) ∧
        (last < 2 ^ 40 → field r.bytes 18 5 = last) ∧ at_ 23 = 0
    | .text p d b err brk =>
        header 5 (2 + (b.length + 7) / 8) (byte (2 * p.val + if d = .rx then 0 else 1)) (bits err brk false)
          (byte b.length) ∧ ∀ i, 16 + i < r.bytes.length → at_ (16 + i) = byteAt b i
    | .rate m st reading mode => header 6 3 (byte m.val) 0 st.code ∧
        (reading < 2 ^ 16 → field r.bytes 16 2 = reading) ∧ at_ 18 = mode.code ∧ zeros 19 23
    | .drive c mode cause => header 7 2 (byte c.val) cause.code mode.code
    | .step k outcome label count clipped lookback refused =>
        header 8 3 (byte k.val) (bits clipped lookback refused) outcome.code ∧ at_ 16 = label ∧ at_ 17 = byte count ∧
          zeros 18 23
    | .scan cls o reason inserted capture len =>
        header 9 5 (match cls with | .host tag => tag | .step n => byte n.val)
          (bits (match cls with | .host _ => false | .step _ => true) inserted false) o.code ∧
        at_ 16 = faultCode reason ∧ at_ 17 = byte len ∧ zeros 18 23 ∧ field r.bytes 24 16 = capture.toNat
    | .mark byStep label => header 10 4 (if byStep then 1 else 0) 0 0 ∧ ∀ i < 16, at_ (16 + i) = byteAt label i
    | .trig src => header 11 2 (match src with | .station => 0 | .start => 1 | .step _ => 2) 0
        (match src with | .step k => byte k.val | _ => 0)
    | .gap count => header 12 3 0 0 0 ∧ (count < 2 ^ 48 → field r.bytes 16 6 = count) ∧ zeros 22 23

/-! ## The run (chapter 1) -/

/-- The validation at ARM (R27, R28). It passes exactly the plans with a used step, each of whose used steps has an anchor
on a used step with a lower number, a source its kind allows, an ordered window, a count of at least 1 for AWAIT, enabled
sources and used templates, permitted channels, and END_RUN last; and with an EDGE start on an enabled channel. What it
reports: with no used step EMPTY; else the lowest-numbered used step that fails a check, with its first failing check in
the order ANCHOR, KIND, WINDOW, COUNT, SOURCE, DENIED, ORDER; else START. -/
def Obligations.ValidationAtArm : Prop :=
  (∀ s : State, s.validate = none ↔
    (∃ k : Fin 64, s.ste.staged[k] ≠ none) ∧
    (∀ c d, s.rc.staged.source = .edge c d → s.mc[c].settings.enabled = true) ∧
    ∀ (k : Fin 64) (e : StepEntry), s.ste.staged[k] = some e →
      (∀ j, e.anchor = .step j → j < k ∧ s.ste.staged[j] ≠ none) ∧
      (e.kind = .check ↔ e.cond.isEvent = false) ∧
      (e.kind ≠ .check → e.windowMin ≤ e.windowMax) ∧
      (e.kind = .await → 1 ≤ e.count) ∧
      (∀ c d, e.cond = .edge c d → s.mc[c].settings.enabled = true) ∧
      (∀ c l, e.cond = .level c l → s.mc[c].settings.enabled = true) ∧
      (∀ m st, e.cond = .rate m st ∨ e.cond = .rateState m st → s.rm[m].settings.enabled = true) ∧
      (∀ m, e.cond = .text m → s.tm[m].settings.enabled = true) ∧
      (∀ t o, e.cond = .scan t o → s.sc.staged[t] ≠ none) ∧
      (∀ v m, e.cond = .code v m ∨ e.cond = .lastCode v m → s.cdp.settings.enabled = true) ∧
      (∀ t, Action.scan t ∈ e.actions → s.sc.staged[t] ≠ none) ∧
      (∀ c op, Action.drive c op ∈ e.actions → s.permitMask.getLsbD c.val = true) ∧
      (∀ i, e.actions[i]? = some .endRun → i + 1 = e.actions.length)) ∧
  ∀ (s : State) (k : Option (Fin 64)) (r : Reason), s.validate = some (k, r) →
    match k with
    | none =>
      (r = .empty ∧ ∀ j : Fin 64, s.ste.staged[j] = none) ∨
      (r = .start ∧ (∃ j : Fin 64, s.ste.staged[j] ≠ none) ∧
        (∃ c d, s.rc.staged.source = .edge c d ∧ s.mc[c].settings.enabled = false) ∧
        ∀ (j : Fin 64) (e : StepEntry), s.ste.staged[j] = some e → s.stepFault j e = none)
    | some k =>
      (∀ (j : Fin 64) (e : StepEntry), j < k → s.ste.staged[j] = some e → s.stepFault j e = none) ∧
      ∃ e, s.ste.staged[k] = some e ∧
        (r = .anchor ∨ anchorOk s.ste.staged k e = true) ∧
        (r = .anchor ∨ r = .kind ∨ e.kindOk = true) ∧
        (r = .anchor ∨ r = .kind ∨ r = .window ∨ e.windowOk = true) ∧
        (r = .anchor ∨ r = .kind ∨ r = .window ∨ r = .count ∨ e.countOk = true) ∧
        (r = .denied ∨ r = .order →
          s.condOk e.cond = true ∧ ∀ t, Action.scan t ∈ e.actions → s.sc.staged[t] ≠ none) ∧
        (r = .order → ∀ c op, Action.drive c op ∈ e.actions → s.permitMask.getLsbD c.val = true) ∧
        (match r with
          | .anchor => anchorOk s.ste.staged k e = false
          | .kind => e.kindOk = false
          | .window => e.windowOk = false
          | .count => e.countOk = false
          | .source => s.condOk e.cond = false ∨ ∃ t, Action.scan t ∈ e.actions ∧ s.sc.staged[t] = none
          | .denied => ∃ c op, Action.drive c op ∈ e.actions ∧ s.permitMask.getLsbD c.val = false
          | .order => e.orderOk = false
          | .empty | .start => False)

/-- ARM (R5, R6, R30, R58): accepted in IDLE or ENDED with a plan that passes, it copies the staged plan, settings and
templates, makes every used step PENDING, empties the store and the look-back list, clears the current-run marks,
starts the time base at 0, and hands over RUN ARMED; nothing else but the MP changes (so no drive channel, bank, code
history entry or flag). That ARM drops events and end requests not yet taken is the model's reading
(notes/assumptions/19.md). -/
def Obligations.ArmStartsARun : Prop :=
  ∀ (s : State) (tag : Byte), s.mp.canTake (.arm tag) = true → (s.rc.runState = .idle ∨ s.rc.runState = .ended) →
    s.validate = none →
    exec (.arm tag) s = .next ({ s with
      rc := { s.rc with
        runState := .armed, active := s.rc.staged, timeBase := 0, startTime := none, limitTime := none, cause := none,
        verdict := none, firstFail := none, endRequests := [] }
      ste := { s.ste with
        active := s.ste.staged
        evals := Vector.ofFn fun k => s.ste.staged[k].map fun _ =>
          { state := .pending, anchorTime := none, lo := none, hi := none, decision := none, counted := 0,
            clipped := false, lookback := false, refused := false, resolution := none }
        lookback := [], evictionMark := none, order := [], events := []
        pass := { resolved := false, endRun := false, stopFail := false } }
      ts := { s.ts with
        records := [], occupancy := 0, nextSeq := 0, state := .accepting, active := s.ts.staged, fired := false,
        trigSeq := none, post := 0, lost := 0, gapStart := none, totalLost := 0, admitted := false
        input := [{ record := { time := 0, body := .runArmed s.rc.staged.source }, source := .run, reached := s.clock,
                    endWork := false, awaited := false }] }
      sc := { s.sc with
        active := s.sc.staged
        queue := s.sc.queue.map fun (j : Job) => { j with current := false }
        job := s.sc.job.map fun (a : Active) => { a with job := { a.job with current := false } } } }.answered 0x12 tag .ok [])

/-- START (R8, R10): in ARMED with start source STATION the run starts at the time base now: RUNNING, T_s and the limit
time L set, RUN STARTED handed to the TS, RUN_START raised, and no step of the plan anchored to START left PENDING. With
trigger from start, a WINDOW store and the trigger READY it fires the trigger, with source START where no step's TRIGGER
action has fired it before; without them, and with no such action, the trigger stays. In every other case START is refused
with STATE and changes nothing. -/
def Obligations.StartStartsTheRun : Prop :=
  ∀ (s : State) (tag : Byte), s.mp.canTake (.start tag) = true →
    (s.rc.runState = .armed → s.rc.active.source = .station →
      ∃ t, exec (.start tag) s = .next t ∧ t.rc.runState = .running ∧ t.rc.startTime = some s.rc.timeBase ∧
        t.rc.limitTime = some (s.rc.timeBase + s.rc.active.limit * 100000) ∧ t.rc.timeBase = s.rc.timeBase ∧
        t.fu.flags.getLsbD 0 = true ∧
        (∃ w ∈ t.ts.input, w.record = { time := s.rc.timeBase, body := .runStarted .station }) ∧
        (∀ (k : Fin 64) (e : StepEntry) (v : StepEval), s.ste.active[k] = some e → e.anchor = .start →
          t.ste.evals[k] = some v → v.state ≠ .pending) ∧
        (s.rc.active.fromTrigger = true → s.ts.active.mode = .window → s.ts.fired = false → t.ts.fired = true ∧
          ∃ w ∈ t.ts.input, ∃ src, w.record = { time := s.rc.timeBase, body := .trig src } ∧
            (src = .start ∨ ∃ k e, src = .step k ∧ s.ste.active[k] = some e ∧ .trigger ∈ e.actions)) ∧
        (s.rc.active.fromTrigger = false ∨ s.ts.active.mode ≠ .window ∨ s.ts.fired = true →
          (∀ (k : Fin 64) (e : StepEntry), s.ste.active[k] = some e → .trigger ∉ e.actions) →
          t.ts.fired = s.ts.fired) ∧
        t.mp.reply = some { kind := 0x13, tag, status := .ok, body := [] }) ∧
    (s.rc.runState ≠ .armed ∨ s.rc.active.source ≠ .station →
      exec (.start tag) s = .next (s.answered 0x13 tag .state []))

/-- The end of a run (R12, R13, R14, R15, R16): an ABORT in ARMED or RUNNING, a limit expiry, and an end request taken in
RUNNING each end the run with their cause and the end work of R15, once the events handed over before have been delivered
(R84, R100, R112): that all of them are is the model's choice (notes/assumptions/34.md). That the end time is the time base
at the taking also where a late EDGE start has passed L is the model's too (notes/assumptions/12.md). That a step anchored
to a cancelled step is CANCELLED, as R15 and R45 say and R21 does not, is its choice as well (35.md). An end may be taken
with the last pass in hand, whose records after it, but STEP and MARK, are not accepted (R15, R32, R47): which pass that can
be is the model's choice, and where the end falls in it is a free value (48.md). Step 5 of R15 completes each waiting step
job CANCELLED (R129, R131). -/
def Obligations.EndsTakeEffect : Prop :=
  (∀ (s : State) (tag : Byte), s.mp.canTake (.abort tag) = true →
    (s.rc.runState = .armed ∨ s.rc.runState = .running) →
    ∃ u t, EndBegins (Config.choose s.choices) { s with mp := { s.mp with queue := s.mp.queue.tail } } u ∧
      exec (.abort tag) s = .next t ∧ RunEnded u t .abort ∧
      t.mp.reply = some { kind := 0x14, tag, status := .ok, body := [] }) ∧
  (∀ (s : State) (l : Nat), s.rc.runState = .running → s.rc.limitTime = some l → l ≤ s.rc.timeBase →
    ∃ u t, EndBegins (Config.choose s.choices) s u ∧ exec .limitExpiry s = .next t ∧ RunEnded u t .limit ∧ t.mp = s.mp) ∧
  (∀ (s : State) (cause : EndCause) (rest : List EndCause), s.rc.runState = .running →
    s.rc.endRequests = cause :: rest →
    ∃ u t, EndBegins (Config.choose s.choices) { s with rc := { s.rc with endRequests := rest } } u ∧
      exec .endRequest s = .next t ∧ RunEnded u t cause ∧ t.rc.endRequests = u.rc.endRequests)

/-- Refused run requests change nothing (R5, R13, R14, R27): ARM is refused with STATE in ARMED and RUNNING, and with
BAD_PLAN for a plan that does not pass, the body giving the step number, 255 for EMPTY and START, and the reason (12.3);
ABORT is refused with STATE in IDLE and ENDED; an end request taken outside RUNNING is dropped. -/
def Obligations.RefusedRunRequests : Prop :=
  ∀ (s : State) (tag : Byte),
    (s.mp.canTake (.arm tag) = true → (s.rc.runState = .armed ∨ s.rc.runState = .running) →
      exec (.arm tag) s = .next (s.answered 0x12 tag .state [])) ∧
    (∀ k r, s.mp.canTake (.arm tag) = true → (s.rc.runState = .idle ∨ s.rc.runState = .ended) →
      s.validate = some (k, r) →
      exec (.arm tag) s = .next (s.answered 0x12 tag .badPlan
        [(match k with | none => 255 | some k => BitVec.ofNat 8 k.val), r.code])) ∧
    (s.mp.canTake (.abort tag) = true → (s.rc.runState = .idle ∨ s.rc.runState = .ended) →
      exec (.abort tag) s = .next (s.answered 0x14 tag .state [])) ∧
    (∀ cause rest, s.rc.runState ≠ .running → s.rc.endRequests = cause :: rest →
      exec .endRequest s = .next { s with rc := { s.rc with endRequests := rest } })

/-- The arm timeout (R9, R11): when the time base reaches it while ARMED the events handed over before it are delivered
(notes/assumptions/34.md). Where none of them has started the run, it ends with cause ARM_TIMEOUT and verdict NOT_STARTED,
the end time is the arm timeout in ticks, T_s stays none and each PENDING step becomes CANCELLED, with the end work of R15;
where one has, the arm timeout has no more effect, as in RUNNING. That a step anchored to a cancelled step is CANCELLED, as
R15 and R45 say and R21 does not, is its choice as well (35.md). -/
def Obligations.ArmTimeoutEndsTheRun : Prop :=
  (∀ s : State, s.rc.runState = .armed → s.rc.timeBase = s.rc.active.armTimeout * 100000 → s.rc.startTime = none →
    ∃ u t, delivered s.ste.events.length s u ∧ exec .armTimeout s = .next t ∧
      (u.rc.runState ≠ .armed → t = u) ∧
      (u.rc.runState = .armed → RunEnded u t .armTimeout ∧ t.rc.verdict = some .notStarted ∧
        t.rc.timeBase = s.rc.active.armTimeout * 100000 ∧ t.rc.startTime = none ∧
        ∀ (k : Fin 64) (e : StepEntry) (v : StepEval), s.ste.active[k] = some e → s.ste.evals[k] = some v →
          v.state = .pending → t.ste.evals[k] = some { v with
            state := .cancelled, resolution := some (s.rc.active.armTimeout * 100000) })) ∧
  (∀ s : State, s.rc.runState = .armed → s.rc.timeBase < s.rc.active.armTimeout * 100000 →
    exec .armTimeout s = .next s) ∧
  (∀ s : State, s.rc.runState = .running → exec .armTimeout s = .next s)

/-- The first failing step (R16). Of a resolution order, under FAIL it is the required step that failed earliest, with its
outcome; under any other verdict none. An end of a run, whatever its cause, leaves it so in the RC: the order is that of the
resolutions (R46) with the steps cancelled last. That an end comes after the delivery of all the events handed over before
it is the model's choice (notes/assumptions/34.md), and so is that a step anchored to a cancelled one is CANCELLED (35.md),
and which pass may be in hand then (48.md). -/
def Obligations.FirstFailingStep : Prop :=
  (∀ (t : Ste) (v : Verdict) (k : Fin 64) (o : StepState),
    (t.firstFail v = some (k, o) →
      v = .fail ∧ t.failedStep k o ∧ ∃ before after, t.order = before ++ k :: after ∧
        ∀ j ∈ before, ∀ o', ¬ t.failedStep j o') ∧
    (v ≠ .fail → t.firstFail v = none) ∧
    (v = .fail → k ∈ t.order → t.failedStep k o → t.firstFail v ≠ none)) ∧
  (∀ (s : State) (l : Nat), s.rc.runState = .running → s.rc.limitTime = some l → l ≤ s.rc.timeBase →
    ∃ u t, EndBegins (Config.choose s.choices) s u ∧ exec .limitExpiry s = .next t ∧
      t.ste.order = u.ste.order ++ u.ste.unresolved ∧ (t.rc.verdict ≠ some .fail → t.rc.firstFail = none) ∧
      (t.rc.verdict = some .fail → ∀ (before after : List (Fin 64)) (k : Fin 64) (o : StepState),
        t.ste.order = before ++ k :: after → t.ste.failedStep k o → (∀ j ∈ before, ∀ o', ¬ t.ste.failedStep j o') →
        t.rc.firstFail = some (k, o))) ∧
  ∀ (s t : State) (why : EndCause), RunEnded s t why →
    (∀ v, t.rc.verdict = some v → v ≠ .fail → t.rc.firstFail = none) ∧
    (t.rc.verdict = some .fail → ∀ (before after : List (Fin 64)) (k : Fin 64) (o : StepState),
      t.ste.order = before ++ k :: after → t.ste.failedStep k o → (∀ j ∈ before, ∀ o', ¬ t.ste.failedStep j o') →
      t.rc.firstFail = some (k, o))

/-- RUN_QUERY (R17, 12.2, 12.3): 79 bytes: the run state, T_s, the time base, the end cause, the verdict, the first failing
step and the state of each entry of the active plan, in that order, by the numbers of 12.2; the query changes nothing. In
IDLE, as the resets leave it, the time base is 0, every entry UNUSED and the rest none. -/
def Obligations.RunQueryReports : Prop :=
  ∀ (s : State) (tag : Byte), s.mp.canTake (.runQuery tag) = true →
    let step : StepState → Byte := fun
      | .pending => 0 | .opened => 1 | .matched => 2 | .held => 3 | .early => 4 | .missed => 5 | .violated => 6
      | .failed => 7 | .skipped => 8 | .cancelled => 9
    ∃ b, exec (.runQuery tag) s = .next (s.answered 0x15 tag .ok b) ∧ b.length = 79 ∧
      byteAt b 0 = (match s.rc.runState with | .idle => 0 | .armed => 1 | .running => 2 | .ended => 3) ∧
      (∀ n, s.rc.startTime = some n → n < 2 ^ 40 → field b 1 5 = n) ∧
      (s.rc.startTime = none → field b 1 5 = 2 ^ 40 - 1) ∧
      (s.rc.timeBase < 2 ^ 40 → field b 6 5 = s.rc.timeBase) ∧
      byteAt b 11 = (match s.rc.cause with
        | none => 255 | some .allResolved => 0 | some .limit => 1 | some .endAction => 2 | some .stopOnFail => 3
        | some .abort => 4 | some .armTimeout => 5) ∧
      byteAt b 12 = (match s.rc.verdict with
        | none => 255 | some .pass => 0 | some .fail => 1 | some .notStarted => 2 | some .aborted => 3) ∧
      (∀ k o, s.rc.firstFail = some (k, o) → (byteAt b 13).toNat = k.val ∧ byteAt b 14 = step o) ∧
      (s.rc.firstFail = none → byteAt b 13 = 255 ∧ byteAt b 14 = 255) ∧
      (∀ k : Fin 64, byteAt b (15 + k.val) = (match s.ste.evals[k] with | none => 255 | some v => step v.state)) ∧
      (s.rc = State.reset.rc → s.ste = State.reset.ste →
        b = [0] ++ List.replicate 5 255 ++ List.replicate 5 0 ++ List.replicate 68 255)

/-! ## Staged records of the run (chapters 1 and 2) -/

/-- RUNSET_PUT and RUNSET_GET (R2, R3). A record with a legal start source is staged with its times clamped to
1..5,000,000 ms, in every run state and whether or not an EDGE channel is enabled, and echoed as applied; an unknown kind,
channel, bank or direction is refused with RANGE. RUNSET_GET returns the copy its parameter names. -/
def Obligations.RunSettingsArePutAndRead : Prop :=
  ∀ (s : State) (tag : Byte),
    (∀ (b : Bytes) (src : StartSource) (ft : Bool), b.length = 12 →
      (match src with
        | .station => byteAt b 0 = 0
        | .edge c d => byteAt b 0 = 1 ∧ (byteAt b 1).toNat = c.val ∧ byteAt b 2 = (if d = .rising then 0 else 1)
        | .railUp k => byteAt b 0 = 2 ∧ (byteAt b 1).toNat = k.val) →
      byteAt b 3 = (if ft then 1 else 0) → s.mp.canTake (.runsetPut tag b) = true →
      let r : RunSettings := { source := src, fromTrigger := ft, armTimeout := max 1 (min 5000000 (field b 4 4)),
                               limit := max 1 (min 5000000 (field b 8 4)) }
      exec (.runsetPut tag b) s = .next ({ s with rc := { s.rc with staged := r } }.answered 0x10 tag .ok r.enc)) ∧
    (∀ b : Bytes, b.length = 12 → s.mp.canTake (.runsetPut tag b) = true →
      (2 < (byteAt b 0).toNat ∨ (byteAt b 0 = 1 ∧ (24 ≤ (byteAt b 1).toNat ∨ 2 ≤ (byteAt b 2).toNat)) ∨
        (byteAt b 0 = 2 ∧ 4 ≤ (byteAt b 1).toNat)) →
      exec (.runsetPut tag b) s = .next (s.answered 0x10 tag .range [])) ∧
    (s.mp.canTake (.runsetGet tag 0) = true →
      exec (.runsetGet tag 0) s = .next (s.answered 0x11 tag .ok s.rc.staged.enc)) ∧
    (s.mp.canTake (.runsetGet tag 1) = true →
      exec (.runsetGet tag 1) s = .next (s.answered 0x11 tag .ok s.rc.active.enc)) ∧
    (∀ copy : Byte, 2 ≤ copy.toNat → s.mp.canTake (.runsetGet tag copy) = true →
      exec (.runsetGet tag copy) s = .next (s.answered 0x11 tag .range []))

/-- PLAN_PUT, PLAN_GET and PLAN_WIPE (R24, R25, R26), in every run state. A legal entry is stored as given, with no check
against other entries, and echoed; the mark "unused" empties the entry; every fault of R24's list is refused with RANGE and
nothing changes. PLAN_GET returns the entry of the copy named. Bytes that an entry does not use are not checked (12.6). That
those not marked 0 are not kept either, so that each reads back as 0, is the model's choice (notes/assumptions/25.md), and
so is that the bytes sent with the mark "unused" are not judged (36.md). PLAN_WIPE empties the staged plan and leaves the
active one. -/
def Obligations.PlanIsPutReadAndWiped : Prop :=
  ∀ (s : State) (tag : Byte),
    (∀ (k : Fin 64) (e : StepEntry), e.windowMin ≤ 4000000000 → e.windowMax ≤ 4000000000 → e.count ≤ 255 →
      e.actions.length ≤ 4 → (∀ v m, e.cond = .code v m ∨ e.cond = .lastCode v m → v &&& ~~~m = 0) →
      (∀ m st, e.cond = .rate m st → st ≠ .off) →
      (∀ t o, e.cond = .scan t o → o = .match_ ∨ o = .mismatch ∨ o = .fault) →
      ∀ b : Bytes, b.length = 36 → (∀ i < 36, e.unused i = false → byteAt b i = byteAt e.enc i) →
      s.mp.canTake (.planPut tag (byte k.val) 1 b) = true →
      exec (.planPut tag (byte k.val) 1 b) s = .next ({ s with ste := { s.ste with
        staged := s.ste.staged.set k (some e) k.isLt } }.answered 0x18 tag .ok (byte k.val :: 1 :: e.enc))) ∧
    (∀ (k : Fin 64) (b : Bytes), b.length = 0 ∨ b.length = 36 → s.mp.canTake (.planPut tag (byte k.val) 0 b) = true →
      exec (.planPut tag (byte k.val) 0 b) s = .next ({ s with ste := { s.ste with
        staged := s.ste.staged.set k none k.isLt } }.answered 0x18 tag .ok [byte k.val, 0])) ∧
    (∀ (n used : Byte) (b : Bytes), b.length = 36 ∨ (b.length = 0 ∧ used = 0) →
      s.mp.canTake (.planPut tag n used b) = true →
      (64 ≤ n.toNat ∨ (used = 1 ∧
        (2 < (byteAt b 0).toNat ∨ 1 < (byteAt b 2).toNat ∨ (byteAt b 2 = 1 ∧ 64 ≤ (byteAt b 3).toNat) ∨
          10 < (byteAt b 4).toNat ∨ 1 < (byteAt b 8).toNat ∨ 4 < (byteAt b 11).toNat ∨
          4000000000 < field b 12 4 ∨ 4000000000 < field b 16 4 ∨
          ((byteAt b 4 = 0 ∨ byteAt b 4 = 6) ∧ (24 ≤ (byteAt b 5).toNat ∨ 2 ≤ (byteAt b 6).toNat)) ∨
          ((byteAt b 4 = 1 ∨ byteAt b 4 = 9) ∧ byteAt b 5 &&& ~~~byteAt b 6 ≠ 0) ∨
          (byteAt b 4 = 2 ∧ 8 ≤ (byteAt b 5).toNat) ∨
          (byteAt b 4 = 3 ∧ (4 ≤ (byteAt b 5).toNat ∨ byteAt b 6 = 0 ∨ 5 ≤ (byteAt b 6).toNat)) ∨
          (byteAt b 4 = 4 ∧ (4 ≤ (byteAt b 5).toNat ∨ (byteAt b 6 ≠ 2 ∧ byteAt b 6 ≠ 3))) ∨
          (byteAt b 4 = 5 ∧ (8 ≤ (byteAt b 5).toNat ∨ byteAt b 6 = 2 ∨ 4 ≤ (byteAt b 6).toNat)) ∨
          (byteAt b 4 = 7 ∧ (4 ≤ (byteAt b 5).toNat ∨ 2 ≤ (byteAt b 6).toNat)) ∨
          (byteAt b 4 = 8 ∧ (4 ≤ (byteAt b 5).toNat ∨ 5 ≤ (byteAt b 6).toNat)) ∨
          ∃ i : Fin 4, i.val < (byteAt b 11).toNat ∧ let o := 20 + 4 * i.val
            (4 < (byteAt b o).toNat ∨ (byteAt b o = 0 ∧ (8 ≤ (byteAt b (o + 1)).toNat ∨ 5 ≤ (byteAt b (o + 2)).toNat)) ∨
              (byteAt b o = 1 ∧ 8 ≤ (byteAt b (o + 1)).toNat))))) →
      exec (.planPut tag n used b) s = .next (s.answered 0x18 tag .range [])) ∧
    (∀ k : Fin 64,
      (s.mp.canTake (.planGet tag (byte k.val) 0) = true → exec (.planGet tag (byte k.val) 0) s =
        .next (s.answered 0x19 tag .ok (byte k.val :: match s.ste.staged[k] with | none => [0] | some e => 1 :: e.enc))) ∧
      (s.mp.canTake (.planGet tag (byte k.val) 1) = true → exec (.planGet tag (byte k.val) 1) s =
        .next (s.answered 0x19 tag .ok
          (byte k.val :: match s.ste.active[k] with | none => [0] | some e => 1 :: e.enc)))) ∧
    (∀ n copy : Byte, 64 ≤ n.toNat ∨ 2 ≤ copy.toNat → s.mp.canTake (.planGet tag n copy) = true →
      exec (.planGet tag n copy) s = .next (s.answered 0x19 tag .range [])) ∧
    (s.mp.canTake (.planWipe tag) = true → exec (.planWipe tag) s =
      .next ({ s with ste := { s.ste with staged := Vector.replicate 64 none } }.answered 0x1A tag .ok []))

/-! ## Step evaluation (chapter 3) -/

/-- EVENT_DELIVERY (R9, R32, R33). A waiting event with no earlier one of its own source is taken: in IDLE and ENDED
it is discarded; in ARMED it joins the look-back list, and where it is the start event of the active source the run
starts with T_s its timestamp; in RUNNING it joins the list and the pass leaves the run RUNNING. From a full list of
64 the oldest entry leaves and its timestamp becomes the eviction mark. An event that is not there changes nothing.
A start does the whole work of R10: no step anchored to START stays PENDING, and trigger from start fires the trigger. What
counts as one source is the model's reading (notes/assumptions/21.md). -/
def Obligations.EventDeliveries : Prop :=
  (∀ a b : EventBody, a.sameSource b = true ↔ match a, b with
    | .edge c _, .edge c' _ => c = c'
    | .edge c _, .rail b _ _ => c.val / 8 = b.val
    | .rail b _ _, .edge c _ => c.val / 8 = b.val
    | .rail b _ _, .rail b' _ _ => b = b'
    | .code .., .code .. => True
    | .text m, .text m' => m = m'
    | .rate m _ _, .rate m' _ _ => m = m'
    | .scan .., .scan .. => True
    | _, _ => False) ∧
  (∀ (s : State) (k : Nat), s.ste.events.length ≤ k → exec (.eventDelivery k) s = .next s) ∧
  ∀ (s : State) (k : Nat) (x : Event), s.ste.events[k]? = some x →
    (∀ y ∈ s.ste.events.take k, y.body.sameSource x.body = false) →
    let rest := s.ste.events.eraseIdx k
    let listed (t : State) : Prop :=
      (s.ste.lookback.length < 64 →
        t.ste.lookback = s.ste.lookback ++ [x] ∧ t.ste.evictionMark = s.ste.evictionMark) ∧
      ∀ y ys, s.ste.lookback = y :: ys → 64 ≤ s.ste.lookback.length →
        t.ste.lookback = ys ++ [x] ∧ t.ste.evictionMark = some y.time
    let isStart := (∃ c d, s.rc.active.source = .edge c d ∧ x.body = .edge c d) ∨
      ∃ b l, s.rc.active.source = .railUp b ∧ x.body = .rail b true l
    (s.rc.runState = .idle ∨ s.rc.runState = .ended →
      exec (.eventDelivery k) s = .next { s with ste := { s.ste with events := rest } }) ∧
    (s.rc.runState = .armed → ¬isStart → ∃ t, exec (.eventDelivery k) s = .next t ∧ listed t ∧
      t = { s with ste := { s.ste with
        events := rest, lookback := t.ste.lookback, evictionMark := t.ste.evictionMark } }) ∧
    (s.rc.runState = .armed → isStart → ∃ t, exec (.eventDelivery k) s = .next t ∧ listed t ∧
      t.rc.runState = .running ∧ t.rc.startTime = some x.time ∧
      t.rc.limitTime = some (x.time + s.rc.active.limit * 100000) ∧ t.rc.timeBase = s.rc.timeBase ∧
      t.fu.flags.getLsbD 0 = true ∧ t.mp = s.mp ∧ t.ste.pass = ⟨false, false, false⟩ ∧
      (∃ w ∈ t.ts.input, w.record = { time := x.time, body := .runStarted s.rc.active.source }) ∧
      (∀ (k : Fin 64) (e : StepEntry) (v : StepEval), s.ste.active[k] = some e → e.anchor = .start →
        t.ste.evals[k] = some v → v.state ≠ .pending) ∧
      (s.rc.active.fromTrigger = true → s.ts.active.mode = .window → s.ts.fired = false → t.ts.fired = true ∧
        ∃ w ∈ t.ts.input, ∃ src, w.record = { time := s.rc.timeBase, body := .trig src } ∧
          (src = .start ∨ ∃ k e, src = .step k ∧ s.ste.active[k] = some e ∧ .trigger ∈ e.actions)) ∧
      (s.rc.active.fromTrigger = false ∨ s.ts.active.mode ≠ .window ∨ s.ts.fired = true →
        (∀ (k : Fin 64) (e : StepEntry), s.ste.active[k] = some e → .trigger ∉ e.actions) →
        t.ts.fired = s.ts.fired)) ∧
    (s.rc.runState = .running → ∃ t, exec (.eventDelivery k) s = .next t ∧ listed t ∧
      t.rc.runState = .running ∧ t.rc.timeBase = s.rc.timeBase ∧ t.mp = s.mp ∧ t.ste.active = s.ste.active ∧
      t.ste.pass = ⟨false, false, false⟩)

/-- How an OPEN step judges an event it is offered while RUNNING (R22, R38, R39, R40, R46, R48): by the event's timestamp
against lo and hi, both in the window. The evaluation record after the delivery is given for every kind and every place of
the timestamp; a step that resolves has its STEP record waiting at the TS, and a required failure raises STEP_FAIL. Where no
other OPEN step's condition is met and no PENDING step is anchored to it, the whole state after the delivery is given
(`ResolvedAlone`): its actions in list order (R23, R119, R127), its place in the resolution order (R16), and the end request
that the pass sends (R13, R49). That a SCAN action on an unused template, which R28 excludes, changes nothing is the model's
choice (notes/assumptions/33.md); that the MARK and STEP records of a step are of one source is its reading of R52 (13.md);
and so is what counts as one source of events (21.md). -/
def Obligations.EventsAreJudged : Prop :=
  (∀ (c : Cond) (y : EventBody), c.met y = true ↔
    (∃ ch d, c = .edge ch d ∧ y = .edge ch d) ∨ (∃ v m cd p, c = .code v m ∧ y = .code cd p ∧ cd &&& m = v) ∨
    (∃ m, c = .text m ∧ y = .text m) ∨ (∃ m st l, c = .rate m st ∧ y = .rate m st l) ∨
    (∃ b up l, c = .rail b up ∧ y = .rail b up l) ∨ ∃ n o, c = .scan n o ∧ y = .scan n o) ∧
  ∀ (s : State) (k : Nat) (x : Event) (j : Fin 64) (e : StepEntry) (v : StepEval) (lo hi : Nat),
    s.rc.runState = .running → s.ste.events[k]? = some x →
    (∀ y ∈ s.ste.events.take k, y.body.sameSource x.body = false) →
    s.ste.active[j] = some e → s.ste.evals[j] = some v → v.state = .opened → v.lo = some lo →
    (e.kind ≠ .check → v.hi = some hi) →
    ∃ t, exec (.eventDelivery k) s = .next t ∧
      (e.cond.met x.body = false ∨ e.kind = .check → t.ste.evals[j] = some v) ∧
      (e.cond.met x.body = true → e.kind = .await →
        (x.time < lo → e.earlyFails = false → t.ste.evals[j] = some v) ∧
        (x.time < lo → e.earlyFails = true →
          t.ste.evals[j] = some { v with state := .early, resolution := some x.time } ∧
          (e.required = true → t.fu.flags.getLsbD 2 = true) ∧
          ∃ w ∈ t.ts.input, w.record = ⟨x.time, .step j .early e.label v.counted v.clipped v.lookback v.refused⟩) ∧
        (lo ≤ x.time → hi < x.time → t.ste.evals[j] = some v) ∧
        (lo ≤ x.time → x.time ≤ hi → v.counted + 1 < e.count →
          t.ste.evals[j] = some { v with counted := v.counted + 1 }) ∧
        (lo ≤ x.time → x.time ≤ hi → e.count ≤ v.counted + 1 → ∃ refused,
          t.ste.evals[j] = some { v with
            counted := v.counted + 1, state := .matched, resolution := some x.time, refused } ∧
          ∃ w ∈ t.ts.input, w.record = ⟨x.time, .step j .matched e.label (v.counted + 1) v.clipped v.lookback refused⟩)) ∧
      (e.cond.met x.body = true → e.kind = .guard →
        (x.time < lo ∨ hi < x.time → t.ste.evals[j] = some v) ∧
        (lo ≤ x.time → x.time ≤ hi →
          t.ste.evals[j] = some { v with state := .violated, resolution := some x.time } ∧
          (e.required = true → t.fu.flags.getLsbD 2 = true) ∧
          ∃ w ∈ t.ts.input, w.record = ⟨x.time, .step j .violated e.label 0 v.clipped v.lookback v.refused⟩)) ∧
      let listed := { s with ste := { s.ste with
        events := s.ste.events.eraseIdx k, lookback := t.ste.lookback, evictionMark := t.ste.evictionMark } }
      (∀ (i : Fin 64) (e' : StepEntry) (v' : StepEval), s.ste.active[i] = some e' → s.ste.evals[i] = some v' →
        (v'.state = .opened → i ≠ j → e'.cond.met x.body = false) ∧ (v'.state = .pending → e'.anchor ≠ .step j)) →
      e.cond.met x.body = true →
      (e.kind = .await → x.time < lo → e.earlyFails = true → ResolvedAlone listed t j e v .early x.time) ∧
      (e.kind = .await → lo ≤ x.time → x.time ≤ hi → e.count ≤ v.counted + 1 →
        ResolvedAlone listed t j e { v with counted := v.counted + 1 } .matched x.time) ∧
      (e.kind = .guard → lo ≤ x.time → x.time ≤ hi → ResolvedAlone listed t j e v .violated x.time)

/-- Decision times (R37, R39, R40, R41, R42, R45). When the time base reaches the decision time of an OPEN step, an AWAIT
step is MISSED at hi, a GUARD step HELD at hi, and a CHECK step MATCHED at lo exactly where the state of its source as of
lo, found by undoing the look-back entries above lo, meets the condition, else FAILED; LOOKBACK is set where the eviction
mark is above lo. Steps anchored to a MISSED or FAILED step become SKIPPED with its resolution time, and those anchored to a
step so SKIPPED too. A step whose decision time is not reached stays as it was where no step is due. A step that is decided
alone leaves the whole state given (`ResolvedAlone`: R13, R16, R23, R46, R48, R49). Undoing also the events handed over and
not yet delivered is the model's reading of R31 (notes/assumptions/20.md); that LOOKBACK is set for an ALWAYS step as for
the others is its choice (notes/assumptions/32.md). That a SCAN action on an unused template, which R28 excludes, changes
nothing is the model's choice (notes/assumptions/33.md); that the MARK and STEP records of a step are of one source is its
reading of R52 (13.md). -/
def Obligations.DecisionsAreTaken : Prop :=
  (∀ s : State, (∀ (j : Fin 64) (v : StepEval) (d : Nat), s.ste.evals[j] = some v → v.state = .opened →
    v.decision = some d → s.rc.timeBase < d) → exec .decisionTime s = .next s) ∧
  ∀ (s : State) (j : Fin 64) (e : StepEntry) (v : StepEval) (lo hi d : Nat),
    s.rc.runState = .running → s.ste.active[j] = some e → s.ste.evals[j] = some v → v.state = .opened →
    v.lo = some lo → (e.kind ≠ .check → v.hi = some hi) → v.decision = some d → d ≤ s.rc.timeBase →
    let past := s.ste.lookback.filter (fun y => decide (lo < y.time)) ++ s.ste.events
    let was : Prop := match e.cond with
      | .level c l => (past.findSome? fun y => match y.body with
          | .edge c' dir => if c' = c then some (decide (dir = .falling)) else none
          | .rail b present levels => if b.val = c.val / 8 then
              some (!present && (levels.getD 0).getLsbD (c.val % 8)) else none
          | _ => none).getD s.mc[c].level = l
      | .railState b p => (past.findSome? fun y => match y.body with
          | .rail b' present _ => if b' = b then some (!present) else none
          | _ => none).getD s.lau[b].present = p
      | .rateState m st => (past.findSome? fun y => match y.body with
          | .rate m' _ left => if m' = m then some left else none
          | _ => none).getD s.rm[m].state = st
      | .lastCode val m => ∃ cd, (past.findSome? fun y => match y.body with
          | .code _ prior => some prior
          | _ => none).getD (s.cdp.history.head?.map CodeEntry.code) = some cd ∧ cd &&& m = val
      | .always => True
      | _ => False
    ∃ t refused, exec .decisionTime s = .next t ∧
      (e.kind = .await → t.ste.evals[j] = some { v with state := .missed, resolution := some hi }) ∧
      (e.kind = .guard → t.ste.evals[j] = some { v with state := .held, resolution := some hi, refused }) ∧
      (e.kind = .check →
        let lookback := v.lookback || s.ste.evictionMark.any fun m => decide (lo < m)
        (was → t.ste.evals[j] = some { v with state := .matched, resolution := some lo, lookback, refused }) ∧
        (¬was → t.ste.evals[j] = some { v with state := .failed, resolution := some lo, lookback })) ∧
      (∀ (i : Fin 64) (e' : StepEntry) (v' : StepEval), s.ste.active[i] = some e' → s.ste.evals[i] = some v' →
        v'.state = .pending → e'.anchor = .step j → (e.kind = .await ∨ (e.kind = .check ∧ ¬was)) →
        t.ste.evals[i] = some { v' with
          state := .skipped, resolution := some (if e.kind = .await then hi else lo) }) ∧
      (∀ (i a : Fin 64) (e' : StepEntry) (v' va : StepEval), a < i → s.ste.active[i] = some e' →
        s.ste.evals[i] = some v' → v'.state = .pending → e'.anchor = .step a →
        (∃ u, s.ste.evals[a] = some u ∧ u.state = .pending) → t.ste.evals[a] = some va → va.state = .skipped →
        t.ste.evals[i] = some { v' with state := .skipped, resolution := va.resolution }) ∧
      ((∀ (i : Fin 64) (e' : StepEntry) (v' : StepEval), s.ste.active[i] = some e' → s.ste.evals[i] = some v' →
        (v'.state = .opened → i ≠ j → ∀ d', v'.decision = some d' → s.rc.timeBase < d') ∧
        (v'.state = .pending → e'.anchor ≠ .step j)) →
      (e.kind = .await → ResolvedAlone s t j e v .missed hi) ∧
      (e.kind = .guard → ResolvedAlone s t j e v .held hi) ∧
      (e.kind = .check →
        let v1 := { v with lookback := v.lookback || s.ste.evictionMark.any fun m => decide (lo < m) }
        (was → ResolvedAlone s t j e v1 .matched lo) ∧ (¬was → ResolvedAlone s t j e v1 .failed lo)))

/-- Opening (R35, R36, R37, R43, R44). A step opens with an anchor time T_a: its window lies window min and max µs after T_a
and is cut at the limit time L (CLIPPED), its decision time is hi (CHECK: lo) plus the channel's debounce, LOOKBACK says
that the eviction mark is at or above T_a; for AWAIT and GUARD the look-back entries at or after T_a that meet the condition
are judged oldest first, up to the one that resolves the step (R38, R39, R40), and a decision time already reached decides
the step at once. At a start, by START or by the delivery of the start event, each PENDING step anchored to START opens with
T_a = T_s: for an EDGE or RAIL_UP start the event's timestamp, that event being the newest entry replayed. A PENDING step
anchored to another step opens when that one succeeds, in the same pass, with its resolution time as T_a (R21): the event's
timestamp where a delivered event makes an AWAIT step MATCHED, hi where DECISION_TIME makes a GUARD step HELD, lo where it
makes a CHECK step MATCHED. What counts as one source of events is the model's reading (notes/assumptions/21.md). -/
def Obligations.StepsOpenAtTheirAnchor : Prop :=
  let opened := fun (s t : State) (anchor : Nat) (list : List Event) (mark : Option Nat) (limit : Nat) (j : Fin 64)
      (e : StepEntry) (v : StepEval) =>
    let now := s.rc.timeBase
    let lo := min (anchor + e.windowMin * 100) limit
    let hi := min (anchor + e.windowMax * 100) limit
    let hold := match e.cond with
      | .edge c _ => s.mc[c].settings.debounce * 100
      | .level c _ => s.mc[c].settings.debounce * 100
      | _ => 0
    let lookback := mark.any fun m => decide (anchor ≤ m)
    let clipped := decide (limit < anchor + e.windowMin * 100 ∨ limit < anchor + e.windowMax * 100)
    let seen := fun y : Event => anchor ≤ y.time ∧ e.cond.met y.body = true
    let replay := e.judged lo hi v.counted ((list.filter fun y => decide (seen y)).map Event.time)
    let counting := { v with
      anchorTime := some anchor, lo := some lo, hi := some hi, decision := some (hi + hold), counted := replay.1, clipped
      lookback }
    (e.kind ≠ .check → replay.2 = none → now < hi + hold → t.ste.evals[j] = some { counting with state := .opened }) ∧
    (e.kind ≠ .check → ∀ state time,
      (replay.2 = some (state, time) ∨
        (replay.2 = none ∧ hi + hold ≤ now ∧ state = (if e.kind = .await then .missed else .held) ∧ time = hi)) →
      ∃ refused, t.ste.evals[j] = some { counting with state, refused, resolution := some time } ∧
        (state ≠ .matched → state ≠ .held → refused = v.refused)) ∧
    (e.kind = .check → now < lo + hold → t.ste.evals[j] = some { v with
      state := .opened, anchorTime := some anchor, lo := some lo, hi := none, decision := some (lo + hold),
      clipped := decide (limit < anchor + e.windowMin * 100), lookback }) ∧
    (e.kind = .check → lo + hold ≤ now → ∃ u, t.ste.evals[j] = some u ∧ u.anchorTime = some anchor ∧
      (u.state = .matched ∨ u.state = .failed) ∧ u.resolution = some lo)
  (∀ (s : State) (tag : Byte) (j : Fin 64) (e : StepEntry) (v : StepEval),
    s.mp.canTake (.start tag) = true → s.rc.runState = .armed → s.rc.active.source = .station →
    s.ste.active[j] = some e → s.ste.evals[j] = some v → v.state = .pending → e.anchor = .start →
    ∃ t, exec (.start tag) s = .next t ∧ opened s t s.rc.timeBase s.ste.lookback s.ste.evictionMark
      (s.rc.timeBase + s.rc.active.limit * 100000) j e v) ∧
  (∀ (s : State) (k : Nat) (x : Event) (j : Fin 64) (e : StepEntry) (v : StepEval),
    s.ste.events[k]? = some x → (∀ y ∈ s.ste.events.take k, y.body.sameSource x.body = false) →
    s.rc.runState = .armed →
    ((∃ c d, s.rc.active.source = .edge c d ∧ x.body = .edge c d) ∨
      ∃ b l, s.rc.active.source = .railUp b ∧ x.body = .rail b true l) →
    s.ste.active[j] = some e → s.ste.evals[j] = some v → v.state = .pending → e.anchor = .start →
    ∃ t, exec (.eventDelivery k) s = .next t ∧
      opened s t x.time ((if s.ste.lookback.length < 64 then s.ste.lookback else s.ste.lookback.tail) ++ [x])
        (if s.ste.lookback.length < 64 then s.ste.evictionMark else s.ste.lookback.head?.map Event.time)
        (x.time + s.rc.active.limit * 100000) j e v) ∧
  (∀ (s : State) (k : Nat) (x : Event) (a j : Fin 64) (ea e : StepEntry) (va v : StepEval) (lo hi limit : Nat),
    s.rc.runState = .running → s.rc.limitTime = some limit → s.ste.events[k]? = some x →
    (∀ y ∈ s.ste.events.take k, y.body.sameSource x.body = false) →
    s.ste.active[a] = some ea → s.ste.evals[a] = some va → va.state = .opened → ea.kind = .await →
    ea.cond.met x.body = true → va.lo = some lo → va.hi = some hi → lo ≤ x.time → x.time ≤ hi →
    ea.count ≤ va.counted + 1 → s.ste.active[j] = some e → s.ste.evals[j] = some v → v.state = .pending →
    e.anchor = .step a →
    ∃ t u, exec (.eventDelivery k) s = .next t ∧ t.ste.evals[j] = some u ∧ u.state ≠ .pending ∧
      u.anchorTime = some x.time ∧
      opened s t x.time ((if s.ste.lookback.length < 64 then s.ste.lookback else s.ste.lookback.tail) ++ [x])
        (if s.ste.lookback.length < 64 then s.ste.evictionMark else s.ste.lookback.head?.map Event.time) limit j e v) ∧
  ∀ (s : State) (a j : Fin 64) (ea e : StepEntry) (va v : StepEval) (lo hi d limit : Nat),
    s.rc.runState = .running → s.rc.limitTime = some limit → s.ste.active[a] = some ea → s.ste.evals[a] = some va →
    va.state = .opened → va.lo = some lo → (ea.kind ≠ .check → va.hi = some hi) → va.decision = some d →
    d ≤ s.rc.timeBase → s.ste.active[j] = some e → s.ste.evals[j] = some v → v.state = .pending → e.anchor = .step a →
    ∃ t, exec .decisionTime s = .next t ∧
      (ea.kind = .guard → opened s t hi s.ste.lookback s.ste.evictionMark limit j e v) ∧
      (ea.kind = .check → (∃ ra, t.ste.evals[a] = some ra ∧ ra.state = .matched) →
        opened s t lo s.ste.lookback s.ste.evictionMark limit j e v)

/-! ## The Trace Store (chapter 4) -/

/-- STORE_SET and STORE_QUERY (R56, R69, 12.3): STORE_SET stages the record with quota and watermark clamped and refuses
an unknown mode; STORE_QUERY's 47 bytes are the store state, the active settings, the occupancy, the oldest and newest
retained numbers, the next number, the trigger, P and the two counts, none sent as ones; it changes nothing. -/
def Obligations.StoreIsSetAndReported : Prop :=
  ∀ (s : State) (tag : Byte),
    (∀ (b : Bytes) (m : StoreMode), b.length = 6 →
      byteAt b 0 = (match m with | .stop => 0 | .ring => 1 | .stream => 2 | .window => 3) →
      s.mp.canTake (.storeSet tag b) = true →
      let r : StoreSettings := { mode := m, quota := max 16 (min 32000 (field b 2 2)),
                                 watermark := min 32768 (field b 4 2) }
      exec (.storeSet tag b) s = .next ({ s with ts := { s.ts with staged := r } }.answered 0x20 tag .ok
        ([byteAt b 0, 0] ++ le 2 r.quota ++ le 2 r.watermark))) ∧
    (∀ b : Bytes, b.length = 6 → 4 ≤ (byteAt b 0).toNat → s.mp.canTake (.storeSet tag b) = true →
      exec (.storeSet tag b) s = .next (s.answered 0x20 tag .range [])) ∧
    (s.mp.canTake (.storeQuery tag) = true →
      ∃ b, exec (.storeQuery tag) s = .next (s.answered 0x21 tag .ok b) ∧ b.length = 47 ∧
        byteAt b 0 = (match s.ts.state with | .off => 0 | .accepting => 1 | .triggered => 2 | .stopped => 3) ∧
        byteAt b 1 = (match s.ts.active.mode with | .stop => 0 | .ring => 1 | .stream => 2 | .window => 3) ∧
        (s.ts.active.quota < 2 ^ 16 → field b 2 2 = s.ts.active.quota) ∧
        (s.ts.active.watermark < 2 ^ 16 → field b 4 2 = s.ts.active.watermark) ∧
        (s.ts.occupancy < 2 ^ 16 → field b 6 2 = s.ts.occupancy) ∧
        (s.ts.records = [] → field b 8 6 = 2 ^ 48 - 1 ∧ field b 14 6 = 2 ^ 48 - 1) ∧
        (∀ r, s.ts.records.head? = some r → r.seq < 2 ^ 48 → field b 8 6 = r.seq) ∧
        (∀ r, s.ts.records.getLast? = some r → r.seq < 2 ^ 48 → field b 14 6 = r.seq) ∧
        (s.ts.nextSeq < 2 ^ 48 → field b 20 6 = s.ts.nextSeq) ∧
        byteAt b 26 = (if s.ts.fired then 1 else 0) ∧
        (s.ts.trigSeq = none → field b 27 6 = 2 ^ 48 - 1) ∧
        (∀ n, s.ts.trigSeq = some n → n < 2 ^ 48 → field b 27 6 = n) ∧
        (s.ts.post < 2 ^ 16 → field b 33 2 = s.ts.post) ∧
        (s.ts.lost < 2 ^ 48 → field b 35 6 = s.ts.lost) ∧
        (s.ts.totalLost < 2 ^ 48 → field b 41 6 = s.ts.totalLost))

/-- FETCH and RELEASE (R66, R67). FETCH changes nothing: max 0 is refused; a number below the oldest retained (or, in an
empty store, below the next) is answered GONE with it; otherwise the reply holds the count and the longest run of whole
records from that number on that fits within max, at most 1,016, bytes. RELEASE in STREAM frees exactly the records at or
below its number and their units; in the other modes it is refused. -/
def Obligations.RecordsAreReadAndReleased : Prop :=
  ∀ (s : State) (tag : Byte),
    (∀ (start : BitVec 48) (max : BitVec 16), s.mp.canTake (.fetch tag start max) = true →
      (max = 0 → exec (.fetch tag start max) s = .next (s.answered 0x22 tag .range [])) ∧
      (max ≠ 0 → ∀ r, s.ts.records.head? = some r → start.toNat < r.seq →
        exec (.fetch tag start max) s = .next (s.answered 0x22 tag .gone (le 6 r.seq))) ∧
      (max ≠ 0 → s.ts.records = [] → start.toNat < s.ts.nextSeq →
        exec (.fetch tag start max) s = .next (s.answered 0x22 tag .gone (le 6 s.ts.nextSeq))) ∧
      (max ≠ 0 → (s.ts.records = [] → s.ts.nextSeq ≤ start.toNat) →
        (∀ r, s.ts.records.head? = some r → r.seq ≤ start.toNat) →
        ∃ rs rest, s.ts.records.filter (fun r => decide (start.toNat ≤ r.seq)) = rs ++ rest ∧
          exec (.fetch tag start max) s =
            .next (s.answered 0x22 tag .ok (le 2 rs.length ++ rs.flatMap Stored.bytes)) ∧
          (rs.map fun r : Stored => 8 * r.record.units).sum ≤ min max.toNat 1016 ∧
          ∀ r rest', rest = r :: rest' →
            min max.toNat 1016 < (rs.map fun r : Stored => 8 * r.record.units).sum + 8 * r.record.units)) ∧
    (∀ seq : BitVec 48, s.mp.canTake (.release tag seq) = true →
      (s.ts.active.mode = .stream → s.ts.Sound →
        let kept : List Stored := s.ts.records.filter fun r => decide (seq.toNat < r.seq)
        exec (.release tag seq) s = .next ({ s with ts := { s.ts with
          records := kept, occupancy := (kept.map fun r : Stored => r.record.units).sum } }.answered 0x23 tag .ok [])) ∧
      (s.ts.active.mode ≠ .stream → exec (.release tag seq) s = .next (s.answered 0x23 tag .state [])))

/-- TRIGGER and MARK (R63, R68). In WINDOW with a run in progress and the trigger READY, TRIGGER makes it FIRED, hands the
TRIG record to the TS and is answered that it took effect; else it changes nothing and is answered that it did not. MARK in
a run hands its record to the TS and stays in hand; a GAP taken ahead of it answers nothing (R61); the take of that record,
the one awaited, answers it with the record's number, or none where it was lost, and leaves everything but the MP as the
take of the same record unawaited does; the take of any other leaves it in hand; in IDLE and ENDED it is refused with STATE.
Which waiting record is taken, TRIG before what reaches the TS after it, is stated with RECORD_TAKE. That a notice the take
places becomes ready together with the reply is the model's reading (notes/assumptions/47.md). -/
def Obligations.TriggersAndMarks : Prop :=
  ∀ (s : State) (tag : Byte),
    (s.mp.canTake (.trigger tag) = true → s.ts.active.mode = .window →
      (s.rc.runState = .armed ∨ s.rc.runState = .running) → s.ts.fired = false →
      exec (.trigger tag) s = .next ({ s with ts := { s.ts with
        fired := true
        input := s.ts.input ++ ([{ record := { time := s.rc.timeBase, body := .trig .station }, source := .trig,
                                   reached := s.clock, endWork := false, awaited := false }] : List Waiting)
        } }.answered 0x24 tag .ok [1])) ∧
    (s.mp.canTake (.trigger tag) = true →
      (s.ts.active.mode ≠ .window ∨ s.rc.runState = .idle ∨ s.rc.runState = .ended ∨ s.ts.fired = true) →
      exec (.trigger tag) s = .next (s.answered 0x24 tag .ok [0])) ∧
    (∀ label : Bytes, label.length = 16 → s.mp.canTake (.mark tag label) = true →
      ((s.rc.runState = .armed ∨ s.rc.runState = .running) → exec (.mark tag label) s = .next { s with
        mp := { s.mp with queue := s.mp.queue.tail, inHand := some (0x25, tag) }
        ts := { s.ts with input := s.ts.input ++ ([{
          record := { time := s.rc.timeBase, body := .mark false label }, source := .station, reached := s.clock,
          endWork := false, awaited := true }] : List Waiting) } }) ∧
      ((s.rc.runState = .idle ∨ s.rc.runState = .ended) →
        exec (.mark tag label) s = .next (s.answered 0x25 tag .state []))) ∧
    ∀ (k : Nat) (w : Waiting), s.ts.mayTake s.clock k = true → s.ts.input[k]? = some w →
      (w.awaited = false → ∃ t, exec (.recordTake k) s = .next t ∧ t.mp = s.mp) ∧
      (s.ts.gapDue w → ∃ t, exec (.recordTake k) s = .next t ∧ t.mp = s.mp) ∧
      (w.awaited = true → ¬s.ts.gapDue w → (∀ e ∈ s.ts.input.eraseIdx k, e.awaited = false) →
        s.mp.inHand = some (0x25, tag) →
        ∃ t, exec (.recordTake k) s = .next t ∧ (∀ e ∈ t.ts.input, e.awaited = false) ∧ t.mp = { s.mp with
          inHand := none
          reply := some { kind := 0x25, tag, status := .ok, body :=
            if t.ts.nextSeq = s.ts.nextSeq then List.replicate 6 0xFF else le 6 (t.ts.nextSeq - 1) }
          together := s.mp.together || decide (s.fu.slot = 0 ∧ t.fu.slot ≠ 0) }) ∧
      (w.awaited = true → ∃ t u,
        exec (.recordTake k) s = .next t ∧
        exec (.recordTake k) { s with ts := { s.ts with input := s.ts.input.set k { w with awaited := false } } } = .next u ∧
        (¬s.ts.gapDue w → t = { u with mp := t.mp }) ∧
        (s.ts.gapDue w → t = { u with ts := { u.ts with input := w :: s.ts.input.eraseIdx k } }))

/-- RECORD_TAKE in STOP and RING mode, and which record is taken (R51, R52, R53, R59, R60, R63, R65). One acceptance is made
a tick; after a GAP it is the record admitted with it (R61, R62). A waiting record goes ahead only of records of other
sources that reached the TS with it, RUN ENDED of none, an end work record of no STEP record; TRIG goes ahead of all but RUN
ARMED, and while it waits only it, RUN ARMED and what reached the TS with the firing are taken, but not what the RC or a
step writes after it. In STOP an ordinary record that fits takes the next number; one that does not is lost, stops the store
and raises STORE_STOP; in a STOPPED store it is lost. In RING the oldest records leave, no more than needed, until it fits.
STORE_HIGH is raised where the occupancy rises from below the watermark. What counts as one source, and TRIG's place, is the
model's reading (notes/assumptions/13.md). The record of a MARK request in hand has the same effect on the store, as
TriggersAndMarks states. -/
def Obligations.RecordsAreTakenInStopAndRing : Prop :=
  let armed := fun w : Waiting => ∃ src, w.record.body = .runArmed src
  let trig := fun w : Waiting => ∃ src, w.record.body = .trig src
  let ended := fun w : Waiting => ∃ src c v ff, w.record.body = .runEnded src c v ff
  (∀ (t : Ts) (clock k : Nat), t.admitted = true →
    (t.mayTake clock k = true ↔ t.nextTake ≤ clock ∧ t.input ≠ [] ∧ k = 0)) ∧
  (∀ (t : Ts) (clock k : Nat), t.admitted = false →
    (t.mayTake clock k = true ↔ t.nextTake ≤ clock ∧ ∃ w, t.input[k]? = some w ∧
    (∀ e ∈ t.input.take k, ¬armed e ∧ (trig w ∨ (w.reached = e.reached ∧ w.source ≠ e.source ∧ ¬ended w ∧
      ¬(w.endWork = true ∧ e.source = .run) ∧ ¬(trig e ∧ w.source = .run)))) ∧
    ∀ e ∈ t.input, trig e → trig w ∨ armed w ∨ w.reached = e.reached)) ∧
  (∀ (t : Ts) (clock : Nat) (w : Waiting) (ws : List Waiting), t.admitted = false → t.nextTake ≤ clock →
    t.input = w :: ws →
    ((∀ e ∈ ws, ¬trig e) ∨ trig w ∨ armed w → t.mayTake clock 0 = true) ∧
    ((∀ e ∈ t.input, ¬armed e) → ∀ (k : Nat) (e : Waiting), t.input[k]? = some e → trig e →
      t.mayTake clock k = true)) ∧
  (∀ (s : State) (k : Nat), s.ts.mayTake s.clock k = false → exec (.recordTake k) s = .next s) ∧
  ∀ (s : State) (k : Nat) (w : Waiting), s.ts.mayTake s.clock k = true → s.ts.input[k]? = some w →
    s.ts.admitted = false → w.awaited = false → (∀ src c v ff, w.record.body ≠ .runEnded src c v ff) →
    (∀ src, w.record.body ≠ .trig src) →
    let n := w.record.units
    let s1 : State := { s with ts := { s.ts with input := s.ts.input.eraseIdx k, nextTake := s.clock } }
    let lost : State := { s1 with ts := { s1.ts with
      lost := s.ts.lost + 1, totalLost := s.ts.totalLost + 1
      gapStart := if s.ts.lost = 0 then some s.rc.timeBase else s.ts.gapStart } }
    (s.ts.active.mode = .stop → s.ts.state ≠ .stopped → s.ts.occupancy + n ≤ 32762 →
      exec (.recordTake k) s = .next ({ s1 with ts := { s1.ts with
        records := s.ts.records ++ ([⟨s.ts.nextSeq, w.record⟩] : List Stored), occupancy := s.ts.occupancy + n
        nextSeq := s.ts.nextSeq + 1, nextTake := s.clock + 1 } }.raiseIf
          (decide (s.ts.occupancy < s.ts.active.watermark ∧ s.ts.active.watermark ≤ s.ts.occupancy + n)) .storeHigh)) ∧
    (s.ts.active.mode = .stop → s.ts.state ≠ .stopped → 32762 < s.ts.occupancy + n →
      exec (.recordTake k) s = .next ({ lost with ts := { lost.ts with state := .stopped } }.raise .storeStop)) ∧
    (s.ts.active.mode = .stop → s.ts.state = .stopped → exec (.recordTake k) s = .next lost) ∧
    (s.ts.active.mode = .ring → s.ts.Sound → n ≤ 9 →
      ∃ evicted kept, s.ts.records = evicted ++ kept ∧
        let sum := fun rs : List Stored => (rs.map fun r : Stored => r.record.units).sum
        (∀ pre r, evicted = pre ++ [r] → 32762 < s.ts.occupancy - sum pre + n) ∧ sum kept + n ≤ 32762 ∧
        exec (.recordTake k) s = .next ({ s1 with ts := { s1.ts with
          records := kept ++ ([⟨s.ts.nextSeq, w.record⟩] : List Stored), occupancy := sum kept + n
          nextSeq := s.ts.nextSeq + 1, nextTake := s.clock + 1 } }.raiseIf
            (decide (s.ts.occupancy < s.ts.active.watermark ∧ s.ts.active.watermark ≤ sum kept + n)) .storeHigh))

/-- RECORD_TAKE in STREAM mode, and the close of a run (R51, R52, R61, R62). In STREAM a record that fits is accepted, and
with losses counted a GAP with the lost count and the gap start time is accepted first, on the record's own test, and the
record is the next acceptance, at a later tick, whatever the occupancy; one that does not fit is lost and raises STORE_LOSS.
RUN ENDED is accepted in every mode and state, after a GAP where there are losses and the GAP fits. The lost count restarts
with the record of a pair in STREAM, and with the GAP before RUN ENDED. That the admitted record waits at the head of the
input between the two takes, and when the count restarts, is the model's reading (notes/assumptions/15.md). The record of a
MARK request in hand has the same effect on the store, as TriggersAndMarks states. -/
def Obligations.RecordsAreTakenInStreamAndAtTheEnd : Prop :=
  ∀ (s : State) (k : Nat) (w : Waiting), s.ts.mayTake s.clock k = true → s.ts.input[k]? = some w → w.awaited = false →
    let n := w.record.units
    let o := s.ts.occupancy
    let high := fun a b => decide (a < s.ts.active.watermark ∧ s.ts.active.watermark ≤ b)
    let s1 : State := { s with ts := { s.ts with input := s.ts.input.eraseIdx k, nextTake := s.clock } }
    let alone : State := { s1 with ts := { s1.ts with
      records := s.ts.records ++ ([⟨s.ts.nextSeq, w.record⟩] : List Stored), occupancy := o + n
      nextSeq := s.ts.nextSeq + 1, nextTake := s.clock + 1 } }.raiseIf (high o (o + n)) .storeHigh
    let gap : Nat → Option Nat → State := fun lost gapStart => { s with ts := { s.ts with
      input := w :: s.ts.input.eraseIdx k
      records := s.ts.records ++ ([⟨s.ts.nextSeq, ⟨s.ts.gapStart.getD 0, .gap s.ts.lost⟩⟩] : List Stored)
      occupancy := o + 3, nextSeq := s.ts.nextSeq + 1, nextTake := s.clock + 1, admitted := true, lost, gapStart
      } }.raiseIf (high o (o + 3)) .storeHigh
    (s.ts.admitted = true → exec (.recordTake k) s = .next { alone with ts := { alone.ts with
      admitted := false, lost := 0, gapStart := none } }) ∧
    (s.ts.admitted = false → (∀ src c v ff, w.record.body ≠ .runEnded src c v ff) → (∀ src, w.record.body ≠ .trig src) →
      s.ts.active.mode = .stream →
      (o + n ≤ 32762 → s.ts.lost = 0 → exec (.recordTake k) s = .next alone) ∧
      (o + n ≤ 32762 → s.ts.lost ≠ 0 → exec (.recordTake k) s = .next (gap s.ts.lost s.ts.gapStart)) ∧
      (32762 < o + n → exec (.recordTake k) s = .next ({ s1 with ts := { s1.ts with
        lost := s.ts.lost + 1, totalLost := s.ts.totalLost + 1
        gapStart := if s.ts.lost = 0 then some s.rc.timeBase else s.ts.gapStart } }.raise .storeLoss))) ∧
    (s.ts.admitted = false → (∃ src c v ff, w.record.body = .runEnded src c v ff) →
      (s.ts.lost = 0 ∨ 32765 < o + 3 → exec (.recordTake k) s = .next alone) ∧
      (s.ts.lost ≠ 0 → o + 3 ≤ 32765 → exec (.recordTake k) s = .next (gap 0 none)))

/-- RECORD_TAKE in WINDOW mode (R60, R63, R64). Before the trigger a record goes in by the RING rule. The TRIG record is
accepted by it too, and makes the store TRIGGERED, keeps its number as the trigger position, sets P to 0 and raises TRIGGER.
In TRIGGERED only records older than the TRIG record are evicted, the size joins P, and where P reaches the quota the store
is STOPPED and STORE_STOP raised. In STOPPED every ordinary record is lost. The record of a MARK request in hand has the
same effect on the store, as TriggersAndMarks states. -/
def Obligations.RecordsAreTakenInWindow : Prop :=
  ∀ (s : State) (k : Nat) (w : Waiting), s.ts.mayTake s.clock k = true → s.ts.input[k]? = some w →
    s.ts.admitted = false → w.awaited = false → (∀ src c v ff, w.record.body ≠ .runEnded src c v ff) →
    s.ts.active.mode = .window →
    let n := w.record.units
    let sum := fun rs : List Stored => (rs.map fun r : Stored => r.record.units).sum
    let s1 : State := { s with ts := { s.ts with input := s.ts.input.eraseIdx k, nextTake := s.clock } }
    let put : List Stored → State := fun kept => { s1 with ts := { s1.ts with
      records := kept ++ ([⟨s.ts.nextSeq, w.record⟩] : List Stored), occupancy := sum kept + n
      nextSeq := s.ts.nextSeq + 1, nextTake := s.clock + 1 } }.raiseIf
        (decide (s.ts.occupancy < s.ts.active.watermark ∧ s.ts.active.watermark ≤ sum kept + n)) .storeHigh
    s.ts.Sound → n ≤ 9 →
    ((∀ src, w.record.body ≠ .trig src) → s.ts.state = .stopped → exec (.recordTake k) s = .next { s1 with ts :=
      { s1.ts with
        lost := s.ts.lost + 1, totalLost := s.ts.totalLost + 1
        gapStart := if s.ts.lost = 0 then some s.rc.timeBase else s.ts.gapStart } }) ∧
    ((s.ts.state ≠ .stopped ∨ ∃ src, w.record.body = .trig src) →
      ∃ evicted kept, s.ts.records = evicted ++ kept ∧
        (∀ pre r, evicted = pre ++ [r] → 32762 < s.ts.occupancy - sum pre + n) ∧
        ((∃ src, w.record.body = .trig src) → sum kept + n ≤ 32762 ∧
          exec (.recordTake k) s = .next ({ put kept with ts := { (put kept).ts with
            state := .triggered, trigSeq := some s.ts.nextSeq, post := 0 } }.raise .trigger)) ∧
        ((∀ src, w.record.body ≠ .trig src) → s.ts.state ≠ .triggered →
          sum kept + n ≤ 32762 ∧ exec (.recordTake k) s = .next (put kept)) ∧
        ((∀ src, w.record.body ≠ .trig src) → s.ts.state = .triggered → ∀ q, s.ts.trigSeq = some q →
          (∀ r ∈ evicted, r.seq < q) ∧ (sum kept + n ≤ 32762 ∨ ∀ r ∈ kept, q ≤ r.seq) ∧
          let post := s.ts.post + n
          (post < s.ts.active.quota → exec (.recordTake k) s = .next
            { put kept with ts := { (put kept).ts with post } }) ∧
          (s.ts.active.quota ≤ post → exec (.recordTake k) s = .next
            ({ put kept with ts := { (put kept).ts with post, state := .stopped } }.raise .storeStop)))) 

/-! ## Banks (chapter 5) -/

/-- BANK_SET, ACQUIRE, BANK_QUERY and INTERVAL_START (R74, R75, R76, R77, R78). BANK_SET replaces the settings, clamped, and
abandons the acquisition in flight; in TRACK it restarts the timer and begins a TRACK acquisition and leaves threshold and
rail state; in FIXED it sets both from the request, with the effects of R71 and R79. ACQUIRE begins a REQUESTED acquisition,
or is refused BUSY. At an interval start a TRACK acquisition begins, at once or when the one in flight ends. Of what a rail
change does these are the model's choices: a port counts its line's time at 1 from the rail's return
(notes/assumptions/40.md), a loss clears the void mark of a CLOCK gate (41.md), and a loss of bank D's rail ends a strobe
blanking (42.md). That a new threshold is one sample for the bank's monitors and receive line is its choice as well (18.md).
-/
def Obligations.BanksAreSetAndQueried : Prop :=
  (∀ (s : State) (tag : Byte) (b : Fin 4) (r : Bytes), r.length = 16 →
    s.mp.canTake (.bankSet tag (byte b.val) r) = true → (byteAt r 1).toNat ≤ 1 → (byteAt r 5).toNat ≤ 1 →
    byteAt r 6 ≠ 0 → field r 12 2 ≠ 0 → field r 14 2 ≠ 0 → (byteAt r 3).toNat < (byteAt r 2).toNat →
    let set : BankSettings := {
      track := decide (byteAt r 0 = 0), interval := max 100 (min 1000000 (field r 8 4)),
      s0 := min 32767 (field r 12 2), s1 := min 32767 (field r 14 2), factor := min 64 (byteAt r 6).toNat,
      up := (byteAt r 2).toNat, down := (byteAt r 3).toNat, traceAll := decide (byteAt r 1 = 1),
      fixedThreshold := (byteAt r 4).toNat, fixedPresent := decide (byteAt r 5 = 1) }
    (byteAt r 0 = 0 → exec (.bankSet tag (byte b.val) r) s = .next ((s.setLau b { s.lau[b] with
      settings := set, intervalStart := s.clock, trackWaiting := false
      acq := some (Acq.begin .track set) }).answered 0x30 tag .ok (byte b.val :: set.enc))) ∧
    (byteAt r 0 = 1 → ∃ t, exec (.bankSet tag (byte b.val) r) s = .next t ∧
      t.mp.reply = some { kind := 0x30, tag, status := .ok, body := byte b.val :: set.enc } ∧
      t.lau = s.lau.set b { s.lau[b] with
        settings := set, threshold := set.fixedThreshold, present := set.fixedPresent, acq := none
        trackWaiting := false } b.isLt ∧
      t.rc = s.rc ∧ (s.lau[b].present = set.fixedPresent → t.ts = s.ts ∧ t.fu = s.fu) ∧
      BankTaken s t b set.fixedThreshold set.fixedPresent)) ∧
  (∀ (s : State) (tag n : Byte) (r : Bytes), r.length = 16 → s.mp.canTake (.bankSet tag n r) = true →
    (4 ≤ n.toNat ∨ 2 ≤ (byteAt r 0).toNat ∨ 2 ≤ (byteAt r 5).toNat ∨ byteAt r 6 = 0 ∨ field r 12 2 = 0 ∨
      field r 14 2 = 0 ∨ (byteAt r 2).toNat ≤ (byteAt r 3).toNat) →
    exec (.bankSet tag n r) s = .next (s.answered 0x30 tag .range [])) ∧
  (∀ (s : State) (tag : Byte) (b : Fin 4), s.mp.canTake (.acquire tag (byte b.val)) = true →
    (s.lau[b].acq = none → exec (.acquire tag (byte b.val)) s = .next ((s.setLau b { s.lau[b] with
      acq := some (Acq.begin .requested s.lau[b].settings)
      intervalStart := if s.lau[b].settings.track then s.clock else s.lau[b].intervalStart
      trackWaiting := false }).answered 0x31 tag .ok [])) ∧
    (s.lau[b].acq ≠ none → exec (.acquire tag (byte b.val)) s = .next (s.answered 0x31 tag .busy []))) ∧
  (∀ (s : State) (tag : Byte) (b : Fin 4), s.mp.canTake (.bankQuery tag (byte b.val)) = true → ∃ body,
    exec (.bankQuery tag (byte b.val)) s = .next (s.answered 0x32 tag .ok body) ∧ body.length = 23 ∧
    byteAt body 0 = byte b.val ∧ (body.drop 1).take 16 = s.lau[b].settings.enc ∧
    byteAt body 17 = byte s.lau[b].threshold ∧ byteAt body 18 = (if s.lau[b].present then 1 else 0) ∧
    byteAt body 19 = byte s.lau[b].lastCode ∧ (s.lau[b].lastCode ≤ 255 → field body 20 2 = s.lau[b].lastCode * 14) ∧
    byteAt body 22 = (match s.lau[b].acq with | none => 255 | some a => if a.kind = .track then 0 else 1)) ∧
  (∀ (s : State) (tag n : Byte), 4 ≤ n.toNat →
    (s.mp.canTake (.acquire tag n) = true → exec (.acquire tag n) s = .next (s.answered 0x31 tag .range [])) ∧
    (s.mp.canTake (.bankQuery tag n) = true → exec (.bankQuery tag n) s = .next (s.answered 0x32 tag .range []))) ∧
  ∀ (s : State) (b : Fin 4),
    let l := s.lau[b]
    let due := l.settings.track = true ∧ l.intervalStart + l.settings.interval * 100 ≤ s.clock
    (¬due → exec (.intervalStart b) s = .next s) ∧
    (due → l.acq = none → exec (.intervalStart b) s = .next (s.setLau b { l with
      intervalStart := s.clock, trackWaiting := false
      acq := some (Acq.begin .track l.settings) })) ∧
    (due → l.acq ≠ none → exec (.intervalStart b) s = .next (s.setLau b { l with
      intervalStart := s.clock, trackWaiting := true }))

/-- ACQUISITION_END (R71, R73, R74, R75, R79, R80, R85). The result becomes the last code. In TRACK it sets the threshold to
half of it and the rail state by up and down, together, with everything a new threshold or a rail change does to the blocks
of the bank; in FIXED they stay. A REQUESTED acquisition raises ACQ_DONE; a LEVEL record is handed over in a run where the
rail changed or trace all is set; a waiting TRACK acquisition begins. Of what a rail change does these are the model's
choices: a port counts its line's time at 1 from the rail's return (notes/assumptions/40.md), a loss clears the void mark of
a CLOCK gate (41.md), and a loss of bank D's rail ends a strobe blanking (42.md). That a new threshold is one sample for the
bank's monitors and receive line is its choice as well (18.md). -/
def Obligations.AcquisitionsEnd : Prop :=
  ∀ (s : State) (b : Fin 4) (a : Acq), s.lau[b].acq = some a →
    (a.elapsed < a.s0 + 8 * (16 * a.factor + a.s1) → exec (.acquisitionEnd b) s = .next s) ∧
    (a.s0 + 8 * (16 * a.factor + a.s1) ≤ a.elapsed →
      let l := s.lau[b]
      let up := if l.settings.track then
          (if l.present then decide (l.settings.down ≤ a.result) else decide (l.settings.up ≤ a.result))
        else l.present
      let threshold := if l.settings.track then a.result / 2 else l.threshold
      ∃ t, exec (.acquisitionEnd b) s = .next t ∧ t.mp = s.mp ∧ t.rc = s.rc ∧
        t.lau = s.lau.set b { l with
          lastCode := a.result, threshold, present := up, trackWaiting := false
          acq := if l.trackWaiting then some (Acq.begin .track l.settings) else none } b.isLt ∧
        BankTaken s t b threshold up ∧
        (a.kind = .requested → t.fu.flags.getLsbD 8 = true) ∧
        (a.kind = .track → t.fu.flags.getLsbD 8 = s.fu.flags.getLsbD 8) ∧
        (s.rc.runState = .armed ∨ s.rc.runState = .running → (l.present ≠ up ∨ l.settings.traceAll = true) →
          ∃ w ∈ t.ts.input, w.record =
            ⟨s.rc.timeBase, .level b (byte a.result) up (decide (l.present ≠ up))⟩) ∧
        (l.present = up → a.kind = .track → t.fu = s.fu) ∧
        (l.present = up → l.settings.traceAll = false → t.ts = s.ts))

/-- The successive approximation (R72): an acquisition of a steady reference lasts S0 + 8 × (16 × d + S1) ticks, and not a
tick less, and its result is the highest code of 0 to 255 whose voltage the reference is above, 0 where it is above none. At
the last sample of a decision the bit is kept where strictly more than half of the samples were above the trial voltage. A
sample of a reference exactly at the trial voltage is taken on noise (5.2), which is a free value of the model
(notes/assumptions/37.md): where the reference is a code's voltage exactly, the result is that code or the one below. -/
def Obligations.AcquisitionMeasures : Prop :=
  (∀ (kind : AcqKind) (r : BankSettings) (mv : Nat) (noise : Nat → Bool), 1 ≤ r.factor →
    let after := fun n : Nat => (List.range n).foldl (fun (a : Acq) k => a.tick mv (noise k)) (Acq.begin kind r)
    let n := r.s0 + 8 * (16 * r.factor + r.s1)
    (∀ k < n, (after k).done = false) ∧ (after n).done = true ∧
      ((after n).result = min 255 ((mv - 1) / 14) ∨ (after n).result = min 255 (mv / 14))) ∧
  ∀ (a : Acq) (mv i : Nat) (noise : Bool), 1 ≤ a.factor → i < 8 →
    a.elapsed = a.s0 + i * (16 * a.factor + a.s1) + 16 * a.factor - 1 →
    let trial := a.result + 2 ^ (7 - i)
    let above := a.above + if trial * 14 < mv ∨ (mv = trial * 14 ∧ noise = true) then 1 else 0
    (a.tick mv noise).result = (if 8 * a.factor < above then trial else a.result) ∧ (a.tick mv noise).above = 0

/-! ## Monitor channels and rate monitors (chapter 6) -/

/-- CHAN_SET, CHAN_QUERY, RATE_SET and RATE_QUERY (R82, R87, R89, R95, R71). A SET is taken in IDLE and ENDED only: a
channel takes its settings, drops a pending transition and shows its raw input where it is enabled on a PRESENT rail; a
monitor starts afresh from OFF. Values out of range are refused, those that clamp are clamped and echoed. The queries
report each channel, or the monitor named, and change nothing. That RATE_SET takes the raw input now as the monitor's first
sample is the model's reading (notes/assumptions/26.md). -/
def Obligations.ChannelsAndMonitorsAreSetAndQueried : Prop :=
  ∀ (s : State) (tag : Byte),
    (∀ c : Fin 24, s.rawMc c = decide (s.lau[chanBank c].threshold * 14 < s.pins.mc[c])) ∧
    (∀ (c : Fin 24) (r : Bytes), r.length = 7 → s.mp.canTake (.chanSet tag (byte c.val) r) = true →
      (byteAt r 0).toNat ≤ 1 → (byteAt r 1).toNat ≤ 3 →
      let set : ChanSettings := {
        enabled := decide (byteAt r 0 = 1), debounce := min 65535 (field r 3 4),
        traceRising := decide ((byteAt r 1).toNat % 2 = 1), traceFalling := decide (2 ≤ (byteAt r 1).toNat) }
      (s.rc.runState = .idle ∨ s.rc.runState = .ended → exec (.chanSet tag (byte c.val) r) s =
        .next ((s.setMc c { s.mc[c] with
          settings := set, pending := none
          level := set.enabled && s.lau[chanBank c].present && s.rawMc c }).answered 0x38 tag .ok
            (byte c.val :: set.enc))) ∧
      (s.rc.runState = .armed ∨ s.rc.runState = .running →
        exec (.chanSet tag (byte c.val) r) s = .next (s.answered 0x38 tag .state []))) ∧
    (∀ (n : Byte) (r : Bytes), r.length = 7 → s.mp.canTake (.chanSet tag n r) = true →
      24 ≤ n.toNat ∨ 4 ≤ (byteAt r 1).toNat → exec (.chanSet tag n r) s = .next (s.answered 0x38 tag .range [])) ∧
    (s.mp.canTake (.chanQuery tag) = true → ∃ body, exec (.chanQuery tag) s = .next (s.answered 0x39 tag .ok body) ∧
      body.length = 144 ∧ ∀ c : Fin 24, let m := s.mc[c]
        byteAt body (6 * c.val) = (if m.settings.enabled then 1 else 0) ∧
        (byteAt body (6 * c.val + 1)).toNat =
          (if m.settings.traceRising then 1 else 0) + (if m.settings.traceFalling then 2 else 0) ∧
        (m.settings.debounce ≤ 65535 → field body (6 * c.val + 2) 2 = m.settings.debounce) ∧
        byteAt body (6 * c.val + 4) = (if m.level then 1 else 0) ∧
        byteAt body (6 * c.val + 5) = (if m.pending.isSome then 1 else 0)) ∧
    (∀ (m : Fin 4) (r : Bytes) (mode : RateMode) (c : Fin 24), r.length = 14 →
      s.mp.canTake (.rateSet tag (byte m.val) r) = true → (byteAt r 0).toNat ≤ 1 →
      byteAt r 1 = (if mode = .tach then 0 else 1) → byteAt r 2 = byte c.val → 1 ≤ (byteAt r 3).toNat →
      (byteAt r 3).toNat ≤ 4 → field r 4 2 ≤ field r 6 2 → field r 10 2 ≠ 0 →
      let set : RateSettings := {
        enabled := decide (byteAt r 0 = 1), mode, channel := c, ppr := (byteAt r 3).toNat
        lowRpm := field r 4 2, highRpm := field r 6 2, stall := max 100 (min 5000 (field r 8 2)),
        expected := min 50000 (field r 10 2), tolerance := min 50000 (field r 12 2) }
      (s.rc.runState = .idle ∨ s.rc.runState = .ended → ∃ u : Rm, exec (.rateSet tag (byte m.val) r) s =
          .next ((s.setRm m u).answered 0x3A tag .ok (byte m.val :: set.enc)) ∧
        u = { settings := set, reading := 0, state := .off, candidate := none, agreement := 0, last := u.last,
              revolution := none, stallFrom := u.stallFrom, gateStart := s.clock, edges := 0, gateVoid := false } ∧
        (set.enabled = true → u.stallFrom = some s.clock) ∧
        (set.enabled = true → s.lau[chanBank c].present = true → u.last = some (s.rawMc c)) ∧
        (set.enabled = false ∨ s.lau[chanBank c].present = false → u.last = none)) ∧
      (s.rc.runState = .armed ∨ s.rc.runState = .running →
        exec (.rateSet tag (byte m.val) r) s = .next (s.answered 0x3A tag .state []))) ∧
    (∀ (n : Byte) (r : Bytes), r.length = 14 → s.mp.canTake (.rateSet tag n r) = true →
      (4 ≤ n.toNat ∨ 2 ≤ (byteAt r 1).toNat ∨ 24 ≤ (byteAt r 2).toNat ∨ byteAt r 3 = 0 ∨ 5 ≤ (byteAt r 3).toNat ∨
        field r 6 2 < field r 4 2 ∨ field r 10 2 = 0) →
      exec (.rateSet tag n r) s = .next (s.answered 0x3A tag .range [])) ∧
    (∀ m : Fin 4, s.mp.canTake (.rateQuery tag (byte m.val)) = true →
      exec (.rateQuery tag (byte m.val)) s = .next (s.answered 0x3B tag .ok (byte m.val :: s.rm[m].settings.enc ++
        le 2 s.rm[m].reading ++ [s.rm[m].state.code, (match s.rm[m].candidate with | none => 255 | some c => c.code),
        byte s.rm[m].agreement]))) ∧
    (∀ n : Byte, 4 ≤ n.toNat → s.mp.canTake (.rateQuery tag n) = true →
      exec (.rateQuery tag n) s = .next (s.answered 0x3B tag .range []))

/-- RAW_INPUT_CHANGE, TRANSITION_ACCEPTED and BLANKING_END (R83, R84, R85, R91, R92). A channel's raw input that
leaves the conditioned level opens a transition, one that returns drops it, and outside watching it does neither. A
transition that has held for its debounce is accepted: the level changes, the EDGE event goes to the STE whatever the
trace directions, with the time base less the debounce as its timestamp, and the EDGE record to the TS in a run where
its direction is traced. At the end of a blanking a level that differs opens a RETIMED transition. An enabled monitor of
the channel samples it while the rail is PRESENT: a first sample gives no edge, CLOCK counts a rising edge, TACH leaves a
falling edge to be taken (notes/assumptions/26.md). The other input pins move with no more than their own blocks' samples;
that RAW_INPUT_CHANGE moves them too is the model's (notes/assumptions/5.md). So is that each move is a sample of its own
(notes/assumptions/18.md). -/
def Obligations.ChannelEvents : Prop :=
  (∀ (s : State) (c : Fin 24) (mv : Nat), ∃ t, exec (.rawInputChange (.mc c) mv) s = .next t ∧
    t = { s with pins := { s.pins with mc := s.pins.mc.set c mv c.isLt }, mc := t.mc, rm := t.rm } ∧
    (∀ d : Fin 24, d ≠ c → t.mc[d] = s.mc[d]) ∧
    (∀ m : Fin 4, s.rm[m].settings.channel ≠ c → t.rm[m] = s.rm[m]) ∧
    let raw := decide (s.lau[chanBank c].threshold * 14 < mv)
    let watched := s.mc[c].settings.enabled = true ∧ s.lau[chanBank c].present = true ∧ s.mc[c].blanking = none
    (∀ m : Fin 4, s.rm[m].settings.channel = c → let r := s.rm[m]
      let reads := r.settings.enabled = true ∧ s.lau[chanBank c].present = true
      (¬reads → t.rm[m] = r) ∧ (reads → r.last = none → t.rm[m] = { r with last := some raw }) ∧
      ∀ l, reads → r.last = some l →
        (r.settings.mode = .clock → t.rm[m] = { r with
          last := some raw, edges := r.edges + if raw = true ∧ l = false then 1 else 0 }) ∧
        (r.settings.mode = .tach → t.rm[m] = { r with last := some (raw || l) })) ∧
    (¬watched → t.mc[c] = s.mc[c]) ∧
    (watched → raw = s.mc[c].level → t.mc[c] = { s.mc[c] with pending := none }) ∧
    (watched → raw ≠ s.mc[c].level → s.mc[c].pending = none → t.mc[c] = { s.mc[c] with
      pending := some { level := raw, t0 := s.clock, retimed := false } }) ∧
    (watched → raw ≠ s.mc[c].level → s.mc[c].pending ≠ none → t.mc[c] = s.mc[c])) ∧
  (∀ (s : State) (mv : Nat),
    (∀ k, exec (.rawInputChange (.data k) mv) s =
      .next { s with pins := { s.pins with data := s.pins.data.set k mv k.isLt } }) ∧
    exec (.rawInputChange .tdo mv) s = .next { s with pins := { s.pins with tdo := mv } } ∧
    ∀ b, exec (.rawInputChange (.ref b) mv) s =
      .next { s with pins := { s.pins with ref := s.pins.ref.set b mv b.isLt } }) ∧
  (∀ (s : State) (c : Fin 24) (p : Transition), s.mc[c].pending = some p →
    let hold := s.mc[c].settings.debounce * 100
    (s.clock < p.t0 + hold → exec (.transitionAccepted c) s = .next s) ∧
    (p.t0 + hold ≤ s.clock →
      let e : Event := { time := s.rc.timeBase - hold, body := .edge c (if p.level then .rising else .falling) }
      let traced := if p.level then s.mc[c].settings.traceRising else s.mc[c].settings.traceFalling
      let t := { s with
        mc := s.mc.set c { s.mc[c] with level := p.level, pending := none } c.isLt
        ste := { s.ste with events := s.ste.events ++ [e] } }
      let live := s.rc.runState = .armed ∨ s.rc.runState = .running
      (¬live ∨ traced = false → exec (.transitionAccepted c) s = .next t) ∧
      (live → traced = true → exec (.transitionAccepted c) s = .next { t with ts := { t.ts with
        input := t.ts.input ++ ([{ record := ⟨s.rc.timeBase - hold, .edge c p.level p.retimed⟩, source := .mc c,
                                   reached := s.clock, endWork := false, awaited := false }] : List Waiting) } }))) ∧
  ∀ (s : State) (c : Fin 24) (n : Nat), s.mc[c].blanking = some n →
    (s.clock < n → exec (.blankingEnd c) s = .next s) ∧
    (n ≤ s.clock →
      let pending := if s.mc[c].settings.enabled = true ∧ s.rawMc c ≠ s.mc[c].level then
          some { level := s.rawMc c, t0 := s.clock, retimed := true } else s.mc[c].pending
      exec (.blankingEnd c) s = .next (s.setMc c { s.mc[c] with blanking := none, pending }))

/-- TACH_FALLING_EDGE, STALL_EXPIRY and GATE_END (R90, R91, R92, R93, R94). A falling edge opens a revolution, counts a
period or closes it with the reading floor(6,000,000,000 / R), at most 65,535; a gate gives its count, at most 50,000. A
reading's candidate moves the state after the number of agreeing readings R90 gives, STALL at once; a void gate gives none;
the stall time makes the state STALL with reading 0. Each change of state hands on a RATE event, the RATE flag and, in a
run, a RATE record. That a falling edge waits for TACH_FALLING_EDGE is the model's (notes/assumptions/26.md). -/
def Obligations.RateMonitorEvents : Prop :=
  let judged := fun (r : Rm) (c : RateState) =>
    let need := if c = .stall then 1 else if c = .ok ∧ r.settings.mode = .clock then 4 else 2
    let n := if r.candidate = some c then r.agreement + 1 else 1
    if c = r.state then { r with candidate := none, agreement := 0 }
    else if need ≤ n then { r with state := c, candidate := none, agreement := 0 }
    else { r with candidate := some c, agreement := n }
  let reported := fun (s t : State) (m : Fin 4) (u : Rm) =>
    t.rm = s.rm.set m u m.isLt ∧
    (u.state = s.rm[m].state → t = { s with rm := t.rm }) ∧
    (u.state ≠ s.rm[m].state → t.fu.flags.getLsbD 9 = true ∧ t.mp = s.mp ∧
      t.ste.events = s.ste.events ++ [⟨s.rc.timeBase, .rate m u.state s.rm[m].state⟩] ∧
      (s.rc.runState = .armed ∨ s.rc.runState = .running →
        ∃ w ∈ t.ts.input, w.record = ⟨s.rc.timeBase, .rate m u.state u.reading u.settings.mode⟩))
  (∀ (s : State) (m : Fin 4), let r := s.rm[m]
    r.settings.enabled = true → r.settings.mode = .tach → s.lau[chanBank r.settings.channel].present = true →
    r.last = some true → s.rawMc r.settings.channel = false →
    ∃ t u, exec (.tachFallingEdge m) s = .next t ∧ reported s t m u ∧
      let r1 := { r with last := some false, stallFrom := some s.clock }
      (r.revolution = none → u = { r1 with revolution := some { opened := s.clock, periods := 0 } }) ∧
      (∀ v, r.revolution = some v → v.periods + 1 < r.settings.ppr →
        u = { r1 with revolution := some { v with periods := v.periods + 1 } }) ∧
      (∀ v, r.revolution = some v → r.settings.ppr ≤ v.periods + 1 → v.opened < s.clock →
        let reading := min 65535 (6000000000 / (s.clock - v.opened))
        u = judged { r1 with reading, revolution := some { opened := s.clock, periods := 0 } }
          (if reading < r.settings.lowRpm then .low else if r.settings.highRpm < reading then .high else .ok))) ∧
  (∀ (s : State) (m : Fin 4) (n : Nat), let r := s.rm[m]
    r.settings.enabled = true → r.settings.mode = .tach → r.stallFrom = some n →
    (s.clock < n + r.settings.stall * 100000 → exec (.stallExpiry m) s = .next s) ∧
    (n + r.settings.stall * 100000 ≤ s.clock → ∃ t, exec (.stallExpiry m) s = .next t ∧ reported s t m
      { r with revolution := none, reading := 0, candidate := none, agreement := 0, state := .stall, stallFrom := none })) ∧
  ∀ (s : State) (m : Fin 4), let r := s.rm[m]
    r.settings.enabled = true → r.settings.mode = .clock →
    (s.clock < r.gateStart + 100000 → exec (.gateEnd m) s = .next s) ∧
    (r.gateStart + 100000 ≤ s.clock → ∃ t u, exec (.gateEnd m) s = .next t ∧ reported s t m u ∧
      let r1 := { r with gateStart := s.clock, edges := 0, gateVoid := false }
      (r.gateVoid = true → u = r1) ∧
      (r.gateVoid = false → let reading := min 50000 r.edges
        u = judged { r1 with reading }
          (if r.edges = 0 then .stall else if reading + r.settings.tolerance < r.settings.expected then .low
            else if r.settings.expected + r.settings.tolerance < reading then .high else .ok)))

/-! ## The code port (chapter 7) -/

/-- CODE_SET, CODE_HISTORY and its clear (R100, R101, R102, 12.6). An accepted CODE_SET takes the settings, makes the fold
timer EXPIRED and STB's level the reference where it is watched, and leaves history and open record; it is refused in a run
and for an unknown strobe edge or a list above 4. CODE_HISTORY reports the port; with the clear option yes the history is
emptied after the report, once the events handed over before have been delivered, so that no reconstruction undoes the
clear; that all of them are is the model's choice (notes/assumptions/34.md). That during a strobe blanking the reference is
then none is the model's reading of R96 and R101 (notes/assumptions/17.md). That a notice placed by a request becomes ready
together with its reply is the model's reading of R137 (47.md). -/
def Obligations.CodePortIsSetAndRead : Prop :=
  ∀ (s : State) (tag : Byte),
    (∀ (r : Bytes) (dir : Dir), r.length = 10 → s.mp.canTake (.codeSet tag r) = true → (byteAt r 0).toNat ≤ 1 →
      byteAt r 1 = (if dir = .rising then 0 else 1) → (byteAt r 2).toNat ≤ 1 → (byteAt r 3).toNat ≤ 4 →
      let set : CodeSettings := {
        enabled := decide (byteAt r 0 = 1), strobe := dir, foldWindow := min 60000 (field r 8 2)
        ignoreList := (r.drop 4).take (byteAt r 3).toNat, trace := decide (byteAt r 2 = 1) }
      (s.rc.runState = .idle ∨ s.rc.runState = .ended →
        exec (.codeSet tag r) s = .next ((s.setCdp { s.cdp with
          settings := set, foldFrom := none
          reference := if set.enabled = true ∧ s.lau[(3 : Fin 4)].present = true ∧ s.cdp.blanking = none then
              some s.readStb else none }).answered 0x40 tag .ok set.enc)) ∧
      (s.rc.runState = .armed ∨ s.rc.runState = .running →
        exec (.codeSet tag r) s = .next (s.answered 0x40 tag .state []))) ∧
    (∀ r : Bytes, r.length = 10 → s.mp.canTake (.codeSet tag r) = true →
      2 ≤ (byteAt r 1).toNat ∨ 5 ≤ (byteAt r 3).toNat →
      exec (.codeSet tag r) s = .next (s.answered 0x40 tag .range [])) ∧
    ∃ body : Bytes,
      (s.mp.canTake (.codeHistory tag 0) = true →
        exec (.codeHistory tag 0) s = .next (s.answered 0x41 tag .ok body)) ∧
      (s.mp.canTake (.codeHistoryClear tag) = true → ∃ u,
        delivered s.ste.events.length { s with mp := { s.mp with queue := s.mp.queue.tail } } u ∧
        (∀ x ∈ u.ste.events, ∀ code prior, x.body ≠ .code code prior) ∧ u.cdp = s.cdp ∧ exec (.codeHistoryClear tag) s = .next { u with
          cdp := { u.cdp with history := [] }
          mp := { u.mp with
            reply := some { kind := 0x41, tag, status := .ok, body }
            together := u.mp.together || decide (s.fu.slot = 0 ∧ u.fu.slot ≠ 0) } }) ∧
      (s.cdp.settings.ignoreList.length ≤ 4 →
        body.length = 26 + 3 * s.cdp.history.length ∧ body.take 10 = s.cdp.settings.enc ∧
        byteAt body 10 = (if s.cdp.foldFrom = none then 1 else 0) ∧
        (s.cdp.pending = none → ∀ i < 14, byteAt body (11 + i) = 0) ∧
        (∀ p, s.cdp.pending = some p → byteAt body 11 = 1 ∧ byteAt body 12 = p.code ∧
          (p.count < 2 ^ 16 → field body 13 2 = p.count) ∧ (p.first < 2 ^ 40 → field body 15 5 = p.first) ∧
          (p.last < 2 ^ 40 → field body 20 5 = p.last)) ∧
        byteAt body 25 = byte s.cdp.history.length ∧
        ∀ i e, s.cdp.history[i]? = some e → byteAt body (26 + 3 * i) = e.code ∧
          (e.count < 2 ^ 16 → field body (27 + 3 * i) 2 = e.count))

/-- STROBE_EDGE, STROBE_BLANKING_END, FOLD_TIMER_EXPIRY and the samples of STB (R96, R97, R98, R99, R100). A strobe edge
while STB is watched captures D0..D7. A code on the ignore list does nothing more. Any other restarts the fold timer, folds
into the head or makes a new one, delivers a CODE event with the prior head's code, raises CODE, and in a run with trace on
adds to the open record, or closes it and opens the next. The timer's expiry closes the open record; a blanking's end takes
the first sample as the reference. That RAW_INPUT_CHANGE moves STB and that each move is a sample of its own is the model's
(notes/assumptions/5.md, 18.md). -/
def Obligations.CodePortEvents : Prop :=
  (∀ s : State, s.readStb = decide (s.lau[(3 : Fin 4)].threshold * 14 < s.pins.stb) ∧
    ∀ k : Fin 8, s.readData.getLsbD k.val = decide (s.lau[(3 : Fin 4)].threshold * 14 < s.pins.data[k])) ∧
  (∀ s : State,
    let c := s.cdp
    let level := decide (c.settings.strobe = .rising)
    let edge := c.settings.enabled = true ∧ s.lau[(3 : Fin 4)].present = true ∧ c.blanking = none ∧ s.readStb = level ∧
      c.reference = some (!level)
    let code := s.readData
    let now := s.rc.timeBase
    let folds := c.foldFrom ≠ none ∧ ∃ h hs, c.history = h :: hs ∧ h.code = code ∧ h.count < 65535
    (¬edge → exec .strobeEdge s = .next s) ∧
    (edge → code ∈ c.settings.ignoreList →
      exec .strobeEdge s = .next (s.setCdp { c with reference := some level })) ∧
    (edge → code ∉ c.settings.ignoreList → ∃ t, exec .strobeEdge s = .next t ∧ t.mp = s.mp ∧ t.rc = s.rc ∧
      t.cdp = { c with
        reference := some level, history := t.cdp.history, pending := t.cdp.pending
        foldFrom := if c.settings.foldWindow = 0 then none else some s.clock } ∧
      (∀ h hs, folds → c.history = h :: hs → t.cdp.history = { h with count := h.count + 1 } :: hs) ∧
      (¬folds → t.cdp.history = ({ code, count := 1 } :: c.history).take 16) ∧
      t.ste = { s.ste with events := s.ste.events ++ [⟨now, .code code (c.history.head?.map CodeEntry.code)⟩] } ∧
      t.fu.flags.getLsbD 10 = true ∧
      (s.live = false ∨ c.settings.trace = false → t.cdp.pending = c.pending ∧ t.ts = s.ts) ∧
      (s.live = true → c.settings.trace = true →
        (∀ p, c.pending = some p → folds →
          t.cdp.pending = some { p with count := p.count + 1, last := now } ∧ t.ts = s.ts) ∧
        (c.pending = none ∨ ¬folds →
          (c.settings.foldWindow ≠ 0 → t.cdp.pending = some { code, count := 1, first := now, last := now } ∧
            (c.pending = none → t.ts = s.ts)) ∧
          (c.settings.foldWindow = 0 → t.cdp.pending = none ∧
            ∃ w ∈ t.ts.input, w.record = ⟨now, .code code 1 now⟩) ∧
          ∀ p, c.pending = some p → ∃ w ∈ t.ts.input, w.record = ⟨p.first, .code p.code p.count p.last⟩)))) ∧
  (∀ (s : State) (n : Nat), s.cdp.blanking = some n →
    (s.clock < n → exec .strobeBlankingEnd s = .next s) ∧
    (n ≤ s.clock → exec .strobeBlankingEnd s = .next (s.setCdp { s.cdp with
      blanking := none
      reference := if s.cdp.settings.enabled = true ∧ s.lau[(3 : Fin 4)].present = true then some s.readStb
        else none }))) ∧
  (∀ (s : State) (n : Nat), s.cdp.foldFrom = some n →
    (s.clock < n + s.cdp.settings.foldWindow * 100000 → exec .foldTimerExpiry s = .next s) ∧
    (n + s.cdp.settings.foldWindow * 100000 ≤ s.clock →
      (s.cdp.pending = none → exec .foldTimerExpiry s = .next (s.setCdp { s.cdp with foldFrom := none })) ∧
      ∀ p, s.cdp.pending = some p → s.live = true → ∃ w : Waiting,
        w.record = ⟨p.first, .code p.code p.count p.last⟩ ∧
        exec .foldTimerExpiry s = .next { s with
          cdp := { s.cdp with foldFrom := none, pending := none }
          ts := { s.ts with input := s.ts.input ++ [w] } })) ∧
  ∀ (s : State) (mv : Nat),
    let raw := decide (s.lau[(3 : Fin 4)].threshold * 14 < mv)
    let level := decide (s.cdp.settings.strobe = .rising)
    let watched := s.cdp.settings.enabled = true ∧ s.lau[(3 : Fin 4)].present = true ∧ s.cdp.blanking = none
    exec (.rawInputChange .stb mv) s = .next { s with
      pins := { s.pins with stb := mv }
      cdp := { s.cdp with
        reference := if watched ∧ ¬(raw = level ∧ s.cdp.reference = some (!level)) then some raw
          else s.cdp.reference } }

/-! ## Console ports and text matchers (chapter 8) -/

/-- CONS_SET, CONS_SEND and CONS_QUERY (R104, R108, R109, R111, 12.6). An accepted CONS_SET abandons reception and
transmission, counting the bytes removed, restarts the port's matchers and puts the receiver in WAIT_IDLE. CONS_SEND is
judged in the order of R108; accepted, its bytes join the queue and an idle transmitter starts on the oldest at once. The
query's 30 bytes report the port. That the reply counts the queue before the transmitter takes a byte is the model's reading
of R108 (notes/assumptions/16.md). That WAIT_IDLE counts the line's time at 1 from the CONS_SET on is its choice (40.md).
That a notice placed by a request becomes ready together with its reply is the model's reading of R137 (47.md). -/
def Obligations.ConsolePortsAreSetAndFed : Prop :=
  ∀ (s : State) (tag : Byte),
    (∀ (p : Fin 2) (r : Bytes) (baud : Baud) (fmt : Format), r.length = 5 →
      s.mp.canTake (.consSet tag (byte p.val) r) = true → (byteAt r 0).toNat ≤ 1 → byteAt r 1 = byte baud.val →
      byteAt r 2 = (match fmt with | .f8N1 => 0 | .f8E1 => 1 | .f8O1 => 2) → (byteAt r 4).toNat ≤ 1 →
      let set : ConsSettings := {
        enabled := decide (byteAt r 0 = 1), baud, format := fmt, idleGap := max 1 (byteAt r 3).toNat
        echo := decide (byteAt r 4 = 1) }
      let c := s.cp[p]
      let unsent := c.queue.length + if c.inFlight = none then 0 else 1
      (s.rc.runState = .idle ∨ s.rc.runState = .ended → ∃ t : State,
        exec (.consSet tag (byte p.val) r) s = .next (t.answeredFrom s 0x48 tag .ok (byte p.val :: set.enc)) ∧
        t = { (s.raiseIf (decide (0 < unsent)) .txDrop).setCp p { c with
          settings := set, rx := .waitIdle, bits := [], held := false
          highSince := if s.readRx p then some s.clock else none
          queue := [], inFlight := none, discards := min 4294967295 (c.discards + unsent) } with tm := t.tm } ∧
        ∀ m : Fin 8, t.tm[m] = if s.tm[m].settings.port = p then { s.tm[m] with progress := 0 } else s.tm[m]) ∧
      (s.rc.runState = .armed ∨ s.rc.runState = .running →
        exec (.consSet tag (byte p.val) r) s = .next (s.answered 0x48 tag .state []))) ∧
    (∀ (n : Byte) (r : Bytes), r.length = 5 → s.mp.canTake (.consSet tag n r) = true →
      2 ≤ n.toNat ∨ 8 ≤ (byteAt r 1).toNat ∨ 3 ≤ (byteAt r 2).toNat →
      exec (.consSet tag n r) s = .next (s.answered 0x48 tag .range [])) ∧
    (∀ (n : Byte) (b : Bytes), b.length ≤ 255 → s.mp.canTake (.consSend tag n b) = true →
      2 ≤ n.toNat ∨ b.length = 0 ∨ 240 < b.length →
      exec (.consSend tag n b) s = .next (s.answered 0x49 tag .range [])) ∧
    (∀ (p : Fin 2) (b : Bytes), 1 ≤ b.length → b.length ≤ 240 → s.mp.canTake (.consSend tag (byte p.val) b) = true →
      let c := s.cp[p]
      let enabled := c.settings.enabled = true
      let up := s.lau[portBank p].present = true
      let refused := fun st => exec (.consSend tag (byte p.val) b) s = .next (s.answered 0x49 tag st [])
      (¬enabled → refused .state) ∧ (enabled → ¬up → refused .rail) ∧
      (enabled → up → 256 < c.queue.length + b.length → refused .full) ∧
      (enabled → up → c.queue.length + b.length ≤ 256 → ∀ x xs, c.queue ++ b = x :: xs →
        exec (.consSend tag (byte p.val) b) s = .next ((s.setCp p (
          if c.inFlight = none then
            { c with queue := xs, inFlight := some { byte := x, started := s.clock, complete := false } }
          else { c with queue := c.queue ++ b })).answered 0x49 tag .ok (le 2 (c.queue.length + b.length))))) ∧
    (∀ p : Fin 2, s.mp.canTake (.consQuery tag (byte p.val)) = true → ∃ body,
      exec (.consQuery tag (byte p.val)) s = .next (s.answered 0x4A tag .ok body) ∧ body.length = 30 ∧
      let c := s.cp[p]
      byteAt body 0 = byte p.val ∧ (body.drop 1).take 5 = c.settings.enc ∧
      byteAt body 6 = (if c.settings.enabled = true ∧ s.lau[portBank p].present = true then
        (match c.rx with | .waitIdle => 1 | .idle => 2 | .receiving => 3 | .waitHigh => 4) else 0) ∧
      (c.rxFragment = none → ∀ i < 8, byteAt body (7 + i) = 0) ∧
      (∀ f, c.rxFragment = some f → byteAt body 7 = 1 ∧ byteAt body 8 = byte f.bytes.length ∧
        (byteAt body 9).toNat = f.error.toNat + 2 * f.brk.toNat ∧ (f.first < 2 ^ 40 → field body 10 5 = f.first)) ∧
      (c.txFragment = none → ∀ i < 7, byteAt body (15 + i) = 0) ∧
      (∀ f, c.txFragment = some f → byteAt body 15 = 1 ∧ byteAt body 16 = byte f.bytes.length ∧
        (f.first < 2 ^ 40 → field body 17 5 = f.first)) ∧
      (c.queue.length < 2 ^ 16 → field body 22 2 = c.queue.length) ∧
      byteAt body 24 = (if c.inFlight = none then 0 else 1) ∧ (c.discards < 2 ^ 32 → field body 26 4 = c.discards)) ∧
    (∀ n : Byte, 2 ≤ n.toNat → s.mp.canTake (.consQuery tag n) = true →
      exec (.consQuery tag n) s = .next (s.answered 0x4A tag .range []))

/-- MATCH_SET, MATCH_QUERY and the search (R112, R114). An accepted MATCH_SET replaces the settings and sets the progress to
0; it is refused in a run and out of range. The search: after any bytes taken from progress 0 without a hit before the last
of them, the progress is the length of the longest prefix of the pattern that the bytes end with. -/
def Obligations.MatchersAreSetAndSearch : Prop :=
  (∀ (s : State) (tag : Byte),
    (∀ (m : Fin 8) (r : Bytes) (p : Fin 2), r.length = 36 → s.mp.canTake (.matchSet tag (byte m.val) r) = true →
      (byteAt r 0).toNat ≤ 1 → byteAt r 1 = byte p.val → (byteAt r 2).toNat ≤ 1 → 1 ≤ (byteAt r 3).toNat →
      (byteAt r 3).toNat ≤ 32 →
      let set : MatchSettings := {
        enabled := decide (byteAt r 0 = 1), port := p, caseInsensitive := decide (byteAt r 2 = 1)
        pattern := (r.drop 4).take (byteAt r 3).toNat }
      (s.rc.runState = .idle ∨ s.rc.runState = .ended → exec (.matchSet tag (byte m.val) r) s =
        .next ((s.setTm m { settings := set, progress := 0 }).answered 0x4B tag .ok (byte m.val :: set.enc))) ∧
      (s.rc.runState = .armed ∨ s.rc.runState = .running →
        exec (.matchSet tag (byte m.val) r) s = .next (s.answered 0x4B tag .state []))) ∧
    (∀ (n : Byte) (r : Bytes), r.length = 36 → s.mp.canTake (.matchSet tag n r) = true →
      8 ≤ n.toNat ∨ 2 ≤ (byteAt r 1).toNat ∨ byteAt r 3 = 0 ∨ 33 ≤ (byteAt r 3).toNat →
      exec (.matchSet tag n r) s = .next (s.answered 0x4B tag .range [])) ∧
    (∀ m : Fin 8, s.mp.canTake (.matchQuery tag (byte m.val)) = true → exec (.matchQuery tag (byte m.val)) s =
      .next (s.answered 0x4C tag .ok (byte m.val :: (s.tm[m].settings.enc ++ [byte s.tm[m].progress])))) ∧
    (∀ n : Byte, 8 ≤ n.toNat → s.mp.canTake (.matchQuery tag n) = true →
      exec (.matchQuery tag n) s = .next (s.answered 0x4C tag .range []))) ∧
  ∀ (r : MatchSettings) (taken : Bytes), r.pattern ≠ [] →
    let progress := fun bytes : Bytes =>
      (bytes.foldl (fun t b => { t with progress := t.advance b }) ({ settings := r, progress := 0 } : Tm)).progress
    (∀ k < taken.length, progress (taken.take k) < r.pattern.length) →
    endsWithPrefix r.caseInsensitive r.pattern taken (progress taken) ∧
    ∀ n, endsWithPrefix r.caseInsensitive r.pattern taken n → n ≤ progress taken

/-- The receiver (R105, R106, R107, R112, R113): WAIT_IDLE_EXPIRY, START_EDGE, START_BIT_GLITCH, BYTE_ARRIVAL,
HELD_FRAME_TAKEN, BREAK, WAIT_HIGH_RECOVERY and the bit samples, with every time kept exactly as a fraction of the bit time
100,000,000 / baud. Each acts on an enabled port with the rail PRESENT. A break needs the line at 0 ever since the start
edge. The model's own are: that RAW_INPUT_CHANGE moves a line and each move is a sample (notes/assumptions/5.md, 18.md), that
the samples of a tick see the line before the moves of that tick (39.md), and that a held frame whose stop bit came before
ARM joins no fragment (14.md). -/
def Obligations.ReceiverEvents : Prop :=
  (∀ (s : State) (p : Fin 2), s.readRx p = decide (s.lau[portBank p].threshold * 14 < s.pins.rx[p]) ∧
    ∀ mv, ∃ h, exec (.rawInputChange (.rx p) mv) s = .next ({ s with
        pins := { s.pins with rx := s.pins.rx.set p mv p.isLt } }.setCp p { s.cp[p] with
          highSince := h, steadyLow := s.cp[p].steadyLow && !decide (s.lau[portBank p].threshold * 14 < mv) }) ∧
      (mv ≤ s.lau[portBank p].threshold * 14 → h = none) ∧
      (s.lau[portBank p].threshold * 14 < mv → h = some (s.cp[p].highSince.getD s.clock))) ∧
  (∀ b : Baud, baudRate b = ([9600, 19200, 38400, 57600, 115200, 230400, 460800, 921600].getD b.val 0)) ∧
  (∀ (c : Cp) (clock : Nat) (high : Bool), c.rxStart ≤ clock →
    let k := c.bits.length
    let sampled := c.rx = .receiving ∧ c.held = false ∧ k < (if c.settings.format = .f8N1 then 9 else 10) ∧
      (2 * k + 1) * 100000000 ≤ 2 * (clock - c.rxStart) * baudRate c.settings.baud ∧ ¬(k = 0 ∧ high = true)
    (sampled → c.tick clock high = { c with bits := c.bits ++ [high] }) ∧ (¬sampled → c.tick clock high = c)) ∧
  ∀ (s : State) (p : Fin 2), s.cp[p].settings.enabled = true → s.lau[portBank p].present = true →
    let c := s.cp[p]
    let rate := baudRate c.settings.baud
    let stop := if c.settings.format = .f8N1 then 9 else 10
    let since := s.clock - c.rxStart
    let at_ := fun rx => { c with rx, bits := [], held := false }
    let line := s.readRx p
    (∀ n, c.rx = .waitIdle → c.highSince = some n → (stop + 1) * 100000000 ≤ (s.clock - n) * rate →
      exec (.waitIdleExpiry p) s = .next (s.setCp p (at_ .idle))) ∧
    (∀ n, c.rx = .waitIdle → c.highSince = some n → (s.clock - n) * rate < (stop + 1) * 100000000 →
      exec (.waitIdleExpiry p) s = .next s) ∧
    (c.rx = .idle → line = false →
      exec (.startEdge p) s = .next (s.setCp p { at_ .receiving with rxStart := s.clock, steadyLow := true })) ∧
    (c.rx = .receiving → c.bits = [] → 100000000 ≤ 2 * since * rate → line = true →
      exec (.startBitGlitch p) s = .next (s.setCp p (at_ .idle))) ∧
    (c.rx = .receiving → c.held = false → c.bits.length = stop → (2 * stop + 1) * 100000000 ≤ 2 * since * rate →
      (line = false → (∀ b ∈ c.bits, b = false) →
        exec (.byteArrival p) s = .next (s.setCp p { c with held := true })) ∧
      (line = true ∨ true ∈ c.bits → ∀ v : Byte, (∀ i < 8, v.getLsbD i = c.bits.getD (i + 1) false) →
        let ones := (c.bits.drop 1).count true
        let parity := match c.settings.format with
          | .f8N1 => true
          | .f8E1 => decide (ones % 2 = 0)
          | .f8O1 => decide (ones % 2 = 1)
        ∃ t, exec (.byteArrival p) s = .next t ∧ t.mp = s.mp ∧ t.rc = s.rc ∧
          t.cp[p] = { at_ (if line then .idle else .waitHigh) with rxFragment := t.cp[p].rxFragment } ∧
          ByteTaken s t p v s.rc.timeBase (!(line && parity)))) ∧
    (c.rx = .receiving → c.held = true → line = true →
      let ago := since - ((2 * stop + 1) * 100000000 + 2 * rate - 1) / (2 * rate)
      ∃ t, exec (.heldFrameTaken p) s = .next t ∧ t.mp = s.mp ∧ t.rc = s.rc ∧
        t.cp[p] = { at_ .idle with rxFragment := t.cp[p].rxFragment } ∧
        (ago ≤ s.rc.timeBase → ByteTaken s t p 0 (s.rc.timeBase - ago) true) ∧
        (s.rc.timeBase < ago → t.ts = s.ts ∧ t.cp[p].rxFragment = c.rxFragment)) ∧
    (c.steadyLow = false ∨ line = true ∨ since * rate ≤ (stop + 1) * 100000000 → exec (.breakSeen p) s = .next s) ∧
    (c.rx = .receiving → c.held = true → c.steadyLow = true → line = false →
      (stop + 1) * 100000000 < since * rate → ∃ t, exec (.breakSeen p) s = .next t ∧ t.mp = s.mp ∧
        t.cp[p] = { at_ .waitHigh with rxFragment := none } ∧
        (∀ m : Fin 8, s.tm[m].settings.port = p → t.tm[m] = { s.tm[m] with progress := 0 }) ∧
        (c.rxFragment = none → t.ts = s.ts) ∧
        ∀ f, c.rxFragment = some f → s.live = true →
          ∃ w, t.ts.input = s.ts.input ++ [w] ∧ w.record = ⟨f.first, .text p .rx f.bytes f.error true⟩) ∧
    (c.rx = .waitHigh → line = true → exec (.waitHighRecovery p) s = .next (s.setCp p (at_ .idle)))

/-- The transmitter and the idle gap (R107, R109): BYTE_SEND_TIME, BYTE_SENT and IDLE_GAP_EXPIRY. At the middle of its stop
bit the byte in flight is complete, and with the echo on joins the transmit fragment of a run; at the end of its frame the
next byte of the queue begins at once; an idle gap after the last byte closes a fragment of either direction. The transmit
pin is released on a port that is disabled or whose rail is ABSENT, 1 with no byte in flight, and else shows the start bit,
the data bits from bit 0 on, the parity bit where there is one, and the stop bit, each for one bit time. That a gap may run
out while a frame that arrived within it is held is the model's choice (notes/assumptions/38.md). -/
def Obligations.TransmitterAndIdleGap : Prop :=
  ∀ (s : State) (p : Fin 2),
    let c := s.cp[p]
    let rate := baudRate c.settings.baud
    let stop := if c.settings.format = .f8N1 then 9 else 10
    (∀ f, c.inFlight = some f → f.complete = false →
      (2 * (s.clock - f.started) * rate < (2 * stop + 1) * 100000000 → exec (.byteSendTime p) s = .next s) ∧
      ((2 * stop + 1) * 100000000 ≤ 2 * (s.clock - f.started) * rate →
        (c.settings.echo = false → exec (.byteSendTime p) s =
          .next (s.setCp p { c with inFlight := some { f with complete := true } })) ∧
        (c.settings.echo = true → ∃ t, exec (.byteSendTime p) s = .next t ∧
          t.cp[p] = { c with inFlight := some { f with complete := true }, txFragment := t.cp[p].txFragment } ∧
          t.tm = s.tm ∧ FragmentTakes s t p .tx f.byte s.rc.timeBase false))) ∧
    (∀ f, c.inFlight = some f → f.complete = true → (stop + 1) * 100000000 ≤ (s.clock - f.started) * rate →
      (c.queue = [] → exec (.byteSent p) s = .next (s.setCp p { c with inFlight := none })) ∧
      ∀ x xs, c.queue = x :: xs → exec (.byteSent p) s = .next (s.setCp p { c with
        queue := xs, inFlight := some { byte := x, started := s.clock, complete := false } })) ∧
    (∀ f, c.inFlight = some f → (s.clock - f.started) * rate < (stop + 1) * 100000000 →
      exec (.byteSent p) s = .next s) ∧
    (c.settings.enabled = false ∨ s.lau[portBank p].present = false → s.txPin p = none) ∧
    (c.settings.enabled = true → s.lau[portBank p].present = true →
      (c.inFlight = none → s.txPin p = some true) ∧
      ∀ f, c.inFlight = some f → f.started ≤ s.clock →
        let sent := (s.clock - f.started) * rate
        (sent < 100000000 → s.txPin p = some false) ∧
        (∀ k < 8, (k + 1) * 100000000 ≤ sent → sent < (k + 2) * 100000000 → s.txPin p = some (f.byte.getLsbD k)) ∧
        (∀ pin, s.txPin p = some pin → 9 * 100000000 ≤ sent → sent < 10 * 100000000 →
          let ones := ((List.range 8).filter f.byte.getLsbD).length + if pin then 1 else 0
          (c.settings.format = .f8E1 → ones % 2 = 0) ∧ (c.settings.format = .f8O1 → ones % 2 = 1)) ∧
        s.txPin p ≠ none ∧ (stop * 100000000 ≤ sent → s.txPin p = some true)) ∧
    ∀ (d : TextDir) (f : Fragment), c.fragment d = some f → s.live = true →
      (s.rc.timeBase < f.last + c.settings.idleGap * 100000 → exec (.idleGapExpiry p d) s = .next s) ∧
      (f.last + c.settings.idleGap * 100000 ≤ s.rc.timeBase → ∃ w : Waiting,
        w.record = ⟨f.first, .text p d f.bytes f.error f.brk⟩ ∧ exec (.idleGapExpiry p d) s = .next {
          s.setCp p (c.setFragment d none) with ts := { s.ts with input := s.ts.input ++ [w] } })

/-! ## Drive channels (chapter 9) -/

/-- DRIVE_SET (9.3 to 9.6: R117, R118, R119, R120). It is judged RANGE, DENIED, RAIL in that order and refused whole.
Accepted, the settings part acts first, then the forced release of a gating switched on while the rail is ABSENT, with its
record and DRIVE_BLOCK, then the operation by the table of R117; in a run each change of drive mode, and a START_PULSE on a
RUNNING generator, hands over a DRIVE record with cause STATION; the reply gives the drive mode and the settings. That an
operation byte outside the six comes as DRIVE_SET_NONE is the model's choice (notes/assumptions/24.md). That a notice placed
by a request becomes ready together with its reply is the model's reading of R137 (47.md). -/
def Obligations.DriveSetActs : Prop :=
  let command := fun (tag n : Byte) (op : Option DriveOp) (part : Bytes) => match op with
    | none => Instr.driveSetNone tag n 255 part
    | some .release => .driveSetRelease tag n part
    | some .low => .driveSetLow tag n part
    | some .high => .driveSetHigh tag n part
    | some .startPulse => .driveSetStartPulse tag n part
    | some .stopPulse => .driveSetStopPulse tag n part
  ∀ (s : State) (tag : Byte),
    (∀ (n : Byte) (op : Option DriveOp) (part : Bytes), part.length = 0 ∨ part.length = 10 →
      s.mp.canTake (command tag n op part) = true →
      (8 ≤ n.toNat ∨ (part.length = 10 ∧ (2 ≤ (byteAt part 0).toNat ∨ 2 ≤ (byteAt part 1).toNat ∨
        2 ≤ (byteAt part 4).toNat ∨ 15 ≤ (byteAt part 3).toNat ∨ field part 6 2 = 0 ∨ field part 8 2 = 0)) →
      exec (command tag n op part) s = .next (s.answered 0x50 tag .range [])) ∧
    (∀ (n op : Byte) (part : Bytes), part.length = 0 ∨ part.length = 10 → 5 ≤ op.toNat → op ≠ 255 →
      s.mp.canTake (.driveSetNone tag n op part) = true →
      exec (.driveSetNone tag n op part) s = .next (s.answered 0x50 tag .range [])) ∧
    ∀ (c : Fin 8) (op : Option DriveOp) (part : Option DrivePart),
      (∀ r, part = some r → r.values.prescaler ≤ 14 ∧ 1 ≤ r.values.a ∧ r.values.a ≤ 65535 ∧ 1 ≤ r.values.b ∧
        r.values.b ≤ 65535) →
      let cmd := command tag (byte c.val) op (match part with | none => [] | some r => r.enc)
      let gated := match part with | none => s.dc[c].railGated | some r => r.railGated
      let up := s.lau[driveBank c].present
      let drives := op = some .low ∨ op = some .high ∨ op = some .startPulse
      s.mp.canTake cmd = true →
      (s.permitMask.getLsbD c.val = false → exec cmd s = .next (s.answered 0x50 tag .denied [])) ∧
      (s.permitMask.getLsbD c.val = true → drives → gated = true → up = false →
        exec cmd s = .next (s.answered 0x50 tag .rail [])) ∧
      (s.permitMask.getLsbD c.val = true → (drives → gated = true → up = true) →
        let d1 : Dc := match part with
          | none => s.dc[c]
          | some r => { s.dc[c] with
              openDrain := r.openDrain, activeHigh := r.activeHigh, railGated := r.railGated, buffered := r.values }
        let forced := part.isSome && gated && !up && decide (d1.mode ≠ .released)
        let still := { d1 with running := false, counter := 0, subTicks := 0, activeLevel := false }
        let d2 := if forced then { still with mode := .released } else d1
        let still2 := { d2 with running := false, counter := 0, subTicks := 0, activeLevel := false }
        let d3 : Dc := match op with
          | none => d2
          | some .release => { still2 with mode := .released }
          | some .low => { still2 with mode := .low }
          | some .high => { still2 with mode := .high }
          | some .startPulse => { still2 with mode := .pulse, running := true, active := d2.buffered }
          | some .stopPulse => if d2.mode = .pulse then still2 else d2
        let recorded := d3.driveMode ≠ d2.driveMode ∨ (op = some .startPulse ∧ d2.running = true)
        ∃ t : State, exec cmd s = .next (t.answeredFrom s 0x50 tag .ok ([byte c.val, d3.driveMode.code] ++
            ({ openDrain := d3.openDrain, activeHigh := d3.activeHigh, railGated := d3.railGated,
               values := d3.buffered } : DrivePart).enc)) ∧
          t = { s.setDc c d3 with fu := t.fu, ts := { s.ts with input := t.ts.input } } ∧
          t.fu = (if forced then (s.raise .driveBlock).fu else s.fu) ∧
          (s.live = false → t.ts.input = s.ts.input) ∧
          (s.live = true → t.ts.input.map Waiting.record = s.ts.input.map Waiting.record ++
            (if forced then [⟨s.rc.timeBase, .drive c .released .rail⟩] else []) ++
            (if recorded then [⟨s.rc.timeBase, .drive c d3.driveMode .station⟩] else []))))

/-- PERMIT_SET, PERMIT_LOCK and DRIVE_QUERY (R115, R121, R122). PERMIT_SET is refused with STATE in a run, then with LOCKED;
accepted, it replaces the mask, each channel it removes is RELEASED with its generator stopped and no record, and one that
was driving raises DRIVE_BLOCK. PERMIT_LOCK sets the lock. The query's 22 bytes report the channel, its pin and the mask.
That a notice placed by a request becomes ready together with its reply is the model's reading of R137 (47.md). -/
def Obligations.PermitAndDriveQuery : Prop :=
  ∀ (s : State) (tag : Byte),
    (∀ mask : Byte, s.mp.canTake (.permitSet tag mask) = true →
      let gone := fun c : Fin 8 => s.permitMask.getLsbD c.val && !mask.getLsbD c.val
      (s.live = true → exec (.permitSet tag mask) s = .next (s.answered 0x52 tag .state [])) ∧
      (s.live = false → s.permitLock = true → exec (.permitSet tag mask) s = .next (s.answered 0x52 tag .locked [])) ∧
      (s.live = false → s.permitLock = false → ∃ t : State,
        exec (.permitSet tag mask) s = .next (t.answeredFrom s 0x52 tag .ok [mask, 0]) ∧
        t = { s with permitMask := mask, dc := t.dc, fu := t.fu } ∧
        (∀ c : Fin 8, t.dc[c] = if gone c then
          { s.dc[c] with mode := .released, running := false, counter := 0, subTicks := 0, activeLevel := false }
          else s.dc[c]) ∧
        ((∃ c, gone c = true ∧ s.dc[c].mode ≠ .released) → t.fu = (s.raise .driveBlock).fu) ∧
        ((∀ c, gone c = true → s.dc[c].mode = .released) → t.fu = s.fu))) ∧
    (s.mp.canTake (.permitLock tag) = true →
      exec (.permitLock tag) s = .next ({ s with permitLock := true }.answered 0x53 tag .ok [])) ∧
    (∀ c : Fin 8, s.mp.canTake (.driveQuery tag (byte c.val)) = true → ∃ body,
      exec (.driveQuery tag (byte c.val)) s = .next (s.answered 0x51 tag .ok body) ∧ body.length = 22 ∧
      let d := s.dc[c]
      let values := fun (at_ : Nat) (v : GenValues) => (v.prescaler ≤ 14 → (byteAt body at_).toNat = v.prescaler) ∧
        byteAt body (at_ + 1) = (if v.rep then 1 else 0) ∧ (v.a < 2 ^ 16 → field body (at_ + 2) 2 = v.a) ∧
        (v.b < 2 ^ 16 → field body (at_ + 4) 2 = v.b)
      byteAt body 0 = byte c.val ∧
      byteAt body 1 = (match d.mode with | .released => 0 | .low => 1 | .high => 2 | .pulse => if d.running then 3 else 4) ∧
      (d.counter < 2 ^ 16 → field body 2 2 = d.counter) ∧ byteAt body 4 = (if d.openDrain then 1 else 0) ∧
      byteAt body 5 = (if d.activeHigh then 1 else 0) ∧ byteAt body 6 = (if d.railGated then 1 else 0) ∧
      (let high := match d.mode with
          | .high => true
          | .pulse => if d.activeLevel then d.activeHigh else !d.activeHigh
          | _ => false
        byteAt body 7 = (if d.mode = .released then 0 else if high then (if d.openDrain then 0 else 2) else 1)) ∧
      values 8 d.active ∧ values 14 d.buffered ∧ byteAt body 20 = s.permitMask ∧
      byteAt body 21 = (if s.permitLock then 1 else 0)) ∧
    (∀ n : Byte, 8 ≤ n.toNat → s.mp.canTake (.driveQuery tag n) = true →
      exec (.driveQuery tag n) s = .next (s.answered 0x51 tag .range []))

/-- The generator (R116, R119): from its start under the buffered values its counter is the ticks passed divided by 2^p, so
a period lasts B × 2^p ticks. GENERATOR_ACTIVE_LEVEL: the level becomes active where the counter is at least A and below B.
PERIOD_END: in repeat the buffered values are loaded and a new period begins with no record; a one-shot generator goes IDLE
in PULSE mode, and in a run hands over a DRIVE record with cause ONE_SHOT_DONE. That the level and the period's end follow
the counter as commands of their own is the model's choice (notes/assumptions/43.md). -/
def Obligations.GeneratorRuns : Prop :=
  (∀ (d : Dc) (n : Nat), let after := Dc.tick^[n] d.startGen
    after.counter = n / 2 ^ d.buffered.prescaler ∧ after.running = true ∧ after.active = d.buffered ∧
      after.mode = .pulse ∧ (after.periodDue = true ↔ d.buffered.b * 2 ^ d.buffered.prescaler ≤ n)) ∧
  ∀ (s : State) (c : Fin 8),
    let d := s.dc[c]
    (d.running = true → d.active.a ≤ d.counter → d.counter < d.active.b →
      exec (.generatorActiveLevel c) s = .next (s.setDc c { d with activeLevel := true })) ∧
    (d.running = false ∨ d.counter < d.active.a ∨ d.active.b ≤ d.counter →
      exec (.generatorActiveLevel c) s = .next s) ∧
    (d.running = false ∨ d.counter < d.active.b → exec (.periodEnd c) s = .next s) ∧
    (d.running = true → d.active.b ≤ d.counter →
      let zero := { d with counter := 0, subTicks := 0, activeLevel := false }
      (d.active.rep = true → exec (.periodEnd c) s =
        .next (s.setDc c { zero with mode := .pulse, running := true, active := d.buffered })) ∧
      (d.active.rep = false → s.live = false →
        exec (.periodEnd c) s = .next (s.setDc c { zero with running := false })) ∧
      (d.active.rep = false → s.live = true → d.mode = .pulse → ∃ w : Waiting,
        w.record = ⟨s.rc.timeBase, .drive c .pulseIdle .oneShotDone⟩ ∧ exec (.periodEnd c) s = .next {
          s.setDc c { zero with running := false } with ts := { s.ts with input := s.ts.input ++ [w] } }))

/-! ## The Scan Controller (chapter 10) -/

/-- The SC's requests (R123, R126, R127, R128, R129, R132): SCAN_CONFIG, TEMPLATE_PUT, TEMPLATE_GET, SCAN_SUBMIT,
SCAN_CANCEL, SCAN_RESULT and SCAN_QUERY, each accepted in every run state, with the refusals of its rule. That a submission
is answered with its place before the port takes it follows 10.10. That it is so counted, and that a cancel counts a job
already marked, is the model's reading (notes/assumptions/22.md, 23.md). Bytes that a body does not use are not checked
(12.6). That those not marked 0 are not kept either, so that each reads back as 0, is the model's choice (25.md), and so is
that the bytes sent with the mark "unused" are not judged (44.md). That a notice placed by a request becomes ready together
with its reply is the model's reading of R137 (47.md). -/
def Obligations.ScanRequests : Prop :=
  ∀ (s : State) (tag : Byte),
    let sound := fun j : JobBody => 1 ≤ j.ops.length ∧ j.ops.length ≤ 8 ∧ (j.ops.map ScanOp.bits).sum ≤ 512 ∧
      (∀ n out, ScanOp.irScan n out ∈ j.ops → 1 ≤ n ∧ n ≤ 64 ∧ out.toNat < 2 ^ n) ∧
      (∀ n out, ScanOp.drScan n out ∈ j.ops → 1 ≤ n ∧ n ≤ 128 ∧ out.toNat < 2 ^ n) ∧
      (∀ m, ScanOp.idle m ∈ j.ops → 1 ≤ m ∧ m ≤ 65535) ∧
      ∀ c, j.compare = some c → ∃ n, lastDrLength j.ops = some n ∧ c.mask.toNat < 2 ^ n
    let spells := fun (b : Bytes) (j : JobBody) =>
      b.length = 196 ∧ ∀ i < 196, j.unused i = false → byteAt b i = byteAt j.enc i
    let faulty := fun b : Bytes =>
      let kind := fun i => (byteAt b (4 + 20 * i)).toNat
      let n := fun i => field b (6 + 20 * i) 2
      let count := (byteAt b 0).toNat
      count = 0 ∨ 8 < count ∨
        (∃ i < count, 3 < kind i ∨ (kind i = 1 ∧ (n i = 0 ∨ 64 < n i ∨ 2 ^ n i ≤ field b (8 + 20 * i) 16)) ∨
          (kind i = 2 ∧ (n i = 0 ∨ 128 < n i ∨ 2 ^ n i ≤ field b (8 + 20 * i) 16)) ∨ (kind i = 3 ∧ n i = 0)) ∨
        512 < ((List.range count).map fun i => if kind i = 1 ∨ kind i = 2 then n i else 0).sum ∨
        (byteAt b 1 = 1 ∧ ((∀ i < count, kind i ≠ 2) ∨
          ∃ i < count, kind i = 2 ∧ (∀ k < count, i < k → kind k ≠ 2) ∧ 2 ^ n i ≤ field b 180 16))
    let template := fun j : Option JobBody => match j with | none => [0] | some j => 1 :: j.enc
    (∀ b : Bytes, b.length = 4 → s.mp.canTake (.scanConfig tag b) = true →
      ((byteAt b 2).toNat ≤ 1 → (byteAt b 3).toNat ≤ 1 →
        let set : ScanSettings := {
          divider := max 2 (min 1000 (field b 0 2)), irCheck := decide (byteAt b 2 = 1), trst := decide (byteAt b 3 = 1) }
        exec (.scanConfig tag b) s = .next ({ s with sc := { s.sc with settings := set } }.answered 0x60 tag .ok set.enc)) ∧
      (2 ≤ (byteAt b 2).toNat ∨ 2 ≤ (byteAt b 3).toNat →
        exec (.scanConfig tag b) s = .next (s.answered 0x60 tag .range []))) ∧
    (∀ (k : Fin 8) (j : JobBody) (b : Bytes), sound j → spells b j →
      s.mp.canTake (.templatePut tag (byte k.val) 1 b) = true →
      exec (.templatePut tag (byte k.val) 1 b) s = .next ({ s with sc := { s.sc with
        staged := s.sc.staged.set k (some j) k.isLt } }.answered 0x61 tag .ok (byte k.val :: 1 :: j.enc))) ∧
    (∀ (k : Fin 8) (b : Bytes), b.length = 0 ∨ b.length = 196 →
      s.mp.canTake (.templatePut tag (byte k.val) 0 b) = true →
      exec (.templatePut tag (byte k.val) 0 b) s = .next ({ s with sc := { s.sc with
        staged := s.sc.staged.set k none k.isLt } }.answered 0x61 tag .ok [byte k.val, 0])) ∧
    (∀ (n used : Byte) (b : Bytes), b.length = 196 → s.mp.canTake (.templatePut tag n used b) = true →
      8 ≤ n.toNat ∨ (used = 1 ∧ faulty b) →
      exec (.templatePut tag n used b) s = .next (s.answered 0x61 tag .range [])) ∧
    (∀ k : Fin 8,
      (s.mp.canTake (.templateGet tag (byte k.val) 0) = true → exec (.templateGet tag (byte k.val) 0) s =
        .next (s.answered 0x62 tag .ok (byte k.val :: template s.sc.staged[k]))) ∧
      (s.mp.canTake (.templateGet tag (byte k.val) 1) = true → exec (.templateGet tag (byte k.val) 1) s =
        .next (s.answered 0x62 tag .ok (byte k.val :: template s.sc.active[k])))) ∧
    (∀ n copy : Byte, 8 ≤ n.toNat ∨ 2 ≤ copy.toNat → s.mp.canTake (.templateGet tag n copy) = true →
      exec (.templateGet tag n copy) s = .next (s.answered 0x62 tag .range [])) ∧
    (∀ (job : Byte) (b : Bytes), b.length = 196 → faulty b → s.mp.canTake (.scanSubmit tag job b) = true →
      exec (.scanSubmit tag job b) s = .next (s.answered 0x63 tag .range [])) ∧
    (∀ (job : Byte) (j : JobBody) (b : Bytes), sound j → spells b j → s.mp.canTake (.scanSubmit tag job b) = true →
      let host : Job := { cls := .host job, body := j, current := false }
      (16 ≤ s.sc.queue.length → exec (.scanSubmit tag job b) s = .next (s.answered 0x63 tag .full [])) ∧
      (s.sc.queue.length < 16 → s.sc.job.isSome = true → exec (.scanSubmit tag job b) s =
        .next ({ s with sc := { s.sc with queue := s.sc.queue ++ [host] } }.answered 0x63 tag .ok
          [byte (s.sc.queue.length + 1)])) ∧
      (s.sc.queue = [] → s.sc.job = none → s.lau[(3 : Fin 4)].present = true →
        exec (.scanSubmit tag job b) s = .next ({ s with sc := { s.sc with job := some {
          job := host, settings := s.sc.settings, inserted := s.sc.tap.isNone
          op := if s.sc.tap = none then none else some 0, opStart := s.clock, bits := [], capture := 0
          captureLen := 0, cancel := false } } }.answered 0x63 tag .ok [1])) ∧
      (∀ first rest, s.sc.queue = first :: rest → s.sc.queue.length < 16 → s.sc.job = none →
        s.lau[(3 : Fin 4)].present = true →
        exec (.scanSubmit tag job b) s = .next ({ s with sc := { s.sc with queue := rest ++ [host], job := some {
          job := first, settings := s.sc.settings, inserted := s.sc.tap.isNone
          op := if s.sc.tap = none then none else some 0, opStart := s.clock, bits := [], capture := 0
          captureLen := 0, cancel := false } } }.answered 0x63 tag .ok [byte (s.sc.queue.length + 1)])) ∧
      (s.sc.queue ≠ [] → s.sc.queue.length < 16 → s.sc.job = none → s.lau[(3 : Fin 4)].present = false → ∃ t : State,
        exec (.scanSubmit tag job b) s = .next (t.answeredFrom s 0x63 tag .ok [byte (s.sc.queue.length + 1)]) ∧
        t = { s with sc := t.sc, fu := t.fu, ts := { s.ts with input := t.ts.input }
                     ste := { s.ste with events := t.ste.events } } ∧
        t.sc = { s.sc with queue := [], results := ((s.sc.queue ++ [host]).reverse.map (fun j => ({
          cls := j.cls, outcome := .fault, reason := some .rail, inserted := false, capture := 0
          captureLen := 0 } : ScanResult)) ++ s.sc.results).take 16 } ∧
        t.fu.flags.getLsbD 12 = true ∧
        t.ts.input.map Waiting.record = s.ts.input.map Waiting.record ++ if s.live then
          (s.sc.queue ++ [host]).map (fun j => ⟨s.rc.timeBase, .scan j.cls .fault (some .rail) false 0 0⟩) else []) ∧
      (s.sc.queue = [] → s.sc.job = none → s.lau[(3 : Fin 4)].present = false → ∃ t : State,
        exec (.scanSubmit tag job b) s = .next (t.answeredFrom s 0x63 tag .ok [1]) ∧
        t.sc = { s.sc with results := t.sc.results } ∧ JobCompleted s t host
          { cls := .host job, outcome := .fault, reason := some .rail, inserted := false, capture := 0
            captureLen := 0 })) ∧
    (∀ job : Byte, s.mp.canTake (.scanCancel tag job) = true →
      let gone := s.sc.queue.filter fun j => decide (j.cls = .host job)
      let active := s.sc.job.any fun a => decide (a.job.cls = .host job)
      let cancelled : ScanResult := {
        cls := .host job, outcome := .cancelled, reason := none, inserted := false, capture := 0, captureLen := 0 }
      (gone = [] → active = false → exec (.scanCancel tag job) s = .next (s.answered 0x64 tag .notFound [])) ∧
      (gone ≠ [] ∨ active = true → s.sc.results.length ≤ 16 → ∃ t : State,
        exec (.scanCancel tag job) s =
          .next (t.answeredFrom s 0x64 tag .ok [byte (gone.length + if active then 1 else 0)]) ∧
        t = { s with sc := t.sc, fu := t.fu, ts := { s.ts with input := t.ts.input } } ∧
        t.sc = { s.sc with
          queue := s.sc.queue.filter fun j => decide (j.cls ≠ .host job)
          job := s.sc.job.map fun a => if a.job.cls = .host job then { a with cancel := true } else a
          results := (gone.map (fun _ => cancelled) ++ s.sc.results).take 16 } ∧
        (gone = [] → t.fu = s.fu) ∧ (gone ≠ [] → t.fu.flags.getLsbD 12 = true) ∧
        t.ts.input.map Waiting.record = s.ts.input.map Waiting.record ++ if s.live then
          gone.map (fun _ => ⟨s.rc.timeBase, .scan (.host job) .cancelled none false 0 0⟩) else [])) ∧
    (∀ cls n : Byte, s.mp.canTake (.scanResult tag cls n) = true →
      (2 ≤ cls.toNat ∨ (cls = 1 ∧ 8 ≤ n.toNat) →
        exec (.scanResult tag cls n) s = .next (s.answered 0x65 tag .range [])) ∧
      ∀ c : JobClass, (cls = 0 ∧ c = .host n) ∨ (cls = 1 ∧ ∃ k : Fin 8, n = byte k.val ∧ c = .step k) →
        ((∀ r ∈ s.sc.results, r.cls ≠ c) →
          exec (.scanResult tag cls n) s = .next (s.answered 0x65 tag .notFound [])) ∧
        ∀ pre r post, s.sc.results = pre ++ r :: post → (∀ x ∈ pre, x.cls ≠ c) → r.cls = c →
          exec (.scanResult tag cls n) s = .next (s.answered 0x65 tag .ok ([cls, n, r.outcome.code,
            (match r.reason with | none => 255 | some .rail => 1 | some .irCheck => 2 | some .queueFull => 3),
            if r.inserted then 1 else 0, byte r.captureLen] ++ le 16 r.capture.toNat))) ∧
    (s.mp.canTake (.scanQuery tag) = true → (∀ a, s.sc.job = some a → a.job.body.enc.length = 196) →
      ∃ body, exec (.scanQuery tag) s = .next (s.answered 0x66 tag .ok body) ∧
        body.length = 207 + 2 * s.sc.queue.length ∧ body.take 4 = s.sc.settings.enc ∧
        (s.sc.tap = none → byteAt body 4 = 16) ∧ (s.sc.tap = some .runTestIdle → byteAt body 4 = 1) ∧
        (s.sc.job = none → byteAt body 5 = 255 ∧ ∀ i < 200, byteAt body (6 + i) = 0) ∧
        (∀ a, s.sc.job = some a → byteAt body 5 = a.job.cls.code ∧ byteAt body 6 = a.job.cls.number ∧
          byteAt body 7 = (match a.op with | none => 8 | some i => byte i) ∧
          byteAt body 8 = (if a.cancel then 1 else 0) ∧ (body.drop 10).take 196 = a.job.body.enc) ∧
        byteAt body 206 = byte s.sc.queue.length ∧
        ∀ i j, s.sc.queue[i]? = some j → byteAt body (207 + 2 * i) = j.cls.code ∧
          byteAt body (208 + 2 * i) = j.cls.number)

/-- OPERATION_END and the port (R123, R124, R125, R128, R131). Each operation's periods lead the TAP model from
Run-Test/Idle back to it, a TAP_RESET from UNKNOWN too, and an IR_SCAN or DR_SCAN takes its n edges in the Shift state. At
the end of an operation a failed IR check ends the job FAULT with the TAP state UNKNOWN; else a cancel mark ends it
CANCELLED; else the next operation begins; after the last the outcome is that of the compare. The job is completed and the
next becomes active. The pins idle with TCK and TMS low, TDI and TRST high, and are released with the rail ABSENT: the model
shows the four outputs, R123 counts five pins with TDO (notes/assumptions/46.md); in each period of an operation TCK is low
in the first half and high in the second, and TMS, TDI and TRST are as R125 gives. -/
def Obligations.ScanOperationsEnd : Prop :=
  (∀ o : ScanOp, (∀ n out, o = .irScan n out ∨ o = .drScan n out → 1 ≤ n) →
    let walk := fun (tap : Option Tap) (k : Nat) => (List.range k).foldl (fun t i => tapEdge t o i) tap
    walk (some .runTestIdle) o.periods = some .runTestIdle ∧ (o = .tapReset → walk none o.periods = some .runTestIdle) ∧
    (∀ n out, o = .irScan n out → o.periods = n + 6 ∧
      ∀ k < n, o.shiftBit (4 + k) = some k ∧ o.tdi (4 + k) = out.getLsbD k ∧
        walk (some .runTestIdle) (4 + k) = some .shiftIr) ∧
    (∀ n out, o = .drScan n out → o.periods = n + 5 ∧
      ∀ k < n, o.shiftBit (3 + k) = some k ∧ o.tdi (3 + k) = out.getLsbD k ∧
        walk (some .runTestIdle) (3 + k) = some .shiftDr)) ∧
  (∀ s : State,
    (s.lau[(3 : Fin 4)].present = false → s.scanPins.released = true) ∧
    (s.lau[(3 : Fin 4)].present = true → s.sc.job = none →
      s.scanPins = { released := false, tck := false, tms := false, tdi := true, trst := true }) ∧
    ∀ (a : Active) (o : ScanOp), s.lau[(3 : Fin 4)].present = true → s.sc.job = some a →
      (match a.op with | none => some .tapReset | some i => a.job.body.ops[i]?) = some o →
      let half := a.settings.divider
      let since := s.clock - a.opStart
      let i := since / (half * 2)
      s.scanPins = {
        released := false, tck := decide (half ≤ since % (half * 2))
        tms := match o with
          | .tapReset => decide (i < 5)
          | .irScan n _ => decide (i < 2 ∨ i = n + 3 ∨ i = n + 4)
          | .drScan n _ => decide (i = 0 ∨ i = n + 2 ∨ i = n + 3)
          | .idle _ => false
        tdi := match o with
          | .irScan n out => if 4 ≤ i ∧ i < n + 4 then out.getLsbD (i - 4) else true
          | .drScan n out => if 3 ≤ i ∧ i < n + 3 then out.getLsbD (i - 3) else true
          | _ => true
        trst := !decide (o = .tapReset ∧ a.settings.trst = true ∧ i < 5) }) ∧
  ∀ (s : State) (a : Active), s.sc.job = some a → s.lau[(3 : Fin 4)].present = true →
    let op := match a.op with | none => some .tapReset | some i => a.job.body.ops[i]?
    let next := match a.op with | none => 0 | some i => i + 1
    ∀ o : ScanOp, op = some o →
      (s.clock < a.opStart + o.periods * (2 * a.settings.divider) → exec .operationEnd s = .next s) ∧
      (a.opStart + o.periods * (2 * a.settings.divider) ≤ s.clock → a.bits.length ≤ 128 → ∀ cap : BitVec 128,
        (∀ i < 128, cap.getLsbD i = a.bits.getD i false) →
        let b := match o with | .drScan n _ => { a with capture := cap, captureLen := n } | _ => a
        let irFails := a.settings.irCheck = true ∧
          ∃ n out, o = .irScan n out ∧ (cap.getLsbD 0 = false ∨ (n ≠ 1 ∧ cap.getLsbD 1 = true))
        let ends := fun (outcome : ScanOutcome) (reason : Option FaultReason) (tap : Option Tap) =>
          ∃ t, exec .operationEnd s = .next t ∧ t.mp = s.mp ∧ t.sc.tap = tap ∧
            JobCompleted s t a.job { cls := a.job.cls, outcome, reason, inserted := a.inserted, capture := b.capture,
                                     captureLen := b.captureLen } ∧
            (s.sc.queue = [] → t.sc.job = none ∧ t.sc.queue = []) ∧
            ∀ j js, s.sc.queue = j :: js → t.sc.queue = js ∧ t.sc.job = some {
              job := j, settings := s.sc.settings, inserted := tap.isNone, op := if tap = none then none else some 0
              opStart := s.clock, bits := [], capture := 0, captureLen := 0, cancel := false }
        (irFails → ends .fault (some .irCheck) none) ∧
        (¬irFails → a.cancel = true → ends .cancelled none (some .runTestIdle)) ∧
        (¬irFails → a.cancel = false → next < a.job.body.ops.length → exec .operationEnd s = .next { s with sc := { s.sc with
          tap := some .runTestIdle, job := some { b with op := some next, opStart := s.clock, bits := [] } } }) ∧
        (¬irFails → a.cancel = false → a.job.body.ops.length ≤ next →
          (a.job.body.compare = none → ends .done none (some .runTestIdle)) ∧
          ∀ c, a.job.body.compare = some c →
            (b.capture &&& c.mask = c.expected &&& c.mask → ends .match_ none (some .runTestIdle)) ∧
            (b.capture &&& c.mask ≠ c.expected &&& c.mask → ends .mismatch none (some .runTestIdle))))
end

