-- ==== Sys2Proof/Laws/Bytes.lean ====
section
/-! SUPPORT. Facts about fields of bytes: what `le` writes, `leNat` reads; lengths; codes read back. -/

namespace Sys2Proof.Machine

/-- A field of `n` bytes has `n` bytes. -/
@[simp] theorem le_length (n v : Nat) : (le n v).length = n := by
  induction n generalizing v with
  | zero => rfl
  | succ n ih => simp [le, ih]

/-- A number that fits its field reads back. -/
theorem leNat_le (n v : Nat) (h : v < 256 ^ n) : leNat (le n v) = v := by
  induction n generalizing v with
  | zero => simp [le, leNat] at *; omega
  | succ n ih =>
    simp only [le, leNat, BitVec.toNat_ofNat]
    rw [ih (v / 256) (by rw [pow_succ] at h; omega)]
    omega

/-- A field that begins a layout reads back. -/
theorem field_le_append (n v : Nat) (b : Bytes) (h : v < 256 ^ n) : field (le n v ++ b) 0 n = v := by
  simp only [field, List.drop_zero]
  rw [List.take_left' (le_length n v), leNat_le n v h]

/-- A field behind a prefix of known length reads as the field of what follows. -/
theorem field_append (pre b : Bytes) (off n : Nat) (h : pre.length = off) : field (pre ++ b) off n = field b 0 n := by
  subst h
  simp [field]

/-- A field of the whole layout reads back. -/
theorem field_le (n v : Nat) (h : v < 256 ^ n) : field (le n v) 0 n = v := by
  simpa using field_le_append n v [] h

/-- A byte of a layout that begins with it. -/
@[simp] theorem byteAt_cons_zero (b : Byte) (bs : Bytes) : byteAt (b :: bs) 0 = b := rfl

/-- A byte behind the first one. -/
@[simp] theorem byteAt_cons_succ (b : Byte) (bs : Bytes) (i : Nat) : byteAt (b :: bs) (i + 1) = byteAt bs i := rfl

/-- A yes/no byte reads back. -/
@[simp] theorem ynOf_yn (b : Bool) : ynOf (yn b) = some b := by cases b <;> rfl

/-- A number in one byte, below 256, keeps its value. -/
@[simp] theorem byte_toNat (v : Nat) (h : v < 256) : (byte v).toNat = v := by simp [byte]; omega

/-- An index in one byte reads back. -/
@[simp] theorem indexOf_byte (n : Nat) (i : Fin n) (h : n ≤ 256) : indexOf n (byte i.val) = some i := by
  have : (byte i.val).toNat = i.val := byte_toNat _ (by omega)
  simp [indexOf, this]

/-- A yes/no byte is never the value that is neither. -/
theorem ynOf_eq_some {b : Byte} {v : Bool} (h : ynOf b = some v) : b = yn v := by
  unfold ynOf at h
  split at h
  · cases h; assumption
  · split at h
    · cases h; assumption
    · cases h

/-- `leOrNone` has the field's length. -/
@[simp] theorem leOrNone_length (n : Nat) (v : Option Nat) : (leOrNone n v).length = n := by
  cases v <;> simp [leOrNone]

/-- Padding reaches the slot's length where the content fits. -/
theorem padTo_length (n : Nat) (b : Bytes) (h : b.length ≤ n) : (padTo n b).length = n := by
  simp [padTo]; omega

/-- A clamped value lies in its range. -/
theorem clamp_le (lo hi v : Nat) (h : lo ≤ hi) : lo ≤ clamp lo hi v ∧ clamp lo hi v ≤ hi := by
  unfold clamp; omega

/-- A value in range is not clamped. -/
theorem clamp_eq (lo hi v : Nat) (h₁ : lo ≤ v) (h₂ : v ≤ hi) : clamp lo hi v = v := by
  unfold clamp; omega

end Sys2Proof.Machine
end

