-- ==== Sys2Proof/Laws/State.lean ====
section
/-! SUPPORT. One lemma per field per update of the state, each true by definition, so that no later proof unfolds a record
update. -/

namespace Sys2Proof.Machine

set_option Elab.async false

variable (s : State)

/-! ### setTs -/

@[simp] theorem State.setTs_pending (t : Ts) : (s.setTs t).pending = s.pending := rfl
@[simp] theorem State.setTs_clock (t : Ts) : (s.setTs t).clock = s.clock := rfl
@[simp] theorem State.setTs_choices (t : Ts) : (s.setTs t).choices = s.choices := rfl
@[simp] theorem State.setTs_pins (t : Ts) : (s.setTs t).pins = s.pins := rfl
@[simp] theorem State.setTs_mp (t : Ts) : (s.setTs t).mp = s.mp := rfl
@[simp] theorem State.setTs_fu (t : Ts) : (s.setTs t).fu = s.fu := rfl
@[simp] theorem State.setTs_rc (t : Ts) : (s.setTs t).rc = s.rc := rfl
@[simp] theorem State.setTs_ste (t : Ts) : (s.setTs t).ste = s.ste := rfl
@[simp] theorem State.setTs_ts (t : Ts) : (s.setTs t).ts = t := rfl
@[simp] theorem State.setTs_lau (t : Ts) : (s.setTs t).lau = s.lau := rfl
@[simp] theorem State.setTs_mc (t : Ts) : (s.setTs t).mc = s.mc := rfl
@[simp] theorem State.setTs_rm (t : Ts) : (s.setTs t).rm = s.rm := rfl
@[simp] theorem State.setTs_cdp (t : Ts) : (s.setTs t).cdp = s.cdp := rfl
@[simp] theorem State.setTs_cp (t : Ts) : (s.setTs t).cp = s.cp := rfl
@[simp] theorem State.setTs_tm (t : Ts) : (s.setTs t).tm = s.tm := rfl
@[simp] theorem State.setTs_dc (t : Ts) : (s.setTs t).dc = s.dc := rfl
@[simp] theorem State.setTs_permitMask (t : Ts) : (s.setTs t).permitMask = s.permitMask := rfl
@[simp] theorem State.setTs_permitLock (t : Ts) : (s.setTs t).permitLock = s.permitLock := rfl
@[simp] theorem State.setTs_sc (t : Ts) : (s.setTs t).sc = s.sc := rfl

/-! ### setSc -/

@[simp] theorem State.setSc_pending (c : Sc) : (s.setSc c).pending = s.pending := rfl
@[simp] theorem State.setSc_clock (c : Sc) : (s.setSc c).clock = s.clock := rfl
@[simp] theorem State.setSc_choices (c : Sc) : (s.setSc c).choices = s.choices := rfl
@[simp] theorem State.setSc_pins (c : Sc) : (s.setSc c).pins = s.pins := rfl
@[simp] theorem State.setSc_mp (c : Sc) : (s.setSc c).mp = s.mp := rfl
@[simp] theorem State.setSc_fu (c : Sc) : (s.setSc c).fu = s.fu := rfl
@[simp] theorem State.setSc_rc (c : Sc) : (s.setSc c).rc = s.rc := rfl
@[simp] theorem State.setSc_ste (c : Sc) : (s.setSc c).ste = s.ste := rfl
@[simp] theorem State.setSc_ts (c : Sc) : (s.setSc c).ts = s.ts := rfl
@[simp] theorem State.setSc_lau (c : Sc) : (s.setSc c).lau = s.lau := rfl
@[simp] theorem State.setSc_mc (c : Sc) : (s.setSc c).mc = s.mc := rfl
@[simp] theorem State.setSc_rm (c : Sc) : (s.setSc c).rm = s.rm := rfl
@[simp] theorem State.setSc_cdp (c : Sc) : (s.setSc c).cdp = s.cdp := rfl
@[simp] theorem State.setSc_cp (c : Sc) : (s.setSc c).cp = s.cp := rfl
@[simp] theorem State.setSc_tm (c : Sc) : (s.setSc c).tm = s.tm := rfl
@[simp] theorem State.setSc_dc (c : Sc) : (s.setSc c).dc = s.dc := rfl
@[simp] theorem State.setSc_permitMask (c : Sc) : (s.setSc c).permitMask = s.permitMask := rfl
@[simp] theorem State.setSc_permitLock (c : Sc) : (s.setSc c).permitLock = s.permitLock := rfl
@[simp] theorem State.setSc_sc (c : Sc) : (s.setSc c).sc = c := rfl

/-! ### setSte -/

@[simp] theorem State.setSte_pending (e : Ste) : (s.setSte e).pending = s.pending := rfl
@[simp] theorem State.setSte_clock (e : Ste) : (s.setSte e).clock = s.clock := rfl
@[simp] theorem State.setSte_choices (e : Ste) : (s.setSte e).choices = s.choices := rfl
@[simp] theorem State.setSte_pins (e : Ste) : (s.setSte e).pins = s.pins := rfl
@[simp] theorem State.setSte_mp (e : Ste) : (s.setSte e).mp = s.mp := rfl
@[simp] theorem State.setSte_fu (e : Ste) : (s.setSte e).fu = s.fu := rfl
@[simp] theorem State.setSte_rc (e : Ste) : (s.setSte e).rc = s.rc := rfl
@[simp] theorem State.setSte_ste (e : Ste) : (s.setSte e).ste = e := rfl
@[simp] theorem State.setSte_ts (e : Ste) : (s.setSte e).ts = s.ts := rfl
@[simp] theorem State.setSte_lau (e : Ste) : (s.setSte e).lau = s.lau := rfl
@[simp] theorem State.setSte_mc (e : Ste) : (s.setSte e).mc = s.mc := rfl
@[simp] theorem State.setSte_rm (e : Ste) : (s.setSte e).rm = s.rm := rfl
@[simp] theorem State.setSte_cdp (e : Ste) : (s.setSte e).cdp = s.cdp := rfl
@[simp] theorem State.setSte_cp (e : Ste) : (s.setSte e).cp = s.cp := rfl
@[simp] theorem State.setSte_tm (e : Ste) : (s.setSte e).tm = s.tm := rfl
@[simp] theorem State.setSte_dc (e : Ste) : (s.setSte e).dc = s.dc := rfl
@[simp] theorem State.setSte_permitMask (e : Ste) : (s.setSte e).permitMask = s.permitMask := rfl
@[simp] theorem State.setSte_permitLock (e : Ste) : (s.setSte e).permitLock = s.permitLock := rfl
@[simp] theorem State.setSte_sc (e : Ste) : (s.setSte e).sc = s.sc := rfl

/-! ### setRc -/

@[simp] theorem State.setRc_pending (r : Rc) : (s.setRc r).pending = s.pending := rfl
@[simp] theorem State.setRc_clock (r : Rc) : (s.setRc r).clock = s.clock := rfl
@[simp] theorem State.setRc_choices (r : Rc) : (s.setRc r).choices = s.choices := rfl
@[simp] theorem State.setRc_pins (r : Rc) : (s.setRc r).pins = s.pins := rfl
@[simp] theorem State.setRc_mp (r : Rc) : (s.setRc r).mp = s.mp := rfl
@[simp] theorem State.setRc_fu (r : Rc) : (s.setRc r).fu = s.fu := rfl
@[simp] theorem State.setRc_rc (r : Rc) : (s.setRc r).rc = r := rfl
@[simp] theorem State.setRc_ste (r : Rc) : (s.setRc r).ste = s.ste := rfl
@[simp] theorem State.setRc_ts (r : Rc) : (s.setRc r).ts = s.ts := rfl
@[simp] theorem State.setRc_lau (r : Rc) : (s.setRc r).lau = s.lau := rfl
@[simp] theorem State.setRc_mc (r : Rc) : (s.setRc r).mc = s.mc := rfl
@[simp] theorem State.setRc_rm (r : Rc) : (s.setRc r).rm = s.rm := rfl
@[simp] theorem State.setRc_cdp (r : Rc) : (s.setRc r).cdp = s.cdp := rfl
@[simp] theorem State.setRc_cp (r : Rc) : (s.setRc r).cp = s.cp := rfl
@[simp] theorem State.setRc_tm (r : Rc) : (s.setRc r).tm = s.tm := rfl
@[simp] theorem State.setRc_dc (r : Rc) : (s.setRc r).dc = s.dc := rfl
@[simp] theorem State.setRc_permitMask (r : Rc) : (s.setRc r).permitMask = s.permitMask := rfl
@[simp] theorem State.setRc_permitLock (r : Rc) : (s.setRc r).permitLock = s.permitLock := rfl
@[simp] theorem State.setRc_sc (r : Rc) : (s.setRc r).sc = s.sc := rfl

/-! ### setCdp -/

@[simp] theorem State.setCdp_pending (c : Cdp) : (s.setCdp c).pending = s.pending := rfl
@[simp] theorem State.setCdp_clock (c : Cdp) : (s.setCdp c).clock = s.clock := rfl
@[simp] theorem State.setCdp_choices (c : Cdp) : (s.setCdp c).choices = s.choices := rfl
@[simp] theorem State.setCdp_pins (c : Cdp) : (s.setCdp c).pins = s.pins := rfl
@[simp] theorem State.setCdp_mp (c : Cdp) : (s.setCdp c).mp = s.mp := rfl
@[simp] theorem State.setCdp_fu (c : Cdp) : (s.setCdp c).fu = s.fu := rfl
@[simp] theorem State.setCdp_rc (c : Cdp) : (s.setCdp c).rc = s.rc := rfl
@[simp] theorem State.setCdp_ste (c : Cdp) : (s.setCdp c).ste = s.ste := rfl
@[simp] theorem State.setCdp_ts (c : Cdp) : (s.setCdp c).ts = s.ts := rfl
@[simp] theorem State.setCdp_lau (c : Cdp) : (s.setCdp c).lau = s.lau := rfl
@[simp] theorem State.setCdp_mc (c : Cdp) : (s.setCdp c).mc = s.mc := rfl
@[simp] theorem State.setCdp_rm (c : Cdp) : (s.setCdp c).rm = s.rm := rfl
@[simp] theorem State.setCdp_cdp (c : Cdp) : (s.setCdp c).cdp = c := rfl
@[simp] theorem State.setCdp_cp (c : Cdp) : (s.setCdp c).cp = s.cp := rfl
@[simp] theorem State.setCdp_tm (c : Cdp) : (s.setCdp c).tm = s.tm := rfl
@[simp] theorem State.setCdp_dc (c : Cdp) : (s.setCdp c).dc = s.dc := rfl
@[simp] theorem State.setCdp_permitMask (c : Cdp) : (s.setCdp c).permitMask = s.permitMask := rfl
@[simp] theorem State.setCdp_permitLock (c : Cdp) : (s.setCdp c).permitLock = s.permitLock := rfl
@[simp] theorem State.setCdp_sc (c : Cdp) : (s.setCdp c).sc = s.sc := rfl

/-! ### setMc -/

@[simp] theorem State.setMc_pending (i : Fin 24) (m : Mc) : (s.setMc i m).pending = s.pending := rfl
@[simp] theorem State.setMc_clock (i : Fin 24) (m : Mc) : (s.setMc i m).clock = s.clock := rfl
@[simp] theorem State.setMc_choices (i : Fin 24) (m : Mc) : (s.setMc i m).choices = s.choices := rfl
@[simp] theorem State.setMc_pins (i : Fin 24) (m : Mc) : (s.setMc i m).pins = s.pins := rfl
@[simp] theorem State.setMc_mp (i : Fin 24) (m : Mc) : (s.setMc i m).mp = s.mp := rfl
@[simp] theorem State.setMc_fu (i : Fin 24) (m : Mc) : (s.setMc i m).fu = s.fu := rfl
@[simp] theorem State.setMc_rc (i : Fin 24) (m : Mc) : (s.setMc i m).rc = s.rc := rfl
@[simp] theorem State.setMc_ste (i : Fin 24) (m : Mc) : (s.setMc i m).ste = s.ste := rfl
@[simp] theorem State.setMc_ts (i : Fin 24) (m : Mc) : (s.setMc i m).ts = s.ts := rfl
@[simp] theorem State.setMc_lau (i : Fin 24) (m : Mc) : (s.setMc i m).lau = s.lau := rfl
@[simp] theorem State.setMc_mc (i : Fin 24) (m : Mc) : (s.setMc i m).mc = s.mc.set i m i.isLt := rfl
@[simp] theorem State.setMc_rm (i : Fin 24) (m : Mc) : (s.setMc i m).rm = s.rm := rfl
@[simp] theorem State.setMc_cdp (i : Fin 24) (m : Mc) : (s.setMc i m).cdp = s.cdp := rfl
@[simp] theorem State.setMc_cp (i : Fin 24) (m : Mc) : (s.setMc i m).cp = s.cp := rfl
@[simp] theorem State.setMc_tm (i : Fin 24) (m : Mc) : (s.setMc i m).tm = s.tm := rfl
@[simp] theorem State.setMc_dc (i : Fin 24) (m : Mc) : (s.setMc i m).dc = s.dc := rfl
@[simp] theorem State.setMc_permitMask (i : Fin 24) (m : Mc) : (s.setMc i m).permitMask = s.permitMask := rfl
@[simp] theorem State.setMc_permitLock (i : Fin 24) (m : Mc) : (s.setMc i m).permitLock = s.permitLock := rfl
@[simp] theorem State.setMc_sc (i : Fin 24) (m : Mc) : (s.setMc i m).sc = s.sc := rfl

/-! ### setRm -/

@[simp] theorem State.setRm_pending (i : Fin 4) (m : Rm) : (s.setRm i m).pending = s.pending := rfl
@[simp] theorem State.setRm_clock (i : Fin 4) (m : Rm) : (s.setRm i m).clock = s.clock := rfl
@[simp] theorem State.setRm_choices (i : Fin 4) (m : Rm) : (s.setRm i m).choices = s.choices := rfl
@[simp] theorem State.setRm_pins (i : Fin 4) (m : Rm) : (s.setRm i m).pins = s.pins := rfl
@[simp] theorem State.setRm_mp (i : Fin 4) (m : Rm) : (s.setRm i m).mp = s.mp := rfl
@[simp] theorem State.setRm_fu (i : Fin 4) (m : Rm) : (s.setRm i m).fu = s.fu := rfl
@[simp] theorem State.setRm_rc (i : Fin 4) (m : Rm) : (s.setRm i m).rc = s.rc := rfl
@[simp] theorem State.setRm_ste (i : Fin 4) (m : Rm) : (s.setRm i m).ste = s.ste := rfl
@[simp] theorem State.setRm_ts (i : Fin 4) (m : Rm) : (s.setRm i m).ts = s.ts := rfl
@[simp] theorem State.setRm_lau (i : Fin 4) (m : Rm) : (s.setRm i m).lau = s.lau := rfl
@[simp] theorem State.setRm_mc (i : Fin 4) (m : Rm) : (s.setRm i m).mc = s.mc := rfl
@[simp] theorem State.setRm_rm (i : Fin 4) (m : Rm) : (s.setRm i m).rm = s.rm.set i m i.isLt := rfl
@[simp] theorem State.setRm_cdp (i : Fin 4) (m : Rm) : (s.setRm i m).cdp = s.cdp := rfl
@[simp] theorem State.setRm_cp (i : Fin 4) (m : Rm) : (s.setRm i m).cp = s.cp := rfl
@[simp] theorem State.setRm_tm (i : Fin 4) (m : Rm) : (s.setRm i m).tm = s.tm := rfl
@[simp] theorem State.setRm_dc (i : Fin 4) (m : Rm) : (s.setRm i m).dc = s.dc := rfl
@[simp] theorem State.setRm_permitMask (i : Fin 4) (m : Rm) : (s.setRm i m).permitMask = s.permitMask := rfl
@[simp] theorem State.setRm_permitLock (i : Fin 4) (m : Rm) : (s.setRm i m).permitLock = s.permitLock := rfl
@[simp] theorem State.setRm_sc (i : Fin 4) (m : Rm) : (s.setRm i m).sc = s.sc := rfl

/-! ### setLau -/

@[simp] theorem State.setLau_pending (i : Fin 4) (m : Lau) : (s.setLau i m).pending = s.pending := rfl
@[simp] theorem State.setLau_clock (i : Fin 4) (m : Lau) : (s.setLau i m).clock = s.clock := rfl
@[simp] theorem State.setLau_choices (i : Fin 4) (m : Lau) : (s.setLau i m).choices = s.choices := rfl
@[simp] theorem State.setLau_pins (i : Fin 4) (m : Lau) : (s.setLau i m).pins = s.pins := rfl
@[simp] theorem State.setLau_mp (i : Fin 4) (m : Lau) : (s.setLau i m).mp = s.mp := rfl
@[simp] theorem State.setLau_fu (i : Fin 4) (m : Lau) : (s.setLau i m).fu = s.fu := rfl
@[simp] theorem State.setLau_rc (i : Fin 4) (m : Lau) : (s.setLau i m).rc = s.rc := rfl
@[simp] theorem State.setLau_ste (i : Fin 4) (m : Lau) : (s.setLau i m).ste = s.ste := rfl
@[simp] theorem State.setLau_ts (i : Fin 4) (m : Lau) : (s.setLau i m).ts = s.ts := rfl
@[simp] theorem State.setLau_lau (i : Fin 4) (m : Lau) : (s.setLau i m).lau = s.lau.set i m i.isLt := rfl
@[simp] theorem State.setLau_mc (i : Fin 4) (m : Lau) : (s.setLau i m).mc = s.mc := rfl
@[simp] theorem State.setLau_rm (i : Fin 4) (m : Lau) : (s.setLau i m).rm = s.rm := rfl
@[simp] theorem State.setLau_cdp (i : Fin 4) (m : Lau) : (s.setLau i m).cdp = s.cdp := rfl
@[simp] theorem State.setLau_cp (i : Fin 4) (m : Lau) : (s.setLau i m).cp = s.cp := rfl
@[simp] theorem State.setLau_tm (i : Fin 4) (m : Lau) : (s.setLau i m).tm = s.tm := rfl
@[simp] theorem State.setLau_dc (i : Fin 4) (m : Lau) : (s.setLau i m).dc = s.dc := rfl
@[simp] theorem State.setLau_permitMask (i : Fin 4) (m : Lau) : (s.setLau i m).permitMask = s.permitMask := rfl
@[simp] theorem State.setLau_permitLock (i : Fin 4) (m : Lau) : (s.setLau i m).permitLock = s.permitLock := rfl
@[simp] theorem State.setLau_sc (i : Fin 4) (m : Lau) : (s.setLau i m).sc = s.sc := rfl

/-! ### setCp -/

@[simp] theorem State.setCp_pending (i : Fin 2) (m : Cp) : (s.setCp i m).pending = s.pending := rfl
@[simp] theorem State.setCp_clock (i : Fin 2) (m : Cp) : (s.setCp i m).clock = s.clock := rfl
@[simp] theorem State.setCp_choices (i : Fin 2) (m : Cp) : (s.setCp i m).choices = s.choices := rfl
@[simp] theorem State.setCp_pins (i : Fin 2) (m : Cp) : (s.setCp i m).pins = s.pins := rfl
@[simp] theorem State.setCp_mp (i : Fin 2) (m : Cp) : (s.setCp i m).mp = s.mp := rfl
@[simp] theorem State.setCp_fu (i : Fin 2) (m : Cp) : (s.setCp i m).fu = s.fu := rfl
@[simp] theorem State.setCp_rc (i : Fin 2) (m : Cp) : (s.setCp i m).rc = s.rc := rfl
@[simp] theorem State.setCp_ste (i : Fin 2) (m : Cp) : (s.setCp i m).ste = s.ste := rfl
@[simp] theorem State.setCp_ts (i : Fin 2) (m : Cp) : (s.setCp i m).ts = s.ts := rfl
@[simp] theorem State.setCp_lau (i : Fin 2) (m : Cp) : (s.setCp i m).lau = s.lau := rfl
@[simp] theorem State.setCp_mc (i : Fin 2) (m : Cp) : (s.setCp i m).mc = s.mc := rfl
@[simp] theorem State.setCp_rm (i : Fin 2) (m : Cp) : (s.setCp i m).rm = s.rm := rfl
@[simp] theorem State.setCp_cdp (i : Fin 2) (m : Cp) : (s.setCp i m).cdp = s.cdp := rfl
@[simp] theorem State.setCp_cp (i : Fin 2) (m : Cp) : (s.setCp i m).cp = s.cp.set i m i.isLt := rfl
@[simp] theorem State.setCp_tm (i : Fin 2) (m : Cp) : (s.setCp i m).tm = s.tm := rfl
@[simp] theorem State.setCp_dc (i : Fin 2) (m : Cp) : (s.setCp i m).dc = s.dc := rfl
@[simp] theorem State.setCp_permitMask (i : Fin 2) (m : Cp) : (s.setCp i m).permitMask = s.permitMask := rfl
@[simp] theorem State.setCp_permitLock (i : Fin 2) (m : Cp) : (s.setCp i m).permitLock = s.permitLock := rfl
@[simp] theorem State.setCp_sc (i : Fin 2) (m : Cp) : (s.setCp i m).sc = s.sc := rfl

/-! ### setTm -/

@[simp] theorem State.setTm_pending (i : Fin 8) (m : Tm) : (s.setTm i m).pending = s.pending := rfl
@[simp] theorem State.setTm_clock (i : Fin 8) (m : Tm) : (s.setTm i m).clock = s.clock := rfl
@[simp] theorem State.setTm_choices (i : Fin 8) (m : Tm) : (s.setTm i m).choices = s.choices := rfl
@[simp] theorem State.setTm_pins (i : Fin 8) (m : Tm) : (s.setTm i m).pins = s.pins := rfl
@[simp] theorem State.setTm_mp (i : Fin 8) (m : Tm) : (s.setTm i m).mp = s.mp := rfl
@[simp] theorem State.setTm_fu (i : Fin 8) (m : Tm) : (s.setTm i m).fu = s.fu := rfl
@[simp] theorem State.setTm_rc (i : Fin 8) (m : Tm) : (s.setTm i m).rc = s.rc := rfl
@[simp] theorem State.setTm_ste (i : Fin 8) (m : Tm) : (s.setTm i m).ste = s.ste := rfl
@[simp] theorem State.setTm_ts (i : Fin 8) (m : Tm) : (s.setTm i m).ts = s.ts := rfl
@[simp] theorem State.setTm_lau (i : Fin 8) (m : Tm) : (s.setTm i m).lau = s.lau := rfl
@[simp] theorem State.setTm_mc (i : Fin 8) (m : Tm) : (s.setTm i m).mc = s.mc := rfl
@[simp] theorem State.setTm_rm (i : Fin 8) (m : Tm) : (s.setTm i m).rm = s.rm := rfl
@[simp] theorem State.setTm_cdp (i : Fin 8) (m : Tm) : (s.setTm i m).cdp = s.cdp := rfl
@[simp] theorem State.setTm_cp (i : Fin 8) (m : Tm) : (s.setTm i m).cp = s.cp := rfl
@[simp] theorem State.setTm_tm (i : Fin 8) (m : Tm) : (s.setTm i m).tm = s.tm.set i m i.isLt := rfl
@[simp] theorem State.setTm_dc (i : Fin 8) (m : Tm) : (s.setTm i m).dc = s.dc := rfl
@[simp] theorem State.setTm_permitMask (i : Fin 8) (m : Tm) : (s.setTm i m).permitMask = s.permitMask := rfl
@[simp] theorem State.setTm_permitLock (i : Fin 8) (m : Tm) : (s.setTm i m).permitLock = s.permitLock := rfl
@[simp] theorem State.setTm_sc (i : Fin 8) (m : Tm) : (s.setTm i m).sc = s.sc := rfl

/-! ### setDc -/

@[simp] theorem State.setDc_pending (i : Fin 8) (m : Dc) : (s.setDc i m).pending = s.pending := rfl
@[simp] theorem State.setDc_clock (i : Fin 8) (m : Dc) : (s.setDc i m).clock = s.clock := rfl
@[simp] theorem State.setDc_choices (i : Fin 8) (m : Dc) : (s.setDc i m).choices = s.choices := rfl
@[simp] theorem State.setDc_pins (i : Fin 8) (m : Dc) : (s.setDc i m).pins = s.pins := rfl
@[simp] theorem State.setDc_mp (i : Fin 8) (m : Dc) : (s.setDc i m).mp = s.mp := rfl
@[simp] theorem State.setDc_fu (i : Fin 8) (m : Dc) : (s.setDc i m).fu = s.fu := rfl
@[simp] theorem State.setDc_rc (i : Fin 8) (m : Dc) : (s.setDc i m).rc = s.rc := rfl
@[simp] theorem State.setDc_ste (i : Fin 8) (m : Dc) : (s.setDc i m).ste = s.ste := rfl
@[simp] theorem State.setDc_ts (i : Fin 8) (m : Dc) : (s.setDc i m).ts = s.ts := rfl
@[simp] theorem State.setDc_lau (i : Fin 8) (m : Dc) : (s.setDc i m).lau = s.lau := rfl
@[simp] theorem State.setDc_mc (i : Fin 8) (m : Dc) : (s.setDc i m).mc = s.mc := rfl
@[simp] theorem State.setDc_rm (i : Fin 8) (m : Dc) : (s.setDc i m).rm = s.rm := rfl
@[simp] theorem State.setDc_cdp (i : Fin 8) (m : Dc) : (s.setDc i m).cdp = s.cdp := rfl
@[simp] theorem State.setDc_cp (i : Fin 8) (m : Dc) : (s.setDc i m).cp = s.cp := rfl
@[simp] theorem State.setDc_tm (i : Fin 8) (m : Dc) : (s.setDc i m).tm = s.tm := rfl
@[simp] theorem State.setDc_dc (i : Fin 8) (m : Dc) : (s.setDc i m).dc = s.dc.set i m i.isLt := rfl
@[simp] theorem State.setDc_permitMask (i : Fin 8) (m : Dc) : (s.setDc i m).permitMask = s.permitMask := rfl
@[simp] theorem State.setDc_permitLock (i : Fin 8) (m : Dc) : (s.setDc i m).permitLock = s.permitLock := rfl
@[simp] theorem State.setDc_sc (i : Fin 8) (m : Dc) : (s.setDc i m).sc = s.sc := rfl

/-! ### setEval -/

@[simp] theorem State.setEval_pending (k : Fin 64) (v : StepEval) : (s.setEval k v).pending = s.pending := rfl
@[simp] theorem State.setEval_clock (k : Fin 64) (v : StepEval) : (s.setEval k v).clock = s.clock := rfl
@[simp] theorem State.setEval_choices (k : Fin 64) (v : StepEval) : (s.setEval k v).choices = s.choices := rfl
@[simp] theorem State.setEval_pins (k : Fin 64) (v : StepEval) : (s.setEval k v).pins = s.pins := rfl
@[simp] theorem State.setEval_mp (k : Fin 64) (v : StepEval) : (s.setEval k v).mp = s.mp := rfl
@[simp] theorem State.setEval_fu (k : Fin 64) (v : StepEval) : (s.setEval k v).fu = s.fu := rfl
@[simp] theorem State.setEval_rc (k : Fin 64) (v : StepEval) : (s.setEval k v).rc = s.rc := rfl
@[simp] theorem State.setEval_ste (k : Fin 64) (v : StepEval) : (s.setEval k v).ste = { s.ste with evals := s.ste.evals.set k (some v) k.isLt } := rfl
@[simp] theorem State.setEval_ts (k : Fin 64) (v : StepEval) : (s.setEval k v).ts = s.ts := rfl
@[simp] theorem State.setEval_lau (k : Fin 64) (v : StepEval) : (s.setEval k v).lau = s.lau := rfl
@[simp] theorem State.setEval_mc (k : Fin 64) (v : StepEval) : (s.setEval k v).mc = s.mc := rfl
@[simp] theorem State.setEval_rm (k : Fin 64) (v : StepEval) : (s.setEval k v).rm = s.rm := rfl
@[simp] theorem State.setEval_cdp (k : Fin 64) (v : StepEval) : (s.setEval k v).cdp = s.cdp := rfl
@[simp] theorem State.setEval_cp (k : Fin 64) (v : StepEval) : (s.setEval k v).cp = s.cp := rfl
@[simp] theorem State.setEval_tm (k : Fin 64) (v : StepEval) : (s.setEval k v).tm = s.tm := rfl
@[simp] theorem State.setEval_dc (k : Fin 64) (v : StepEval) : (s.setEval k v).dc = s.dc := rfl
@[simp] theorem State.setEval_permitMask (k : Fin 64) (v : StepEval) : (s.setEval k v).permitMask = s.permitMask := rfl
@[simp] theorem State.setEval_permitLock (k : Fin 64) (v : StepEval) : (s.setEval k v).permitLock = s.permitLock := rfl
@[simp] theorem State.setEval_sc (k : Fin 64) (v : StepEval) : (s.setEval k v).sc = s.sc := rfl

/-! ### enqueue -/

@[simp] theorem State.enqueue_pending (w : Waiting) : (s.enqueue w).pending = s.pending := rfl
@[simp] theorem State.enqueue_clock (w : Waiting) : (s.enqueue w).clock = s.clock := rfl
@[simp] theorem State.enqueue_choices (w : Waiting) : (s.enqueue w).choices = s.choices := rfl
@[simp] theorem State.enqueue_pins (w : Waiting) : (s.enqueue w).pins = s.pins := rfl
@[simp] theorem State.enqueue_mp (w : Waiting) : (s.enqueue w).mp = s.mp := rfl
@[simp] theorem State.enqueue_fu (w : Waiting) : (s.enqueue w).fu = s.fu := rfl
@[simp] theorem State.enqueue_rc (w : Waiting) : (s.enqueue w).rc = s.rc := rfl
@[simp] theorem State.enqueue_ste (w : Waiting) : (s.enqueue w).ste = s.ste := rfl
@[simp] theorem State.enqueue_ts (w : Waiting) : (s.enqueue w).ts = { s.ts with input := s.ts.input ++ [w] } := rfl
@[simp] theorem State.enqueue_lau (w : Waiting) : (s.enqueue w).lau = s.lau := rfl
@[simp] theorem State.enqueue_mc (w : Waiting) : (s.enqueue w).mc = s.mc := rfl
@[simp] theorem State.enqueue_rm (w : Waiting) : (s.enqueue w).rm = s.rm := rfl
@[simp] theorem State.enqueue_cdp (w : Waiting) : (s.enqueue w).cdp = s.cdp := rfl
@[simp] theorem State.enqueue_cp (w : Waiting) : (s.enqueue w).cp = s.cp := rfl
@[simp] theorem State.enqueue_tm (w : Waiting) : (s.enqueue w).tm = s.tm := rfl
@[simp] theorem State.enqueue_dc (w : Waiting) : (s.enqueue w).dc = s.dc := rfl
@[simp] theorem State.enqueue_permitMask (w : Waiting) : (s.enqueue w).permitMask = s.permitMask := rfl
@[simp] theorem State.enqueue_permitLock (w : Waiting) : (s.enqueue w).permitLock = s.permitLock := rfl
@[simp] theorem State.enqueue_sc (w : Waiting) : (s.enqueue w).sc = s.sc := rfl

/-! ### handEvent -/

@[simp] theorem State.handEvent_pending (e : Event) : (s.handEvent e).pending = s.pending := rfl
@[simp] theorem State.handEvent_clock (e : Event) : (s.handEvent e).clock = s.clock := rfl
@[simp] theorem State.handEvent_choices (e : Event) : (s.handEvent e).choices = s.choices := rfl
@[simp] theorem State.handEvent_pins (e : Event) : (s.handEvent e).pins = s.pins := rfl
@[simp] theorem State.handEvent_mp (e : Event) : (s.handEvent e).mp = s.mp := rfl
@[simp] theorem State.handEvent_fu (e : Event) : (s.handEvent e).fu = s.fu := rfl
@[simp] theorem State.handEvent_rc (e : Event) : (s.handEvent e).rc = s.rc := rfl
@[simp] theorem State.handEvent_ste (e : Event) : (s.handEvent e).ste = { s.ste with events := s.ste.events ++ [e] } := rfl
@[simp] theorem State.handEvent_ts (e : Event) : (s.handEvent e).ts = s.ts := rfl
@[simp] theorem State.handEvent_lau (e : Event) : (s.handEvent e).lau = s.lau := rfl
@[simp] theorem State.handEvent_mc (e : Event) : (s.handEvent e).mc = s.mc := rfl
@[simp] theorem State.handEvent_rm (e : Event) : (s.handEvent e).rm = s.rm := rfl
@[simp] theorem State.handEvent_cdp (e : Event) : (s.handEvent e).cdp = s.cdp := rfl
@[simp] theorem State.handEvent_cp (e : Event) : (s.handEvent e).cp = s.cp := rfl
@[simp] theorem State.handEvent_tm (e : Event) : (s.handEvent e).tm = s.tm := rfl
@[simp] theorem State.handEvent_dc (e : Event) : (s.handEvent e).dc = s.dc := rfl
@[simp] theorem State.handEvent_permitMask (e : Event) : (s.handEvent e).permitMask = s.permitMask := rfl
@[simp] theorem State.handEvent_permitLock (e : Event) : (s.handEvent e).permitLock = s.permitLock := rfl
@[simp] theorem State.handEvent_sc (e : Event) : (s.handEvent e).sc = s.sc := rfl

/-! ### raise -/

@[simp] theorem State.raise_pending (f : Flag) : (s.raise f).pending = s.pending := rfl
@[simp] theorem State.raise_clock (f : Flag) : (s.raise f).clock = s.clock := rfl
@[simp] theorem State.raise_choices (f : Flag) : (s.raise f).choices = s.choices := rfl
@[simp] theorem State.raise_pins (f : Flag) : (s.raise f).pins = s.pins := rfl
@[simp] theorem State.raise_mp (f : Flag) : (s.raise f).mp = s.mp := rfl
@[simp] theorem State.raise_fu (f : Flag) : (s.raise f).fu = s.fu.raise f := rfl
@[simp] theorem State.raise_rc (f : Flag) : (s.raise f).rc = s.rc := rfl
@[simp] theorem State.raise_ste (f : Flag) : (s.raise f).ste = s.ste := rfl
@[simp] theorem State.raise_ts (f : Flag) : (s.raise f).ts = s.ts := rfl
@[simp] theorem State.raise_lau (f : Flag) : (s.raise f).lau = s.lau := rfl
@[simp] theorem State.raise_mc (f : Flag) : (s.raise f).mc = s.mc := rfl
@[simp] theorem State.raise_rm (f : Flag) : (s.raise f).rm = s.rm := rfl
@[simp] theorem State.raise_cdp (f : Flag) : (s.raise f).cdp = s.cdp := rfl
@[simp] theorem State.raise_cp (f : Flag) : (s.raise f).cp = s.cp := rfl
@[simp] theorem State.raise_tm (f : Flag) : (s.raise f).tm = s.tm := rfl
@[simp] theorem State.raise_dc (f : Flag) : (s.raise f).dc = s.dc := rfl
@[simp] theorem State.raise_permitMask (f : Flag) : (s.raise f).permitMask = s.permitMask := rfl
@[simp] theorem State.raise_permitLock (f : Flag) : (s.raise f).permitLock = s.permitLock := rfl
@[simp] theorem State.raise_sc (f : Flag) : (s.raise f).sc = s.sc := rfl

/-! ### reply -/

@[simp] theorem State.reply_pending (r : Reply) : (s.reply r).pending = s.pending := rfl
@[simp] theorem State.reply_clock (r : Reply) : (s.reply r).clock = s.clock := rfl
@[simp] theorem State.reply_choices (r : Reply) : (s.reply r).choices = s.choices := rfl
@[simp] theorem State.reply_pins (r : Reply) : (s.reply r).pins = s.pins := rfl
@[simp] theorem State.reply_mp (r : Reply) : (s.reply r).mp = { s.mp with reply := some r } := rfl
@[simp] theorem State.reply_fu (r : Reply) : (s.reply r).fu = s.fu := rfl
@[simp] theorem State.reply_rc (r : Reply) : (s.reply r).rc = s.rc := rfl
@[simp] theorem State.reply_ste (r : Reply) : (s.reply r).ste = s.ste := rfl
@[simp] theorem State.reply_ts (r : Reply) : (s.reply r).ts = s.ts := rfl
@[simp] theorem State.reply_lau (r : Reply) : (s.reply r).lau = s.lau := rfl
@[simp] theorem State.reply_mc (r : Reply) : (s.reply r).mc = s.mc := rfl
@[simp] theorem State.reply_rm (r : Reply) : (s.reply r).rm = s.rm := rfl
@[simp] theorem State.reply_cdp (r : Reply) : (s.reply r).cdp = s.cdp := rfl
@[simp] theorem State.reply_cp (r : Reply) : (s.reply r).cp = s.cp := rfl
@[simp] theorem State.reply_tm (r : Reply) : (s.reply r).tm = s.tm := rfl
@[simp] theorem State.reply_dc (r : Reply) : (s.reply r).dc = s.dc := rfl
@[simp] theorem State.reply_permitMask (r : Reply) : (s.reply r).permitMask = s.permitMask := rfl
@[simp] theorem State.reply_permitLock (r : Reply) : (s.reply r).permitLock = s.permitLock := rfl
@[simp] theorem State.reply_sc (r : Reply) : (s.reply r).sc = s.sc := rfl

/-! ### A reply and a notice that became ready together (R137) -/

@[simp] theorem State.beside_pending (t : State) : (s.beside t).pending = t.pending := by unfold State.beside; split <;> rfl
@[simp] theorem State.beside_clock (t : State) : (s.beside t).clock = t.clock := by unfold State.beside; split <;> rfl
@[simp] theorem State.beside_choices (t : State) : (s.beside t).choices = t.choices := by unfold State.beside; split <;> rfl
@[simp] theorem State.beside_pins (t : State) : (s.beside t).pins = t.pins := by unfold State.beside; split <;> rfl
@[simp] theorem State.beside_fu (t : State) : (s.beside t).fu = t.fu := by unfold State.beside; split <;> rfl
@[simp] theorem State.beside_rc (t : State) : (s.beside t).rc = t.rc := by unfold State.beside; split <;> rfl
@[simp] theorem State.beside_ste (t : State) : (s.beside t).ste = t.ste := by unfold State.beside; split <;> rfl
@[simp] theorem State.beside_ts (t : State) : (s.beside t).ts = t.ts := by unfold State.beside; split <;> rfl
@[simp] theorem State.beside_lau (t : State) : (s.beside t).lau = t.lau := by unfold State.beside; split <;> rfl
@[simp] theorem State.beside_mc (t : State) : (s.beside t).mc = t.mc := by unfold State.beside; split <;> rfl
@[simp] theorem State.beside_rm (t : State) : (s.beside t).rm = t.rm := by unfold State.beside; split <;> rfl
@[simp] theorem State.beside_cdp (t : State) : (s.beside t).cdp = t.cdp := by unfold State.beside; split <;> rfl
@[simp] theorem State.beside_cp (t : State) : (s.beside t).cp = t.cp := by unfold State.beside; split <;> rfl
@[simp] theorem State.beside_tm (t : State) : (s.beside t).tm = t.tm := by unfold State.beside; split <;> rfl
@[simp] theorem State.beside_dc (t : State) : (s.beside t).dc = t.dc := by unfold State.beside; split <;> rfl
@[simp] theorem State.beside_permitMask (t : State) : (s.beside t).permitMask = t.permitMask := by unfold State.beside; split <;> rfl
@[simp] theorem State.beside_permitLock (t : State) : (s.beside t).permitLock = t.permitLock := by unfold State.beside; split <;> rfl
@[simp] theorem State.beside_sc (t : State) : (s.beside t).sc = t.sc := by unfold State.beside; split <;> rfl

/-! ### answered -/

@[simp] theorem State.answered_pending (k t : Byte) (st : Status) (b : Bytes) : (s.answered k t st b).pending = s.pending := rfl
@[simp] theorem State.answered_clock (k t : Byte) (st : Status) (b : Bytes) : (s.answered k t st b).clock = s.clock := rfl
@[simp] theorem State.answered_choices (k t : Byte) (st : Status) (b : Bytes) : (s.answered k t st b).choices = s.choices := rfl
@[simp] theorem State.answered_pins (k t : Byte) (st : Status) (b : Bytes) : (s.answered k t st b).pins = s.pins := rfl
@[simp] theorem State.answered_mp (k t : Byte) (st : Status) (b : Bytes) : (s.answered k t st b).mp = { s.mp with queue := s.mp.queue.tail, reply := some { kind := k, tag := t, status := st, body := b } } := rfl
@[simp] theorem State.answered_fu (k t : Byte) (st : Status) (b : Bytes) : (s.answered k t st b).fu = s.fu := rfl
@[simp] theorem State.answered_rc (k t : Byte) (st : Status) (b : Bytes) : (s.answered k t st b).rc = s.rc := rfl
@[simp] theorem State.answered_ste (k t : Byte) (st : Status) (b : Bytes) : (s.answered k t st b).ste = s.ste := rfl
@[simp] theorem State.answered_ts (k t : Byte) (st : Status) (b : Bytes) : (s.answered k t st b).ts = s.ts := rfl
@[simp] theorem State.answered_lau (k t : Byte) (st : Status) (b : Bytes) : (s.answered k t st b).lau = s.lau := rfl
@[simp] theorem State.answered_mc (k t : Byte) (st : Status) (b : Bytes) : (s.answered k t st b).mc = s.mc := rfl
@[simp] theorem State.answered_rm (k t : Byte) (st : Status) (b : Bytes) : (s.answered k t st b).rm = s.rm := rfl
@[simp] theorem State.answered_cdp (k t : Byte) (st : Status) (b : Bytes) : (s.answered k t st b).cdp = s.cdp := rfl
@[simp] theorem State.answered_cp (k t : Byte) (st : Status) (b : Bytes) : (s.answered k t st b).cp = s.cp := rfl
@[simp] theorem State.answered_tm (k t : Byte) (st : Status) (b : Bytes) : (s.answered k t st b).tm = s.tm := rfl
@[simp] theorem State.answered_dc (k t : Byte) (st : Status) (b : Bytes) : (s.answered k t st b).dc = s.dc := rfl
@[simp] theorem State.answered_permitMask (k t : Byte) (st : Status) (b : Bytes) : (s.answered k t st b).permitMask = s.permitMask := rfl
@[simp] theorem State.answered_permitLock (k t : Byte) (st : Status) (b : Bytes) : (s.answered k t st b).permitLock = s.permitLock := rfl
@[simp] theorem State.answered_sc (k t : Byte) (st : Status) (b : Bytes) : (s.answered k t st b).sc = s.sc := rfl

/-! ### lose -/

@[simp] theorem State.lose_pending : (s.lose).pending = s.pending := rfl
@[simp] theorem State.lose_clock : (s.lose).clock = s.clock := rfl
@[simp] theorem State.lose_choices : (s.lose).choices = s.choices := rfl
@[simp] theorem State.lose_pins : (s.lose).pins = s.pins := rfl
@[simp] theorem State.lose_mp : (s.lose).mp = s.mp := rfl
@[simp] theorem State.lose_fu : (s.lose).fu = s.fu := rfl
@[simp] theorem State.lose_rc : (s.lose).rc = s.rc := rfl
@[simp] theorem State.lose_ste : (s.lose).ste = s.ste := rfl
@[simp] theorem State.lose_ts : (s.lose).ts = s.ts.lose s.rc.timeBase := rfl
@[simp] theorem State.lose_lau : (s.lose).lau = s.lau := rfl
@[simp] theorem State.lose_mc : (s.lose).mc = s.mc := rfl
@[simp] theorem State.lose_rm : (s.lose).rm = s.rm := rfl
@[simp] theorem State.lose_cdp : (s.lose).cdp = s.cdp := rfl
@[simp] theorem State.lose_cp : (s.lose).cp = s.cp := rfl
@[simp] theorem State.lose_tm : (s.lose).tm = s.tm := rfl
@[simp] theorem State.lose_dc : (s.lose).dc = s.dc := rfl
@[simp] theorem State.lose_permitMask : (s.lose).permitMask = s.permitMask := rfl
@[simp] theorem State.lose_permitLock : (s.lose).permitLock = s.permitLock := rfl
@[simp] theorem State.lose_sc : (s.lose).sc = s.sc := rfl

/-! ## A waiting record no request waits for, and the end of a USB transfer -/

@[simp] theorem Waiting.unawaited_record (w : Waiting) : w.unawaited.record = w.record := rfl
@[simp] theorem Waiting.unawaited_source (w : Waiting) : w.unawaited.source = w.source := rfl
@[simp] theorem Waiting.unawaited_reached (w : Waiting) : w.unawaited.reached = w.reached := rfl
@[simp] theorem Waiting.unawaited_endWork (w : Waiting) : w.unawaited.endWork = w.endWork := rfl
@[simp] theorem Waiting.unawaited_awaited (w : Waiting) : w.unawaited.awaited = false := rfl

@[simp] theorem Mp.endTransfer_queue (m : Mp) (e : Bool) : (m.endTransfer e).queue = m.queue := by cases e <;> rfl
@[simp] theorem Mp.endTransfer_reception (m : Mp) (e : Bool) : (m.endTransfer e).reception = m.reception := by cases e <;> rfl
@[simp] theorem Mp.endTransfer_inHand (m : Mp) (e : Bool) : (m.endTransfer e).inHand = m.inHand := by cases e <;> rfl
@[simp] theorem Mp.endTransfer_reply (m : Mp) (e : Bool) : (m.endTransfer e).reply = m.reply := by cases e <;> rfl
@[simp] theorem Mp.endTransfer_probeSent (m : Mp) (e : Bool) : (m.endTransfer e).probeSent = m.probeSent := by cases e <;> rfl
@[simp] theorem Mp.endTransfer_resetDue (m : Mp) (e : Bool) : (m.endTransfer e).resetDue = m.resetDue := by cases e <;> rfl
@[simp] theorem Mp.endTransfer_attached (m : Mp) (e : Bool) : (m.endTransfer e).attached = m.attached := by cases e <;> rfl
@[simp] theorem Mp.endTransfer_lastSent (m : Mp) (e : Bool) : (m.endTransfer e).lastSent = m.lastSent := by cases e <;> rfl
@[simp] theorem Mp.endTransfer_transfer (m : Mp) (e : Bool) :
    (m.endTransfer e).transfer = if e then .between else m.transfer := by cases e <;> rfl

end Sys2Proof.Machine
end

