-- ==== Sys2Proof/Laws/Handing.lean ====
section
/-! SUPPORT. What handing over a record or an event does, what raising a flag does, and what replacing one numbered block
leaves of the others. -/

namespace Sys2Proof.Machine

set_option Elab.async false

variable (s : State)

/-! ## Run states -/

/-- R1: the run state is ARMED or RUNNING. -/
theorem State.live_iff : s.live = true ↔ s.rc.runState = .armed ∨ s.rc.runState = .running := by
  unfold State.live; cases s.rc.runState <;> simp [RunState.live]

/-- R1: the run state is IDLE or ENDED. -/
theorem State.not_live_iff : s.live = false ↔ s.rc.runState = .idle ∨ s.rc.runState = .ended := by
  unfold State.live; cases s.rc.runState <;> simp [RunState.live]

/-! ## Records (R52) -/

/-- R52: outside a run a record handed over is discarded. -/
@[simp] theorem State.hand_of_idle {s : State} (src : RecSource) (r : Rec) (h : s.live = false) : s.hand src r = s := by
  simp [State.hand, h]

/-- R52: in a run a record handed over waits last at the TS. -/
theorem State.hand_of_live {s : State} (src : RecSource) (r : Rec) (h : s.live = true) :
    s.hand src r = { s with ts := { s.ts with input := s.ts.input ++
      [{ record := r, source := src, reached := s.clock, endWork := false, awaited := false }] } } := by
  simp [State.hand, h, State.enqueue]

/-- Handing over a record changes nothing but the records waiting at the TS. -/
theorem State.hand_eq (src : RecSource) (r : Rec) :
    s.hand src r = { s with ts := { s.ts with input := (s.hand src r).ts.input } } := by
  unfold State.hand; split <;> rfl

/-- R52: a record handed over goes behind those that wait. -/
theorem State.hand_behind (src : RecSource) (r : Rec) : s.ts.input <+: (s.hand src r).ts.input := by
  unfold State.hand; split
  · exact List.prefix_append _ _
  · exact List.prefix_refl _

@[simp] theorem State.hand_pending (src : RecSource) (r : Rec) : (s.hand src r).pending = s.pending := by
  rw [State.hand_eq]
@[simp] theorem State.hand_clock (src : RecSource) (r : Rec) : (s.hand src r).clock = s.clock := by rw [State.hand_eq]
@[simp] theorem State.hand_choices (src : RecSource) (r : Rec) : (s.hand src r).choices = s.choices := by
  rw [State.hand_eq]
@[simp] theorem State.hand_pins (src : RecSource) (r : Rec) : (s.hand src r).pins = s.pins := by rw [State.hand_eq]
@[simp] theorem State.hand_mp (src : RecSource) (r : Rec) : (s.hand src r).mp = s.mp := by rw [State.hand_eq]
@[simp] theorem State.hand_fu (src : RecSource) (r : Rec) : (s.hand src r).fu = s.fu := by rw [State.hand_eq]
@[simp] theorem State.hand_rc (src : RecSource) (r : Rec) : (s.hand src r).rc = s.rc := by rw [State.hand_eq]
@[simp] theorem State.hand_ste (src : RecSource) (r : Rec) : (s.hand src r).ste = s.ste := by rw [State.hand_eq]
@[simp] theorem State.hand_lau (src : RecSource) (r : Rec) : (s.hand src r).lau = s.lau := by rw [State.hand_eq]
@[simp] theorem State.hand_mc (src : RecSource) (r : Rec) : (s.hand src r).mc = s.mc := by rw [State.hand_eq]
@[simp] theorem State.hand_rm (src : RecSource) (r : Rec) : (s.hand src r).rm = s.rm := by rw [State.hand_eq]
@[simp] theorem State.hand_cdp (src : RecSource) (r : Rec) : (s.hand src r).cdp = s.cdp := by rw [State.hand_eq]
@[simp] theorem State.hand_cp (src : RecSource) (r : Rec) : (s.hand src r).cp = s.cp := by rw [State.hand_eq]
@[simp] theorem State.hand_tm (src : RecSource) (r : Rec) : (s.hand src r).tm = s.tm := by rw [State.hand_eq]
@[simp] theorem State.hand_dc (src : RecSource) (r : Rec) : (s.hand src r).dc = s.dc := by rw [State.hand_eq]
@[simp] theorem State.hand_permitMask (src : RecSource) (r : Rec) : (s.hand src r).permitMask = s.permitMask := by
  rw [State.hand_eq]
@[simp] theorem State.hand_permitLock (src : RecSource) (r : Rec) : (s.hand src r).permitLock = s.permitLock := by
  rw [State.hand_eq]
@[simp] theorem State.hand_sc (src : RecSource) (r : Rec) : (s.hand src r).sc = s.sc := by rw [State.hand_eq]

/-- A record handed over leaves the TS sound. -/
theorem State.hand_sound (src : RecSource) (r : Rec) (h : s.ts.Sound) : (s.hand src r).ts.Sound := by
  rw [State.hand_eq]; exact h

/-- R15: a closing record is a record of the end work, or one of the run. -/
theorem State.handClose_eq (ending : Bool) (src : RecSource) (r : Rec) :
    s.handClose ending src r = { s with ts := { s.ts with input := (s.handClose ending src r).ts.input } } := by
  unfold State.handClose
  cases ending
  · simpa using State.hand_eq s src r
  · rfl

/-! ## Flags (R136, R137) -/

/-- The bit of a flag is the bit of its number. -/
theorem Flag.bit_getLsbD (f : Flag) (n : Nat) (h : n < 15) : f.bit.getLsbD n = decide (n = f.number) := by
  simp only [Flag.bit, BitVec.getLsbD_twoPow]
  have : f.number < 15 := by cases f <;> decide
  by_cases e : f.number = n
  · simp [e, h]
  · simp [e, Ne.symm e]

/-- R136: the flag raised is set. -/
theorem Fu.raise_sets (u : Fu) (f : Flag) : (u.raise f).flags.getLsbD f.number = true := by
  have h : f.number < 15 := by cases f <;> decide
  simp [Fu.raise, Flag.bit_getLsbD f f.number h]

/-- R136: raising a flag leaves a flag that is set. -/
theorem Fu.raise_keeps (u : Fu) (f : Flag) (n : Nat) (h : u.flags.getLsbD n = true) :
    (u.raise f).flags.getLsbD n = true := by
  simp [Fu.raise, h]

/-- R136: raising a flag leaves every other flag. -/
theorem Fu.raise_other (u : Fu) (f : Flag) (n : Nat) (hn : n < 15) (h : n ≠ f.number) :
    (u.raise f).flags.getLsbD n = u.flags.getLsbD n := by
  simp [Fu.raise, Flag.bit_getLsbD f n hn, h]

/-- R136, R137: a flag already set and raised again changes nothing. -/
theorem Fu.raise_raise (u : Fu) (f : Flag) : (u.raise f).raise f = u.raise f := by
  simp only [Fu.raise, Fu.mk.injEq, true_and]
  constructor
  · ext i hi; simp
  · ext i hi; simp; grind

/-- R137: raising a flag keeps every flag of the waiting notice set and enabled. -/
theorem Fu.raise_sound (u : Fu) (f : Flag) (h : u.Sound) : (u.raise f).Sound := by
  unfold Fu.Sound at *
  ext i hi
  have := congrArg (fun b : BitVec 15 => b.getLsbD i) h
  simp only [BitVec.getLsbD_and, BitVec.getLsbD_not, hi] at this
  simp only [Fu.raise]
  simp
  simp [BitVec.getLsbD_eq_getElem hi] at this
  grind

/-- A flag raised where a condition holds. -/
theorem State.raiseIf_eq (c : Bool) (f : Flag) : s.raiseIf c f = { s with fu := (s.raiseIf c f).fu } := by
  unfold State.raiseIf; split <;> rfl

@[simp] theorem State.raiseIf_true (f : Flag) : s.raiseIf true f = s.raise f := rfl
@[simp] theorem State.raiseIf_false (f : Flag) : s.raiseIf false f = s := rfl
@[simp] theorem State.raiseIf_pending (c : Bool) (f : Flag) : (s.raiseIf c f).pending = s.pending := by
  rw [State.raiseIf_eq]
@[simp] theorem State.raiseIf_clock (c : Bool) (f : Flag) : (s.raiseIf c f).clock = s.clock := by rw [State.raiseIf_eq]
@[simp] theorem State.raiseIf_choices (c : Bool) (f : Flag) : (s.raiseIf c f).choices = s.choices := by
  rw [State.raiseIf_eq]
@[simp] theorem State.raiseIf_pins (c : Bool) (f : Flag) : (s.raiseIf c f).pins = s.pins := by rw [State.raiseIf_eq]
@[simp] theorem State.raiseIf_mp (c : Bool) (f : Flag) : (s.raiseIf c f).mp = s.mp := by rw [State.raiseIf_eq]
@[simp] theorem State.raiseIf_rc (c : Bool) (f : Flag) : (s.raiseIf c f).rc = s.rc := by rw [State.raiseIf_eq]
@[simp] theorem State.raiseIf_ste (c : Bool) (f : Flag) : (s.raiseIf c f).ste = s.ste := by rw [State.raiseIf_eq]
@[simp] theorem State.raiseIf_ts (c : Bool) (f : Flag) : (s.raiseIf c f).ts = s.ts := by rw [State.raiseIf_eq]
@[simp] theorem State.raiseIf_lau (c : Bool) (f : Flag) : (s.raiseIf c f).lau = s.lau := by rw [State.raiseIf_eq]
@[simp] theorem State.raiseIf_mc (c : Bool) (f : Flag) : (s.raiseIf c f).mc = s.mc := by rw [State.raiseIf_eq]
@[simp] theorem State.raiseIf_rm (c : Bool) (f : Flag) : (s.raiseIf c f).rm = s.rm := by rw [State.raiseIf_eq]
@[simp] theorem State.raiseIf_cdp (c : Bool) (f : Flag) : (s.raiseIf c f).cdp = s.cdp := by rw [State.raiseIf_eq]
@[simp] theorem State.raiseIf_cp (c : Bool) (f : Flag) : (s.raiseIf c f).cp = s.cp := by rw [State.raiseIf_eq]
@[simp] theorem State.raiseIf_tm (c : Bool) (f : Flag) : (s.raiseIf c f).tm = s.tm := by rw [State.raiseIf_eq]
@[simp] theorem State.raiseIf_dc (c : Bool) (f : Flag) : (s.raiseIf c f).dc = s.dc := by rw [State.raiseIf_eq]
@[simp] theorem State.raiseIf_permitMask (c : Bool) (f : Flag) : (s.raiseIf c f).permitMask = s.permitMask := by
  rw [State.raiseIf_eq]
@[simp] theorem State.raiseIf_permitLock (c : Bool) (f : Flag) : (s.raiseIf c f).permitLock = s.permitLock := by
  rw [State.raiseIf_eq]
@[simp] theorem State.raiseIf_sc (c : Bool) (f : Flag) : (s.raiseIf c f).sc = s.sc := by rw [State.raiseIf_eq]

/-! ## One instance of a numbered block -/

/-- The monitor channel replaced is the new one, and every other is as it was. -/
theorem State.setMc_get (c d : Fin 24) (m : Mc) : (s.setMc c m).mc[d] = if c = d then m else s.mc[d] := by
  simp [State.setMc, Vector.getElem_set, Fin.ext_iff]

/-- The rate monitor replaced is the new one, and every other is as it was. -/
theorem State.setRm_get (m n : Fin 4) (r : Rm) : (s.setRm m r).rm[n] = if m = n then r else s.rm[n] := by
  simp [State.setRm, Vector.getElem_set, Fin.ext_iff]

/-- The LAU replaced is the new one, and every other is as it was. -/
theorem State.setLau_get (b c : Fin 4) (l : Lau) : (s.setLau b l).lau[c] = if b = c then l else s.lau[c] := by
  simp [State.setLau, Vector.getElem_set, Fin.ext_iff]

/-- The console port replaced is the new one, and the other is as it was. -/
theorem State.setCp_get (p q : Fin 2) (c : Cp) : (s.setCp p c).cp[q] = if p = q then c else s.cp[q] := by
  simp [State.setCp, Vector.getElem_set, Fin.ext_iff]

/-- The text matcher replaced is the new one, and every other is as it was. -/
theorem State.setTm_get (m n : Fin 8) (t : Tm) : (s.setTm m t).tm[n] = if m = n then t else s.tm[n] := by
  simp [State.setTm, Vector.getElem_set, Fin.ext_iff]

/-- The drive channel replaced is the new one, and every other is as it was. -/
theorem State.setDc_get (c d : Fin 8) (x : Dc) : (s.setDc c x).dc[d] = if c = d then x else s.dc[d] := by
  simp [State.setDc, Vector.getElem_set, Fin.ext_iff]

/-- The evaluation record replaced is the new one, and every other is as it was. -/
theorem State.setEval_get (k j : Fin 64) (v : StepEval) :
    (s.setEval k v).ste.evals[j] = if k = j then some v else s.ste.evals[j] := by
  simp [State.setEval, Vector.getElem_set, Fin.ext_iff]

/-- A drive channel put back as it is changes nothing. -/
@[simp] theorem State.setDc_self (c : Fin 8) : s.setDc c s.dc[c] = s := by simp [State.setDc]

end Sys2Proof.Machine
end

