-- ==== Sys2Proof/Laws/Drive.lean ====
section
/-! SUPPORT. What the drive channels' shared operations do (chapter 9): an operation, a claim of a step, a forced release,
and the generator's ticks. -/

namespace Sys2Proof.Machine

set_option Elab.async false

/-- R117: the mode that an operation leaves. -/
theorem Dc.operate_mode (d : Dc) (op : DriveOp) : (d.operate op).mode = match op with
    | .release => .released
    | .low => .low
    | .high => .high
    | .startPulse => .pulse
    | .stopPulse => d.mode := by
  cases op <;> simp only [Dc.operate, Dc.stopGen, Dc.startGen]
  split <;> rfl

/-- R117, R118: an operation leaves the settings and the buffered values of the channel. -/
theorem Dc.operate_settings (d : Dc) (op : DriveOp) : (d.operate op).openDrain = d.openDrain ∧
    (d.operate op).activeHigh = d.activeHigh ∧ (d.operate op).railGated = d.railGated ∧
    (d.operate op).buffered = d.buffered := by
  cases op
  case stopPulse =>
    show (if d.mode = .pulse then d.stopGen else d).openDrain = _ ∧ (if d.mode = .pulse then d.stopGen else d).activeHigh = _
      ∧ (if d.mode = .pulse then d.stopGen else d).railGated = _ ∧ (if d.mode = .pulse then d.stopGen else d).buffered = _
    split <;> exact ⟨rfl, rfl, rfl, rfl⟩
  all_goals exact ⟨rfl, rfl, rfl, rfl⟩

/-- R115, R117: an operation keeps the generator sound. -/
theorem Dc.operate_sound (d : Dc) (op : DriveOp) (h : d.generatorSound) : (d.operate op).generatorSound := by
  cases op <;> simp only [Dc.operate, Dc.stopGen, Dc.startGen, Dc.generatorSound] at * <;> (try split) <;> simp_all

/-- R116: a tick keeps the generator sound, and the mode and the settings of the channel. -/
theorem Dc.tick_sound (d : Dc) (h : d.generatorSound) : d.tick.generatorSound := by
  unfold Dc.tick Dc.generatorSound at *
  split
  · split <;> simp_all
  · exact h

@[simp] theorem Dc.tick_mode (d : Dc) : d.tick.mode = d.mode := by
  unfold Dc.tick; split
  · split <;> rfl
  · rfl

@[simp] theorem Dc.tick_railGated (d : Dc) : d.tick.railGated = d.railGated := by
  unfold Dc.tick; split
  · split <;> rfl
  · rfl

/-- R115: the drive mode is RELEASED exactly in the mode RELEASED. -/
theorem Dc.driveMode_released (d : Dc) : d.driveMode = .released ↔ d.mode = .released := by
  unfold Dc.driveMode
  cases d.mode <;> simp
  split <;> simp

/-- A record of a drive channel changes nothing but the records waiting at the TS. -/
theorem State.handDrive_eq (s : State) (c : Fin 8) (m : DriveMode) (w : DriveCause) :
    s.handDrive c m w = { s with ts := { s.ts with input := (s.handDrive c m w).ts.input } } := State.hand_eq s _ _

/-- R117, R119: an operation taken changes its channel and, by its record, the records waiting at the TS. -/
theorem State.driveOperate_eq (s : State) (c : Fin 8) (op : DriveOp) (w : DriveCause) :
    s.driveOperate c op w = { s.setDc c (s.dc[c].operate op) with
      ts := { s.ts with input := (s.driveOperate c op w).ts.input } } := by
  simp only [State.driveOperate]
  split
  · exact State.handDrive_eq _ _ _ _
  · rfl

/-- R119: a step's claim is refused with DRIVE_BLOCK and nothing else, or is the operation taken. -/
theorem State.stepClaim_cases (s : State) (c : Fin 8) (op : DriveOp) :
    (op.drives = true ∧ s.dc[c].railGated = true ∧ s.lau[driveBank c].present = false ∧
      s.stepClaim c op = (s.raise .driveBlock, true)) ∨
    ((op.drives = false ∨ s.dc[c].railGated = false ∨ s.lau[driveBank c].present = true) ∧
      s.stepClaim c op = (s.driveOperate c op .step, false)) := by
  cases h1 : op.drives <;> cases h2 : s.dc[c].railGated <;> cases h3 : s.lau[driveBank c].present <;>
    simp [State.stepClaim, State.driveBlocked, h1, h2, h3, -Fin.getElem_fin]

/-- R120: a forced release does nothing to a channel that is not gated or is RELEASED. -/
theorem State.forceRelease_of_idle (s : State) (c : Fin 8) (h : s.dc[c].railGated = false ∨ s.dc[c].mode = .released) :
    s.forceRelease c = s := by
  unfold State.forceRelease
  rcases h with h | h
  · simp [h, -Fin.getElem_fin]
  · simp [(Dc.driveMode_released _).2 h, -Fin.getElem_fin]

/-- R120: a forced release of any other releases it, with its record and DRIVE_BLOCK. -/
theorem State.forceRelease_of_driving (s : State) (c : Fin 8) (hg : s.dc[c].railGated = true)
    (hm : s.dc[c].mode ≠ .released) :
    s.forceRelease c = ((s.setDc c (s.dc[c].operate .release)).handDrive c .released .rail).raise .driveBlock := by
  have : s.dc[c].driveMode ≠ .released := fun e => hm ((Dc.driveMode_released _).1 e)
  simp [State.forceRelease, hg, this, -Fin.getElem_fin]

/-- R120: a forced release changes its channel, the flags and the records waiting at the TS. -/
theorem State.forceRelease_eq (s : State) (c : Fin 8) : s.forceRelease c = { s with
    dc := (s.forceRelease c).dc, fu := (s.forceRelease c).fu
    ts := { s.ts with input := (s.forceRelease c).ts.input } } := by
  unfold State.forceRelease
  split
  · rw [State.handDrive_eq]; rfl
  · rfl

end Sys2Proof.Machine
end

