-- ==== Sys2Proof/Laws/PerInstr.lean ====
section
/-! SUPPORT. The round trip of the request commands, command by command: the frame that a well-formed request stands
for is taken by that request again. -/

namespace Sys2Proof.Laws.RoundTrip

set_option Elab.async false

open Sys2Proof.Machine

/-- The frame of a well-formed request command is taken by that command (R133, 12.1, 12.6). -/
def Statement (i : Instr) : Prop := ∀ e, i.wellFormed = true → i.entry = some e → e.command = i

/-- A frame of known kind and allowed body length is taken as the request it carries (R133). -/
theorem command_eq {k t : Byte} {b : Bytes} (hk : kindKnown k = true) (hb : bodyAllowed k b = true) :
    (Entry.frame k t b).command = requestOf k t b := by
  simp only [Entry.command, hk, hb, Bool.not_true, Bool.false_eq_true, if_false]

/-- A field of two bytes keeps a mask. -/
theorem ofNat_le2 (m : BitVec 16) : BitVec.ofNat 16 (field (le 2 m.toNat) 0 2) = m := by
  rw [field_le _ _ (by have := m.isLt; omega)]; simp

/-- A field of six bytes keeps a sequence number. -/
theorem ofNat_le6 (m : BitVec 48) (b : Bytes) : BitVec.ofNat 48 (field (le 6 m.toNat ++ b) 0 6) = m := by
  rw [field_le_append _ _ _ (by have := m.isLt; omega)]; simp

theorem por : Statement (.por) := by
  intro e _ he; cases he

theorem pinReset : Statement (.pinReset) := by
  intro e _ he; cases he

theorem softReset : Statement (.softReset) := by
  intro e _ he; cases he

theorem linkReset (detach : Bool) : Statement (.linkReset detach) := by
  intro e _ he; cases he

theorem frameReceive (bytes : OutBytes) : Statement (.frameReceive bytes) := by
  intro e _ he; cases he

theorem errorEntry (bytes : OutBytes) : Statement (.errorEntry bytes) := by
  intro e _ he; cases he

theorem unknownKind (kind t : Byte) (body : Bytes) : Statement (.unknownKind kind t body) := by
  intro e h he; cases he
  simp only [Instr.wellFormed, Bool.and_eq_true] at h
  simp [Entry.command, h.1]

theorem malformed (e : Entry) : Statement (.malformed e) := by
  intro e' h he; cases he
  cases e with
  | error => rfl
  | frame k t b =>
    simp only [Instr.wellFormed, Bool.and_eq_true, Bool.not_eq_true'] at h
    simp [Entry.command, h.1.1, h.1.2]

theorem replySend : Statement (.replySend) := by
  intro e _ he; cases he

theorem noticeSend : Statement (.noticeSend) := by
  intro e _ he; cases he

theorem identify (t : Byte) : Statement (.identify t) := by
  intro e h he; cases he; exact (command_eq rfl rfl).trans rfl

theorem resetProbe (t : Byte) : Statement (.resetProbe t) := by
  intro e h he; cases he; exact (command_eq rfl rfl).trans rfl

theorem flagsQuery (t : Byte) : Statement (.flagsQuery t) := by
  intro e h he; cases he; exact (command_eq rfl rfl).trans rfl

theorem flagsEnable (t : Byte) (mask : BitVec 16) : Statement (.flagsEnable t mask) := by
  intro e h he; cases he
  exact (command_eq rfl rfl).trans (by simp [requestOf, ofNat_le2])

theorem flagsClear (t : Byte) (mask : BitVec 16) : Statement (.flagsClear t mask) := by
  intro e h he; cases he
  exact (command_eq rfl rfl).trans (by simp [requestOf, ofNat_le2])

theorem runsetPut (t : Byte) (settings : Bytes) : Statement (.runsetPut t settings) := by
  intro e h he; cases he
  simp only [Instr.wellFormed, beq_iff_eq] at h
  exact (command_eq rfl (by simp [bodyAllowed, h])).trans rfl

theorem runsetGet (t copy : Byte) : Statement (.runsetGet t copy) := by
  intro e h he; cases he; exact (command_eq rfl rfl).trans rfl

theorem arm (t : Byte) : Statement (.arm t) := by
  intro e h he; cases he; exact (command_eq rfl rfl).trans rfl

theorem start (t : Byte) : Statement (.start t) := by
  intro e h he; cases he; exact (command_eq rfl rfl).trans rfl

theorem abort (t : Byte) : Statement (.abort t) := by
  intro e h he; cases he; exact (command_eq rfl rfl).trans rfl

theorem runQuery (t : Byte) : Statement (.runQuery t) := by
  intro e h he; cases he; exact (command_eq rfl rfl).trans rfl

theorem planPut (t entry used : Byte) (step : Bytes) : Statement (.planPut t entry used step) := by
  intro e h he; cases he
  simp only [Instr.wellFormed, usedLength, Bool.or_eq_true, Bool.and_eq_true, beq_iff_eq, bne_iff_ne, ne_eq] at h
  rcases h with h | ⟨h, hu⟩
  · exact (command_eq rfl (by simp [bodyAllowed, h])).trans rfl
  · exact (command_eq rfl (by simp [bodyAllowed, h, show ¬ used = 1#8 from hu])).trans rfl

theorem planGet (t entry copy : Byte) : Statement (.planGet t entry copy) := by
  intro e h he; cases he; exact (command_eq rfl rfl).trans rfl

theorem planWipe (t : Byte) : Statement (.planWipe t) := by
  intro e h he; cases he; exact (command_eq rfl rfl).trans rfl

theorem storeSet (t : Byte) (settings : Bytes) : Statement (.storeSet t settings) := by
  intro e h he; cases he
  simp only [Instr.wellFormed, beq_iff_eq] at h
  exact (command_eq rfl (by simp [bodyAllowed, h])).trans rfl

theorem storeQuery (t : Byte) : Statement (.storeQuery t) := by
  intro e h he; cases he; exact (command_eq rfl rfl).trans rfl

theorem fetch (t : Byte) (q : BitVec 48) (m : BitVec 16) : Statement (.fetch t q m) := by
  intro e h he; cases he
  have h2 : field (le 6 q.toNat ++ le 2 m.toNat) 6 2 = field (le 2 m.toNat) 0 2 := field_append _ _ _ _ (le_length _ _)
  exact (command_eq rfl rfl).trans (by simp [requestOf, ofNat_le2, ofNat_le6, h2])

theorem release (t : Byte) (seq : BitVec 48) : Statement (.release t seq) := by
  intro e h he; cases he
  have h6 := ofNat_le6 seq []
  rw [List.append_nil] at h6
  exact (command_eq rfl rfl).trans (by simp [requestOf, h6])

theorem trigger (t : Byte) : Statement (.trigger t) := by
  intro e h he; cases he; exact (command_eq rfl rfl).trans rfl

theorem mark (t : Byte) (label : Bytes) : Statement (.mark t label) := by
  intro e h he; cases he
  simp only [Instr.wellFormed, beq_iff_eq] at h
  exact (command_eq rfl (by simp [bodyAllowed, h])).trans rfl

theorem bankSet (t bank : Byte) (settings : Bytes) : Statement (.bankSet t bank settings) := by
  intro e h he; cases he
  simp only [Instr.wellFormed, beq_iff_eq] at h
  exact (command_eq rfl (by simp [bodyAllowed, h])).trans rfl

theorem acquire (t bank : Byte) : Statement (.acquire t bank) := by
  intro e h he; cases he; exact (command_eq rfl rfl).trans rfl

theorem bankQuery (t bank : Byte) : Statement (.bankQuery t bank) := by
  intro e h he; cases he; exact (command_eq rfl rfl).trans rfl

theorem chanSet (t channel : Byte) (settings : Bytes) : Statement (.chanSet t channel settings) := by
  intro e h he; cases he
  simp only [Instr.wellFormed, beq_iff_eq] at h
  exact (command_eq rfl (by simp [bodyAllowed, h])).trans rfl

theorem chanQuery (t : Byte) : Statement (.chanQuery t) := by
  intro e h he; cases he; exact (command_eq rfl rfl).trans rfl

theorem rateSet (t monitor : Byte) (settings : Bytes) : Statement (.rateSet t monitor settings) := by
  intro e h he; cases he
  simp only [Instr.wellFormed, beq_iff_eq] at h
  exact (command_eq rfl (by simp [bodyAllowed, h])).trans rfl

theorem rateQuery (t monitor : Byte) : Statement (.rateQuery t monitor) := by
  intro e h he; cases he; exact (command_eq rfl rfl).trans rfl

theorem codeSet (t : Byte) (settings : Bytes) : Statement (.codeSet t settings) := by
  intro e h he; cases he
  simp only [Instr.wellFormed, beq_iff_eq] at h
  exact (command_eq rfl (by simp [bodyAllowed, h])).trans rfl

theorem codeHistory (t option : Byte) : Statement (.codeHistory t option) := by
  intro e h he; cases he
  simp only [Instr.wellFormed, bne_iff_ne, ne_eq] at h
  exact (command_eq rfl rfl).trans (if_neg h)

theorem codeHistoryClear (t : Byte) : Statement (.codeHistoryClear t) := by
  intro e h he; cases he; exact (command_eq rfl rfl).trans rfl

theorem consSet (t port : Byte) (settings : Bytes) : Statement (.consSet t port settings) := by
  intro e h he; cases he
  simp only [Instr.wellFormed, beq_iff_eq] at h
  exact (command_eq rfl (by simp [bodyAllowed, h])).trans rfl

theorem consSend (t port : Byte) (bytes : Bytes) : Statement (.consSend t port bytes) := by
  intro e h he; cases he
  simp only [Instr.wellFormed, decide_eq_true_eq] at h
  have hb : (byte bytes.length).toNat = bytes.length := byte_toNat _ (by omega)
  exact (command_eq rfl (by simp [bodyAllowed, hb]; omega)).trans rfl

theorem consQuery (t port : Byte) : Statement (.consQuery t port) := by
  intro e h he; cases he; exact (command_eq rfl rfl).trans rfl

theorem matchSet (t matcher : Byte) (settings : Bytes) : Statement (.matchSet t matcher settings) := by
  intro e h he; cases he
  simp only [Instr.wellFormed, beq_iff_eq] at h
  exact (command_eq rfl (by simp [bodyAllowed, h])).trans rfl

theorem matchQuery (t matcher : Byte) : Statement (.matchQuery t matcher) := by
  intro e h he; cases he; exact (command_eq rfl rfl).trans rfl

theorem driveSetNone (t channel op : Byte) (part : Bytes) : Statement (.driveSetNone t channel op part) := by
  intro e h he; cases he
  simp only [Instr.wellFormed, Bool.and_eq_true, decide_eq_true_eq, partLength, Bool.or_eq_true, beq_iff_eq] at h
  have h5 : ∀ n < 5, op.toNat ≠ n := fun n hn => by omega
  have h0 := h5 0; have h1 := h5 1; have h2 := h5 2; have h3 := h5 3; have h4 := h5 4
  rcases h.2 with hl | hl <;>
    exact (command_eq rfl (by simp [bodyAllowed, hl])).trans (by simp [requestOf]; split <;> simp_all)

theorem driveSetRelease (t channel : Byte) (part : Bytes) : Statement (.driveSetRelease t channel part) := by
  intro e h he; cases he
  simp only [Instr.wellFormed, partLength, Bool.or_eq_true, beq_iff_eq] at h
  rcases h with h | h <;> exact (command_eq rfl (by simp [bodyAllowed, h])).trans rfl

theorem driveSetLow (t channel : Byte) (part : Bytes) : Statement (.driveSetLow t channel part) := by
  intro e h he; cases he
  simp only [Instr.wellFormed, partLength, Bool.or_eq_true, beq_iff_eq] at h
  rcases h with h | h <;> exact (command_eq rfl (by simp [bodyAllowed, h])).trans rfl

theorem driveSetHigh (t channel : Byte) (part : Bytes) : Statement (.driveSetHigh t channel part) := by
  intro e h he; cases he
  simp only [Instr.wellFormed, partLength, Bool.or_eq_true, beq_iff_eq] at h
  rcases h with h | h <;> exact (command_eq rfl (by simp [bodyAllowed, h])).trans rfl

theorem driveSetStartPulse (t channel : Byte) (part : Bytes) : Statement (.driveSetStartPulse t channel part) := by
  intro e h he; cases he
  simp only [Instr.wellFormed, partLength, Bool.or_eq_true, beq_iff_eq] at h
  rcases h with h | h <;> exact (command_eq rfl (by simp [bodyAllowed, h])).trans rfl

theorem driveSetStopPulse (t channel : Byte) (part : Bytes) : Statement (.driveSetStopPulse t channel part) := by
  intro e h he; cases he
  simp only [Instr.wellFormed, partLength, Bool.or_eq_true, beq_iff_eq] at h
  rcases h with h | h <;> exact (command_eq rfl (by simp [bodyAllowed, h])).trans rfl

theorem driveQuery (t channel : Byte) : Statement (.driveQuery t channel) := by
  intro e h he; cases he; exact (command_eq rfl rfl).trans rfl

theorem permitSet (t mask : Byte) : Statement (.permitSet t mask) := by
  intro e h he; cases he; exact (command_eq rfl rfl).trans rfl

theorem permitLock (t : Byte) : Statement (.permitLock t) := by
  intro e h he; cases he; exact (command_eq rfl rfl).trans rfl

theorem scanConfig (t : Byte) (settings : Bytes) : Statement (.scanConfig t settings) := by
  intro e h he; cases he
  simp only [Instr.wellFormed, beq_iff_eq] at h
  exact (command_eq rfl (by simp [bodyAllowed, h])).trans rfl

theorem templatePut (t template used : Byte) (body : Bytes) : Statement (.templatePut t template used body) := by
  intro e h he; cases he
  simp only [Instr.wellFormed, usedLength, Bool.or_eq_true, Bool.and_eq_true, beq_iff_eq, bne_iff_ne, ne_eq] at h
  rcases h with h | ⟨h, hu⟩
  · exact (command_eq rfl (by simp [bodyAllowed, h])).trans rfl
  · exact (command_eq rfl (by simp [bodyAllowed, h, show ¬ used = 1#8 from hu])).trans rfl

theorem templateGet (t template copy : Byte) : Statement (.templateGet t template copy) := by
  intro e h he; cases he; exact (command_eq rfl rfl).trans rfl

theorem scanSubmit (t job : Byte) (body : Bytes) : Statement (.scanSubmit t job body) := by
  intro e h he; cases he
  simp only [Instr.wellFormed, beq_iff_eq] at h
  exact (command_eq rfl (by simp [bodyAllowed, h])).trans rfl

theorem scanCancel (t job : Byte) : Statement (.scanCancel t job) := by
  intro e h he; cases he; exact (command_eq rfl rfl).trans rfl

theorem scanResult (t cls number : Byte) : Statement (.scanResult t cls number) := by
  intro e h he; cases he; exact (command_eq rfl rfl).trans rfl

theorem scanQuery (t : Byte) : Statement (.scanQuery t) := by
  intro e h he; cases he; exact (command_eq rfl rfl).trans rfl

theorem armTimeout : Statement (.armTimeout) := by
  intro e _ he; cases he

theorem limitExpiry : Statement (.limitExpiry) := by
  intro e _ he; cases he

theorem endRequest : Statement (.endRequest) := by
  intro e _ he; cases he

theorem eventDelivery (k : Nat) : Statement (.eventDelivery k) := by
  intro e _ he; cases he

theorem decisionTime : Statement (.decisionTime) := by
  intro e _ he; cases he

theorem recordTake (k : Nat) : Statement (.recordTake k) := by
  intro e _ he; cases he

theorem intervalStart (b : Fin 4) : Statement (.intervalStart b) := by
  intro e _ he; cases he

theorem acquisitionEnd (b : Fin 4) : Statement (.acquisitionEnd b) := by
  intro e _ he; cases he

theorem rawInputChange (pin : Pin) (mv : Nat) : Statement (.rawInputChange pin mv) := by
  intro e _ he; cases he

theorem transitionAccepted (c : Fin 24) : Statement (.transitionAccepted c) := by
  intro e _ he; cases he

theorem blankingEnd (c : Fin 24) : Statement (.blankingEnd c) := by
  intro e _ he; cases he

theorem tachFallingEdge (m : Fin 4) : Statement (.tachFallingEdge m) := by
  intro e _ he; cases he

theorem stallExpiry (m : Fin 4) : Statement (.stallExpiry m) := by
  intro e _ he; cases he

theorem gateEnd (m : Fin 4) : Statement (.gateEnd m) := by
  intro e _ he; cases he

theorem strobeEdge : Statement (.strobeEdge) := by
  intro e _ he; cases he

theorem strobeBlankingEnd : Statement (.strobeBlankingEnd) := by
  intro e _ he; cases he

theorem foldTimerExpiry : Statement (.foldTimerExpiry) := by
  intro e _ he; cases he

theorem waitIdleExpiry (p : Fin 2) : Statement (.waitIdleExpiry p) := by
  intro e _ he; cases he

theorem startEdge (p : Fin 2) : Statement (.startEdge p) := by
  intro e _ he; cases he

theorem startBitGlitch (p : Fin 2) : Statement (.startBitGlitch p) := by
  intro e _ he; cases he

theorem byteArrival (p : Fin 2) : Statement (.byteArrival p) := by
  intro e _ he; cases he

theorem heldFrameTaken (p : Fin 2) : Statement (.heldFrameTaken p) := by
  intro e _ he; cases he

theorem breakSeen (p : Fin 2) : Statement (.breakSeen p) := by
  intro e _ he; cases he

theorem waitHighRecovery (p : Fin 2) : Statement (.waitHighRecovery p) := by
  intro e _ he; cases he

theorem idleGapExpiry (p : Fin 2) (d : TextDir) : Statement (.idleGapExpiry p d) := by
  intro e _ he; cases he

theorem byteSendTime (p : Fin 2) : Statement (.byteSendTime p) := by
  intro e _ he; cases he

theorem byteSent (p : Fin 2) : Statement (.byteSent p) := by
  intro e _ he; cases he

theorem generatorActiveLevel (c : Fin 8) : Statement (.generatorActiveLevel c) := by
  intro e _ he; cases he

theorem periodEnd (c : Fin 8) : Statement (.periodEnd c) := by
  intro e _ he; cases he

theorem operationEnd : Statement (.operationEnd) := by
  intro e _ he; cases he

end Sys2Proof.Laws.RoundTrip
end

