-- ==== Sys2Proof/Laws/Scan.lean ====
section
/-! SUPPORT. What the Scan Controller's shared operations do (chapter 10): the completion of a job, the take of the queue's
head, and a cancellation; and what each of them leaves. -/

namespace Sys2Proof.Machine

set_option Elab.async false

/-- What an operation of the SC may change: the SC, the records waiting at the TS, the events handed to the STE, and the
flags. -/
structure ScanFrame (s t : State) : Prop where
  eq : t = { s with
    sc := t.sc, fu := t.fu, ts := { s.ts with input := t.ts.input }, ste := { s.ste with events := t.ste.events } }
  settings : t.sc.settings = s.sc.settings
  staged : t.sc.staged = s.sc.staged
  active : t.sc.active = s.sc.active
  behind : s.ts.input <+: t.ts.input

theorem ScanFrame.refl (s : State) : ScanFrame s s := ⟨rfl, rfl, rfl, rfl, List.prefix_refl _⟩

theorem ScanFrame.trans {s t u : State} (h : ScanFrame s t) (k : ScanFrame t u) : ScanFrame s u :=
  ⟨by
    have e := k.eq
    rw [h.eq] at e
    simpa using e, k.settings.trans h.settings, k.staged.trans h.staged, k.active.trans h.active,
    h.behind.trans k.behind⟩

theorem ScanFrame.rc {s t : State} (h : ScanFrame s t) : t.rc = s.rc := by rw [h.eq]
theorem ScanFrame.mp {s t : State} (h : ScanFrame s t) : t.mp = s.mp := by rw [h.eq]
theorem ScanFrame.lau {s t : State} (h : ScanFrame s t) : t.lau = s.lau := by rw [h.eq]
theorem ScanFrame.live {s t : State} (h : ScanFrame s t) : t.live = s.live := by simp [State.live, h.rc]

/-- A new state of the SC that keeps its settings and templates. -/
theorem ScanFrame.setSc (s : State) (c : Sc) (h1 : c.settings = s.sc.settings) (h2 : c.staged = s.sc.staged)
    (h3 : c.active = s.sc.active) : ScanFrame s (s.setSc c) := ⟨rfl, h1, h2, h3, List.prefix_refl _⟩

/-- R131: the completion of a job. -/
theorem State.completeJob_frame (s : State) (j : Job) (r : ScanResult) : ScanFrame s (s.completeJob j r) := by
  refine ⟨?_, ?_, ?_, ?_, ?_⟩
  · unfold State.completeJob
    simp only
    rw [State.hand_eq]
    cases j.cls
    · rfl
    · cases j.current <;> rfl
  rotate_right
  · unfold State.completeJob
    simp only
    have h := State.hand_behind (s.setSc (s.sc.addResult r)) .sc
      { time := s.rc.timeBase, body := .scan r.cls r.outcome r.reason r.inserted r.capture r.captureLen }
    cases j.cls
    · exact h
    · cases j.current <;> exact h
  all_goals
    unfold State.completeJob
    simp only
    cases j.cls
    · simp [Sc.addResult]
    · cases j.current <;> simp [Sc.addResult]

/-- R131: the result joins the list as its newest, and nothing else of the SC changes. -/
theorem State.completeJob_sc (s : State) (j : Job) (r : ScanResult) : (s.completeJob j r).sc = s.sc.addResult r := by
  unfold State.completeJob
  simp only
  cases j.cls
  · simp
  · cases j.current <;> simp

/-- R131: the completion raises SCAN_DONE and no other flag. -/
theorem State.completeJob_fu (s : State) (j : Job) (r : ScanResult) :
    (s.completeJob j r).fu = s.fu.raise .scanDone := by
  unfold State.completeJob
  simp only
  cases j.cls
  · simp [State.raise]
  · cases j.current <;> simp [State.raise]

/-- R127, R128: with a job active, or none waiting, the take does nothing. -/
theorem State.activateNext_of_idle (n : Nat) (s : State) (h : s.sc.job.isSome = true ∨ s.sc.queue = []) :
    s.activateNext n = s := by
  cases n with
  | zero => rfl
  | succ n =>
    unfold State.activateNext
    rcases h with h | h
    · obtain ⟨a, ha⟩ := Option.isSome_iff_exists.1 h; simp [ha]
    · cases hj : s.sc.job <;> simp [h]

/-- R128: with the rail PRESENT the head of the queue becomes active. -/
theorem State.scanGo_of_present (s : State) (j : Job) (js : List Job) (hj : s.sc.job = none)
    (hq : s.sc.queue = j :: js) (hp : s.lau[(3 : Fin 4)].present = true) :
    s.scanGo = s.setSc { s.sc with queue := js, job := some (j.activate { s.sc with queue := js } s.clock) } := by
  simp [State.scanGo, State.activateNext, hj, hq]
  exact (if_pos hp).trans rfl

/-- R127, R128: the take of the queue's head. -/
theorem State.activateNext_frame (n : Nat) (s : State) : ScanFrame s (s.activateNext n) := by
  induction n generalizing s with
  | zero => exact ScanFrame.refl s
  | succ n ih =>
    unfold State.activateNext
    dsimp only
    split
    · split
      · exact ScanFrame.trans (ScanFrame.setSc s _ rfl rfl rfl) (ScanFrame.setSc _ _ rfl rfl rfl)
      · refine ScanFrame.trans (ScanFrame.trans ?_ (State.completeJob_frame _ _ _)) (ih _)
        exact ScanFrame.setSc _ _ rfl rfl rfl
    · exact ScanFrame.refl s

/-- R127: the take of the queue's head. -/
theorem State.scanGo_frame (s : State) : ScanFrame s s.scanGo := State.activateNext_frame _ s

/-- R127: a step's SCAN action. -/
theorem State.submitStep_frame (s : State) (t : Fin 8) : ScanFrame s (s.submitStep t) := by
  unfold State.submitStep
  split
  · exact ScanFrame.refl s
  · dsimp only
    split
    · exact State.completeJob_frame _ _ _
    · refine ScanFrame.trans ?_ (State.scanGo_frame _)
      exact ScanFrame.setSc _ _ rfl rfl rfl

/-- R128: the end of the active job. -/
theorem State.endJob_frame (s : State) (a : Active) (o : ScanOutcome) (r : Option FaultReason) (tap : Option Tap) :
    ScanFrame s (s.endJob a o r tap) := by
  unfold State.endJob
  refine ScanFrame.trans (ScanFrame.trans ?_ (State.completeJob_frame _ _ _)) (State.scanGo_frame _)
  exact ScanFrame.setSc _ _ rfl rfl rfl

/-- R129: jobs completed CANCELLED one after another. -/
theorem State.cancelJobs_frame (s : State) (js : List Job) : ScanFrame s (s.cancelJobs js) := by
  unfold State.cancelJobs
  induction js generalizing s with
  | nil => exact ScanFrame.refl s
  | cons j js ih => exact ScanFrame.trans (State.completeJob_frame _ _ _) (ih _)

/-- R129: a cancellation. -/
theorem State.cancelWhere_frame (s : State) (p : Job → Bool) : ScanFrame s (s.cancelWhere p) := by
  unfold State.cancelWhere
  dsimp only
  refine ScanFrame.trans ?_ (State.cancelJobs_frame _ _)
  exact ScanFrame.setSc _ _ rfl rfl rfl

/-- R129: jobs completed CANCELLED leave the queue, the active job and the TAP state. -/
theorem State.cancelJobs_sc (s : State) (js : List Job) : (s.cancelJobs js).sc.queue = s.sc.queue ∧
    (s.cancelJobs js).sc.job = s.sc.job ∧ (s.cancelJobs js).sc.tap = s.sc.tap := by
  unfold State.cancelJobs
  induction js generalizing s with
  | nil => exact ⟨rfl, rfl, rfl⟩
  | cons j js ih =>
    obtain ⟨h1, h2, h3⟩ := ih (s.completeJob j (j.bareResult .cancelled none))
    have hs := State.completeJob_sc s j (j.bareResult .cancelled none)
    simp only [List.foldl_cons]
    exact ⟨by rw [h1, hs]; rfl, by rw [h2, hs]; rfl, by rw [h3, hs]; rfl⟩

/-- R130: the loss of bank D's rail. -/
theorem State.scanRailLoss_frame (s : State) : ScanFrame s s.scanRailLoss := by
  unfold State.scanRailLoss
  split
  · exact State.endJob_frame _ _ _ _ _
  · refine ScanFrame.trans ?_ (State.scanGo_frame _)
    exact ScanFrame.setSc _ _ rfl rfl rfl

end Sys2Proof.Machine
end

