-- ==== Sys2Proof/Laws/Rails.lean ====
section
/-! SUPPORT. What the blocks of a bank may change, said once for every operation of chapters 5 to 8: a record closed, a byte
taken, a rail lost or come, a threshold moved. -/

namespace Sys2Proof.Machine

set_option Elab.async false

/-- What the operations of the input side may change: the blocks with pins on a bank, the flags, the records waiting at the
TS, and the events handed to the STE. -/
structure BoardFrame (s t : State) : Prop where
  eq : t = { s with
    fu := t.fu, ts := { s.ts with input := t.ts.input }, ste := { s.ste with events := t.ste.events }
    lau := t.lau, mc := t.mc, rm := t.rm, cdp := t.cdp, cp := t.cp, tm := t.tm, dc := t.dc, sc := t.sc }

theorem BoardFrame.refl (s : State) : BoardFrame s s := ⟨rfl⟩

theorem BoardFrame.trans {s t u : State} (h : BoardFrame s t) (k : BoardFrame t u) : BoardFrame s u :=
  ⟨by
    have e := k.eq
    rw [h.eq] at e
    simpa using e⟩

theorem ScanFrame.boardFrame {s t : State} (h : ScanFrame s t) : BoardFrame s t :=
  ⟨by have e := h.eq; rw [e]⟩

theorem BoardFrame.rc {s t : State} (h : BoardFrame s t) : t.rc = s.rc := by rw [h.eq]
theorem BoardFrame.mp {s t : State} (h : BoardFrame s t) : t.mp = s.mp := by rw [h.eq]
theorem BoardFrame.clock {s t : State} (h : BoardFrame s t) : t.clock = s.clock := by rw [h.eq]
theorem BoardFrame.pins {s t : State} (h : BoardFrame s t) : t.pins = s.pins := by rw [h.eq]
theorem BoardFrame.pending {s t : State} (h : BoardFrame s t) : t.pending = s.pending := by rw [h.eq]
theorem BoardFrame.choices {s t : State} (h : BoardFrame s t) : t.choices = s.choices := by rw [h.eq]
theorem BoardFrame.permitMask {s t : State} (h : BoardFrame s t) : t.permitMask = s.permitMask := by rw [h.eq]
theorem BoardFrame.permitLock {s t : State} (h : BoardFrame s t) : t.permitLock = s.permitLock := by rw [h.eq]
theorem BoardFrame.live {s t : State} (h : BoardFrame s t) : t.live = s.live := by simp [State.live, h.rc]
theorem BoardFrame.evals {s t : State} (h : BoardFrame s t) : t.ste.evals = s.ste.evals := by rw [h.eq]
theorem BoardFrame.plan {s t : State} (h : BoardFrame s t) : t.ste.active = s.ste.active := by rw [h.eq]
theorem BoardFrame.records {s t : State} (h : BoardFrame s t) : t.ts.records = s.ts.records := by rw [h.eq]

/-- The store stays sound (R51, R53). -/
theorem BoardFrame.sound {s t : State} (h : BoardFrame s t) (hs : s.ts.Sound) : t.ts.Sound := by
  rw [h.eq]; exact hs

/-- An operation done for each of several instances. -/
theorem BoardFrame.foldl {α : Type} (f : State → α → State) (h : ∀ s a, BoardFrame s (f s a)) (s : State) (l : List α) :
    BoardFrame s (l.foldl f s) := by
  induction l generalizing s with
  | nil => exact BoardFrame.refl s
  | cons a l ih => exact BoardFrame.trans (h s a) (ih _)

theorem State.hand_boardFrame (s : State) (src : RecSource) (r : Rec) : BoardFrame s (s.hand src r) := by
  unfold State.hand; split <;> exact ⟨rfl⟩

theorem State.handClose_boardFrame (s : State) (ending : Bool) (src : RecSource) (r : Rec) :
    BoardFrame s (s.handClose ending src r) := by
  unfold State.handClose; split
  · exact ⟨rfl⟩
  · exact State.hand_boardFrame _ _ _

theorem State.raiseIf_boardFrame (s : State) (c : Bool) (f : Flag) : BoardFrame s (s.raiseIf c f) := by
  unfold State.raiseIf; split <;> exact ⟨rfl⟩

/-! ## The code port and the console ports -/

/-- R99: the close of the open CODE record. -/
theorem State.closeCode_boardFrame (s : State) (ending : Bool) : BoardFrame s (s.closeCode ending) := by
  unfold State.closeCode
  split
  · exact BoardFrame.refl s
  · refine BoardFrame.trans ?_ (State.handClose_boardFrame _ _ _ _)
    exact ⟨rfl⟩

/-- R107: the close of an open fragment. -/
theorem State.closeFragment_boardFrame (s : State) (ending : Bool) (p : Fin 2) (d : TextDir) (brk : Bool) :
    BoardFrame s (s.closeFragment ending p d brk) := by
  unfold State.closeFragment
  split
  · exact BoardFrame.refl s
  · refine BoardFrame.trans ?_ (State.handClose_boardFrame _ _ _ _)
    exact ⟨rfl⟩

/-- R107: a byte joins a fragment. -/
theorem State.addByte_boardFrame (s : State) (p : Fin 2) (d : TextDir) (b : Byte) (t : Nat) (err : Bool) :
    BoardFrame s (s.addByte p d b t err) := by
  unfold State.addByte
  split
  · dsimp only
    split
    · refine BoardFrame.trans ?_ (State.closeFragment_boardFrame _ _ _ _ _)
      exact ⟨rfl⟩
    · exact ⟨rfl⟩
  · exact BoardFrame.refl s

/-- R112: a matcher takes a byte. -/
theorem State.matchByte_boardFrame (s : State) (b : Byte) (t : Nat) (m : Fin 8) :
    BoardFrame s (State.matchByte b t s m) := by
  unfold State.matchByte
  dsimp only
  split <;> exact ⟨rfl⟩

theorem State.matchAll_boardFrame (s : State) (p : Fin 2) (b : Byte) (t : Nat) : BoardFrame s (s.matchAll p b t) := by
  unfold State.matchAll
  refine BoardFrame.foldl _ (fun s m => ?_) _ _
  split
  · exact State.matchByte_boardFrame _ _ _ _
  · exact BoardFrame.refl s

theorem State.restartMatchers_boardFrame (s : State) (p : Fin 2) : BoardFrame s (s.restartMatchers p) := by
  unfold State.restartMatchers
  refine BoardFrame.foldl _ (fun s m => ?_) _ _
  split <;> exact ⟨rfl⟩

/-- R105: a byte taken by the receiver. -/
theorem State.takeByte_boardFrame (s : State) (p : Fin 2) (b : Byte) (t : Nat) (err : Bool) :
    BoardFrame s (s.takeByte p b t err) := by
  unfold State.takeByte
  dsimp only
  refine BoardFrame.trans (State.addByte_boardFrame s p .rx b t err) ?_
  split
  · exact State.restartMatchers_boardFrame _ _
  · exact State.matchAll_boardFrame _ _ _ _

/-- R104, R110: the transmit side discarded. -/
theorem State.dropTransmit_boardFrame (s : State) (p : Fin 2) : BoardFrame s (s.dropTransmit p) := by
  unfold State.dropTransmit
  refine BoardFrame.trans ?_ (State.raiseIf_boardFrame _ _ _)
  exact ⟨rfl⟩

/-- R110: the loss of a port's rail. -/
theorem State.portRailLoss_boardFrame (s : State) (p : Fin 2) : BoardFrame s (s.portRailLoss p) := by
  unfold State.portRailLoss
  dsimp only
  refine BoardFrame.trans ?_ (State.restartMatchers_boardFrame _ _)
  refine BoardFrame.trans ?_ (State.dropTransmit_boardFrame _ _)
  refine BoardFrame.trans (State.closeFragment_boardFrame s false p .rx false) ?_
  refine BoardFrame.trans (State.closeFragment_boardFrame _ false p .tx false) ?_
  exact ⟨rfl⟩

/-- R99: what a capture does to the open CODE record. -/
theorem State.recordCode_boardFrame (s : State) (code : Byte) (folds : Bool) : BoardFrame s (s.recordCode code folds) := by
  unfold State.recordCode
  dsimp only
  split
  · split
    · exact ⟨rfl⟩
    · have h1 := State.closeCode_boardFrame s false
      split
      · refine BoardFrame.trans (BoardFrame.trans h1 ?_) (State.closeCode_boardFrame _ false)
        exact ⟨rfl⟩
      · refine BoardFrame.trans h1 ?_
        exact ⟨rfl⟩
  · exact BoardFrame.refl s

/-- R97 to R100: a capture. -/
theorem State.capture_boardFrame (s : State) (code : Byte) : BoardFrame s (s.capture code) := by
  unfold State.capture
  split
  · exact BoardFrame.refl s
  · dsimp only
    have h : ∀ (u : State) (e : Event), BoardFrame u ((u.handEvent e).raise .code) := fun u e => ⟨rfl⟩
    refine BoardFrame.trans (BoardFrame.trans ?_ (State.recordCode_boardFrame _ _ _)) (h _ _)
    exact ⟨rfl⟩

/-! ## Samples and the drive channels -/

theorem State.sampleRx_boardFrame (s : State) (p : Fin 2) : BoardFrame s (s.sampleRx p) := ⟨rfl⟩

theorem State.sampleChannel_boardFrame (s : State) (c : Fin 24) : BoardFrame s (s.sampleChannel c) := by
  unfold State.sampleChannel
  refine BoardFrame.foldl _ (fun s m => ?_) _ _
  split <;> exact ⟨rfl⟩

theorem State.resampleBank_boardFrame (s : State) (b : Fin 4) : BoardFrame s (s.resampleBank b) := by
  unfold State.resampleBank
  refine BoardFrame.trans (BoardFrame.foldl _ (fun s p => ?_) s _) (BoardFrame.foldl _ (fun s c => ?_) _ _)
  · exact State.sampleRx_boardFrame s p
  · exact State.sampleChannel_boardFrame s c

theorem State.forceRelease_boardFrame (s : State) (c : Fin 8) : BoardFrame s (s.forceRelease c) :=
  ⟨by have e := State.forceRelease_eq s c; rw [e]⟩

/-! ## Rails and thresholds (R71, R79) -/

theorem State.blankBank_boardFrame (s : State) (b : Fin 4) : BoardFrame s (s.blankBank b) := by
  unfold State.blankBank
  refine BoardFrame.foldl _ (fun s c => ?_) _ _
  exact ⟨rfl⟩

theorem State.loseChannels_boardFrame (s : State) (b : Fin 4) : BoardFrame s (s.loseChannels b) := by
  unfold State.loseChannels
  refine BoardFrame.foldl _ (fun s c => ?_) _ _
  exact ⟨rfl⟩

/-- R79: a rail is lost. -/
theorem State.railLost_boardFrame (s : State) (b : Fin 4) : BoardFrame s (s.railLost b) := by
  unfold State.railLost
  dsimp only
  have h1 := State.loseChannels_boardFrame s b
  have h2 := BoardFrame.trans h1 (BoardFrame.foldl (fun (s : State) (m : Fin 4) => s.setRm m s.rm[m].railLoss)
    (fun s m => ⟨rfl⟩) _ ((s.loseChannels b).bankMonitors b))
  have h3 := BoardFrame.trans h2 (BoardFrame.foldl State.forceRelease State.forceRelease_boardFrame _ (bankDrives b))
  have h4 := BoardFrame.trans h3 (BoardFrame.foldl State.portRailLoss State.portRailLoss_boardFrame _ (bankPorts b))
  split
  · refine BoardFrame.trans h4 (BoardFrame.trans ?_ (State.scanRailLoss_frame _).boardFrame)
    unfold State.codeRailLoss
    refine BoardFrame.trans ?_ (State.closeCode_boardFrame _ _)
    exact ⟨rfl⟩
  · exact h4

/-- R79: a rail comes. -/
theorem State.railCame_boardFrame (s : State) (b : Fin 4) : BoardFrame s (s.railCame b) := by
  unfold State.railCame
  dsimp only
  have h1 := State.blankBank_boardFrame s b
  have h2 := BoardFrame.trans h1 (BoardFrame.foldl
    (fun (s : State) (m : Fin 4) => s.setRm m (s.rm[m].railReturn (s.rawMc s.rm[m].settings.channel)))
    (fun s m => ⟨rfl⟩) _ ((s.blankBank b).bankMonitors b))
  have h3 := BoardFrame.trans h2 (BoardFrame.foldl
    (fun (s : State) (p : Fin 2) => s.setCp p (s.cp[p].beginWait (s.readRx p) s.clock))
    (fun s p => ⟨rfl⟩) _ (bankPorts b))
  split
  · refine BoardFrame.trans h3 ?_
    exact ⟨rfl⟩
  · exact h3

theorem State.thresholdMoved_boardFrame (s : State) (b : Fin 4) : BoardFrame s (s.thresholdMoved b) := by
  unfold State.thresholdMoved
  dsimp only
  split
  · refine BoardFrame.trans (State.blankBank_boardFrame s b) ?_
    exact ⟨rfl⟩
  · exact State.blankBank_boardFrame s b

/-- R71, R79: a bank takes a threshold and a rail state. -/
theorem State.setBank_boardFrame (s : State) (b : Fin 4) (threshold : Nat) (present : Bool) :
    BoardFrame s (s.setBank b threshold present) := by
  unfold State.setBank
  dsimp only
  have h0 : BoardFrame s (s.setLau b { s.lau[b] with threshold, present }) := ⟨rfl⟩
  have h1 : BoardFrame s (if s.lau[b].threshold ≠ threshold then
      (s.setLau b { s.lau[b] with threshold, present }).resampleBank b
      else s.setLau b { s.lau[b] with threshold, present }) := by
    split
    · exact BoardFrame.trans h0 (State.resampleBank_boardFrame _ b)
    · exact h0
  split
  · split
    · exact BoardFrame.trans h1 (State.thresholdMoved_boardFrame _ b)
    · exact h1
  · have h2 : ∀ (u : State) (e : Event), BoardFrame u ((u.handEvent e).raise .rail) := fun u e => ⟨rfl⟩
    split
    · exact BoardFrame.trans (BoardFrame.trans h1 (h2 _ _)) (State.railCame_boardFrame _ b)
    · exact BoardFrame.trans (BoardFrame.trans h1 (h2 _ _)) (State.railLost_boardFrame _ b)

/-- R73, R75: the end of an acquisition. -/
theorem State.endAcq_boardFrame (s : State) (b : Fin 4) (a : Acq) : BoardFrame s (s.endAcq b a) := by
  unfold State.endAcq
  dsimp only
  have h1 : BoardFrame s (s.setLau b { s.lau[b] with lastCode := a.result, acq := none }) := ⟨rfl⟩
  have key : ∀ u : State, BoardFrame s u →
      BoardFrame s (if s.lau[b].trackWaiting = true then u.beginAcq b .track else u) := fun u h => by
    split
    · refine BoardFrame.trans h ?_
      exact ⟨rfl⟩
    · exact h
  have h3 : ∀ (u : State) (c : Nat) (d : Bool), BoardFrame u (u.handLevel b c d) := fun u c d => by
    unfold State.handLevel
    split
    · exact State.hand_boardFrame _ _ _
    · exact BoardFrame.refl u
  refine key _ (BoardFrame.trans (BoardFrame.trans ?_ (h3 _ _ _)) (State.raiseIf_boardFrame _ _ _))
  split
  · refine BoardFrame.trans ?_ (State.setBank_boardFrame _ _ _ _)
    exact h1
  · exact h1

/-- R94: a change of a monitor. -/
theorem State.updateRm_boardFrame (s : State) (m : Fin 4) (r : Rm) : BoardFrame s (s.updateRm m r) := by
  unfold State.updateRm State.reportRate
  dsimp only
  split
  · exact ⟨rfl⟩
  · refine BoardFrame.trans ?_ (State.hand_boardFrame _ _ _)
    exact ⟨rfl⟩

end Sys2Proof.Machine
end

