-- ==== Sys2Proof/Laws/Requests.lean ====
section
/-! SUPPORT. What taking a request does (R133, R134), said once for every request: it waits, is answered, or is refused; and
what the reception of a frame does. -/

namespace Sys2Proof.Machine

set_option Elab.async false

/-- R134: a busy MP takes no request. -/
theorem Mp.canTake_of_busy {m : Mp} (c : Instr) (h : m.busy = true) : m.canTake c = false := by
  unfold Mp.busy at h; unfold Mp.canTake
  cases h1 : m.inHand <;> cases h2 : m.reply <;> cases h3 : m.resetDue <;> simp_all

/-- R134: a request behind another entry is not taken. -/
theorem Mp.canTake_of_behind {m : Mp} {c : Instr} {e : Entry} {q : List Entry} (h : m.queue = e :: q)
    (hc : e.command ≠ c) : m.canTake c = false := by
  simp [Mp.canTake, h, hc]

/-- R134: a request that can be taken is not taken from a busy MP. -/
theorem Mp.canTake_inHand {m : Mp} {c : Instr} (h : m.canTake c = true) :
    m.inHand = none ∧ m.reply = none ∧ m.resetDue = false := by
  unfold Mp.canTake at h
  cases h1 : m.inHand <;> cases h2 : m.reply <;> cases h3 : m.resetDue <;> simp_all

/-- R134: a request that can be taken is at the head of the queue, or the queue is empty. -/
theorem Mp.canTake_head {m : Mp} {c : Instr} (h : m.canTake c = true) :
    m.queue = [] ∨ ∃ e q, m.queue = e :: q ∧ e.command = c := by
  unfold Mp.canTake at h
  rcases hq : m.queue with _ | ⟨e, q⟩
  · exact .inl rfl
  · exact .inr ⟨e, q, rfl, by simp_all⟩

/-- A request that cannot be taken changes nothing. -/
theorem takeRequest_of_waiting {c : Instr} {s : State} (k t : Byte) (owner : State → Answer)
    (h : s.mp.canTake c = false) : takeRequest c k t owner s = s := by
  simp [takeRequest, h]

/-- R137: a command that leaves the notice slot as it was makes no notice ready together with a reply. -/
theorem State.beside_of_slot {s t : State} (h : t.fu.slot = s.fu.slot) : s.beside t = t := by
  unfold State.beside; rw [h]; cases hs : s.fu.slot == 0 <;> simp_all

/-- R137: what a reply and a notice placed by one command leave, an answered state `u` from `s`. -/
theorem State.beside_answered (s u : State) (k t : Byte) (st : Status) (b : Bytes) :
    s.beside (u.answered k t st b) = u.answeredFrom s k t st b := by
  by_cases h : s.fu.slot = 0 ∧ u.fu.slot ≠ 0
  · have hc : (s.fu.slot == 0 && (u.answered k t st b).fu.slot != 0 && (u.answered k t st b).mp.reply.isSome) = true := by
      simpa [State.answered] using h
    unfold State.beside; rw [if_pos hc]; simp only [State.answeredFrom]
    rw [decide_eq_true h, Bool.or_true]
  · have hc : ¬(s.fu.slot == 0 && (u.answered k t st b).fu.slot != 0 && (u.answered k t st b).mp.reply.isSome) = true := by
      simpa [State.answered] using h
    unfold State.beside; rw [if_neg hc]; simp only [State.answeredFrom]
    rw [decide_eq_false h, Bool.or_false]

/-- R137: nothing but the mark of the MP depends on what became ready together. -/
theorem State.beside_eq (s t : State) : ∃ m, s.beside t = { t with mp := { t.mp with together := m } } := by
  unfold State.beside; split
  · exact ⟨true, rfl⟩
  · exact ⟨t.mp.together, rfl⟩

/-- An answered state whose notice slot is that of `s` has no notice that became ready with its reply. -/
theorem answeredFrom_of_slot {u s : State} {k t : Byte} {st : Status} {b : Bytes} (h : u.fu.slot = s.fu.slot) :
    u.answeredFrom s k t st b = u.answered k t st b := by
  rw [← State.beside_answered]; exact State.beside_of_slot h

/-- A request that can be taken, of an allowed body length, is its owner's work on the state without the entry, answered. -/
theorem takeRequest_of_taken {c : Instr} {s : State} (k t : Byte) (owner : State → Answer) (h : s.mp.canTake c = true)
    (hb : c.bodyOk = true) : takeRequest c k t owner s = s.beside ((owner { s with mp := s.mp.pop }).send k t) := by
  simp [takeRequest, h, hb]

/-- R133: a request of a body length that its kind does not allow is answered MALFORMED. -/
theorem takeRequest_of_malformed {c : Instr} {s : State} (k t : Byte) (owner : State → Answer)
    (h : s.mp.canTake c = true) (hb : c.bodyOk = false) :
    takeRequest c k t owner s = s.answered k t .malformed [] := by
  simp only [takeRequest, h, hb, if_true]
  exact State.beside_of_slot rfl

/-- An owner that answers without changing the state leaves the state answered. -/
theorem takeRequest_unchanged {c : Instr} {s : State} {k t : Byte} {owner : State → Answer} {st : Status} {b : Bytes}
    (h : s.mp.canTake c = true) (hb : c.bodyOk = true)
    (ho : owner { s with mp := s.mp.pop } = { state := { s with mp := s.mp.pop }, status := st, body := b }) :
    takeRequest c k t owner s = s.answered k t st b := by
  rw [takeRequest_of_taken k t owner h hb, ho]; exact State.beside_of_slot rfl

/-- An owner that accepts with a state that keeps the MP leaves that state answered, with a notice that it placed ready
together with the reply. -/
theorem takeRequest_changed {c : Instr} {s u : State} {k t : Byte} {owner : State → Answer} {st : Status} {b : Bytes}
    (h : s.mp.canTake c = true) (hb : c.bodyOk = true) (hu : u.mp = s.mp)
    (ho : owner { s with mp := s.mp.pop } = { state := { u with mp := s.mp.pop }, status := st, body := b }) :
    takeRequest c k t owner s = u.answeredFrom s k t st b := by
  rw [takeRequest_of_taken k t owner h hb, ho, ← State.beside_answered]
  simp only [Answer.send, State.reply, State.answered, Mp.pop, hu]

/-- An owner that accepts with a state that keeps the MP and the notice slot leaves that state answered. -/
theorem takeRequest_quiet {c : Instr} {s u : State} {k t : Byte} {owner : State → Answer} {st : Status} {b : Bytes}
    (h : s.mp.canTake c = true) (hb : c.bodyOk = true) (hu : u.mp = s.mp) (hf : u.fu.slot = s.fu.slot)
    (ho : owner { s with mp := s.mp.pop } = { state := { u with mp := s.mp.pop }, status := st, body := b }) :
    takeRequest c k t owner s = u.answered k t st b := by
  rw [takeRequest_changed h hb hu ho, answeredFrom_of_slot hf]

/-- R133: what the MP's own answer to an entry does. -/
theorem answerEntry_of_taken {s : State} {c : Instr} {e : Entry} (h : s.mp.canTake c = true) (hc : e.command = c) :
    s.answerEntry c e =
      s.answered (errorReply e).kind (errorReply e).tag (errorReply e).status (errorReply e).body := by
  simp only [State.answerEntry, h, hc, beq_self_eq_true, Bool.and_self, if_true]; rfl

/-- A request leaves the queue of waiting commands, the clock, the count of choices and the pins to its owner alone. -/
theorem takeRequest_frame {c : Instr} {s : State} {k t : Byte} {owner : State → Answer}
    (h : ∀ u : State, (owner u).state.pending = u.pending ∧ (owner u).state.choices = u.choices ∧
      (owner u).state.clock = u.clock ∧ (owner u).state.pins = u.pins) :
    (takeRequest c k t owner s).pending = s.pending ∧ (takeRequest c k t owner s).choices = s.choices ∧
      (takeRequest c k t owner s).clock = s.clock ∧ (takeRequest c k t owner s).pins = s.pins := by
  have h1 := h { s with mp := s.mp.pop }
  cases hc : s.mp.canTake c <;> cases hb : c.bodyOk <;>
    simp only [takeRequest, hc, hb, if_true, Bool.false_eq_true, if_false, Answer.send, refuse, State.beside_pending,
      State.beside_choices, State.beside_clock, State.beside_pins] <;>
    first
      | exact h1
      | simp

/-! ## Frames (12.1, R133) -/

/-- A frame is six bytes and its body. -/
@[simp] theorem frameBytes_length (k t st : Byte) (b : Bytes) : (frameBytes k t st b).length = 6 + b.length := by
  simp [frameBytes]; omega

/-- The length field of a frame is its length, where that fits the field. -/
theorem frameLength_frameBytes (k t st : Byte) (b : Bytes) (h : b.length ≤ 1018) :
    frameLength (frameBytes k t st b) = 6 + b.length := by
  unfold frameLength frameBytes; rw [List.append_assoc, field_le_append]; omega

/-- R133: a frame of at most 1,024 bytes has a good length field. -/
theorem lengthGood_frameBytes (k t st : Byte) (b : Bytes) (h : b.length ≤ 1018) :
    lengthGood (frameBytes k t st b) = true := by
  simp [lengthGood, frameLength_frameBytes k t st b h]; omega

/-- R133: the length field is in the first two bytes of a frame. -/
theorem frameLength_of_prefix {buf rest frame : Bytes} (h : buf ++ rest = frame) (h2 : 2 ≤ buf.length) :
    frameLength buf = frameLength frame := by
  subst h; unfold frameLength field
  rw [List.drop_zero, List.drop_zero, List.take_append_of_le_length h2]

/-- R133: a byte that leaves its frame incomplete waits in reception. -/
theorem Mp.takeByte_waits {m : Mp} {x k t st : Byte} {rest b : Bytes} (ht : m.transfer ≠ .discarding)
    (h : m.reception ++ x :: rest = frameBytes k t st b) (hr : rest ≠ []) (hb : b.length ≤ 1018) :
    m.takeByte x = { m with reception := m.reception ++ [x], transfer := .unframing } := by
  have h' : (m.reception ++ [x]) ++ rest = frameBytes k t st b := by rw [← h]; simp
  have hl : (m.reception ++ [x]).length + rest.length = 6 + b.length := by
    rw [← frameBytes_length k t st b, ← h', List.length_append (bs := rest)]
  have hp : 0 < rest.length := List.length_pos_iff.2 hr
  simp only [Mp.takeByte, ht, if_false]
  by_cases h2 : (m.reception ++ [x]).length < 2
  · simp only [h2, if_true]
  · have e := frameLength_of_prefix h' (by omega)
    have g : lengthGood (m.reception ++ [x]) = true := by
      unfold lengthGood; rw [e]; exact lengthGood_frameBytes k t st b hb
    rw [frameLength_frameBytes k t st b hb] at e
    simp only [h2, if_false, g, Bool.not_true, Bool.false_eq_true]
    rw [if_pos (by omega)]

/-- R133: the byte that completes a frame puts it in the queue and ends the reception. -/
theorem Mp.takeByte_completes {m : Mp} {x k t st : Byte} {b : Bytes} (ht : m.transfer ≠ .discarding)
    (h : m.reception ++ [x] = frameBytes k t st b) (hb : b.length ≤ 1018) :
    m.takeByte x = { m with queue := m.queue ++ [.frame k t b], reception := [], transfer := .unframing } := by
  simp only [Mp.takeByte, ht, if_false, h, frameBytes_length, frameLength_frameBytes k t st b hb,
    lengthGood_frameBytes k t st b hb]
  rw [if_neg (by omega), if_neg (by simp), if_neg (by omega)]
  rfl

/-- R134: bytes are taken as they come: those of two commands as those of one. -/
theorem Mp.receive_append (xs ys : Bytes) (m : Mp) : m.receive (xs ++ ys) = (m.receive xs).bind (Mp.receive ys) := by
  induction xs generalizing m with
  | nil => rfl
  | cons x xs ih => simp only [List.cons_append, Mp.receive]; split <;> simp [ih]

/-- R134: the entries held are those that wait and at most one more, for a frame in reception. -/
theorem Mp.held_le (m : Mp) : m.held ≤ m.queue.length + 1 := by
  unfold Mp.held; split <;> omega

/-- R134: an attached MP with at most two entries waiting takes a byte, whatever is in reception. -/
theorem Mp.takesByte_of_lt {m : Mp} (ha : m.attached = true) (hq : m.queue.length < 3) : m.takesByte = true := by
  have := m.held_le
  unfold Mp.takesByte; rw [ha]
  exact decide_eq_true (show m.held < 4 by omega)

/-- R134: with all four entries held no byte is taken. -/
theorem Mp.receive_held {m : Mp} {bytes : Bytes} (h : 4 ≤ m.held) (hn : bytes ≠ []) : m.receive bytes = none := by
  cases bytes with
  | nil => exact absurd rfl hn
  | cons x xs =>
    have : m.takesByte = false := by
      unfold Mp.takesByte; rw [decide_eq_false (show ¬ m.held < Config.requestQueueMax from Nat.not_lt.2 h), Bool.and_false]
    simp [Mp.receive, this]

/-- R133: bytes that leave their frame incomplete wait in reception. -/
theorem Mp.receive_waits {m : Mp} {bytes rest b : Bytes} {k t st : Byte} (ha : m.attached = true) (hq : m.queue.length < 3)
    (ht : m.transfer ≠ .discarding) (h : m.reception ++ bytes ++ rest = frameBytes k t st b) (hn : bytes ≠ [])
    (hr : rest ≠ []) (hb : b.length ≤ 1018) :
    m.receive bytes = some { m with reception := m.reception ++ bytes, transfer := .unframing } := by
  induction bytes generalizing m with
  | nil => exact absurd rfl hn
  | cons x xs ih =>
    have w := Mp.takeByte_waits (x := x) (rest := xs ++ rest) ht (by rw [← h]; simp) (by simp [hr]) hb
    simp only [Mp.receive, Mp.takesByte_of_lt ha hq, if_true, w]
    by_cases e : xs = []
    · subst e; rfl
    · rw [ih (by exact ha) (by exact hq) (by simp) (by rw [← h]; simp) e]
      simp

/-- R133: the bytes that complete a frame put it in the queue and end the reception. -/
theorem Mp.receive_completes {m : Mp} {bytes b : Bytes} {k t st : Byte} (ha : m.attached = true)
    (hq : m.queue.length < 3)
    (ht : m.transfer ≠ .discarding) (h : m.reception ++ bytes = frameBytes k t st b) (hn : bytes ≠ [])
    (hb : b.length ≤ 1018) :
    m.receive bytes = some { m with
      queue := m.queue ++ [.frame k t b], reception := [], transfer := .unframing } := by
  obtain ⟨xs, x, rfl⟩ : ∃ xs x, bytes = xs ++ [x] := ⟨_, _, (List.dropLast_concat_getLast hn).symm⟩
  rw [Mp.receive_append]
  by_cases e : xs = []
  · subst e
    simp only [Mp.receive, Option.bind_some, Mp.takesByte_of_lt ha hq, if_true, Mp.takeByte_completes ht h hb]
  · rw [Mp.receive_waits ha hq ht (rest := [x]) (by rw [← h]; simp) e (by simp) hb, Option.bind_some]
    have hm' : ({ m with reception := m.reception ++ xs, transfer := Transfer.unframing } : Mp).takesByte = true :=
      Mp.takesByte_of_lt ha hq
    simp only [Mp.receive, hm', if_true]
    rw [Mp.takeByte_completes (k := k) (t := t) (st := st) (b := b) (by simp) (by rw [← h]; simp) hb]

/-- R134: a byte never takes the queue and the frame in reception past four entries. -/
theorem Mp.takeByte_fits {m : Mp} (x : Byte) (h : m.fitsQueue) (ht : m.takesByte = true) :
    (m.takeByte x).fitsQueue := by
  have h1 : m.queue.length + 1 ≤ 4 := by
    have : m.held < 4 := of_decide_eq_true (Bool.and_eq_true_iff.1 ht).2
    unfold Mp.held at this; omega
  simp only [Mp.takeByte]
  split
  · exact h
  · split
    · simpa [Mp.fitsQueue] using h1
    · split
      · simpa [Mp.fitsQueue] using h1
      · split <;> simpa [Mp.fitsQueue] using h1

/-- R134: nor do bytes taken one after another. -/
theorem Mp.receive_fits {m m' : Mp} (bytes : Bytes) (h : m.fitsQueue) (hr : m.receive bytes = some m') :
    m'.fitsQueue := by
  induction bytes generalizing m with
  | nil => cases hr; exact h
  | cons x xs ih =>
    simp only [Mp.receive] at hr
    split at hr
    · exact ih (Mp.takeByte_fits x h ‹_›) hr
    · cases hr

end Sys2Proof.Machine
end

