-- ==== Sys2Proof/Laws/Store.lean ====
section
/-! SUPPORT. What the Trace Store's shared operations do (chapter 4): acceptance, loss, eviction, release, the records a
reply fits, and which waiting record may be taken. -/

namespace Sys2Proof.Machine

set_option Elab.async false

/-- The units of a list of records (R51). -/
def unitsOf (rs : List Stored) : Nat := (rs.map fun r : Stored => r.record.units).sum

@[simp] theorem unitsOf_nil : unitsOf [] = 0 := rfl
@[simp] theorem unitsOf_cons (r : Stored) (rs : List Stored) : unitsOf (r :: rs) = r.record.units + unitsOf rs := by
  simp [unitsOf]
@[simp] theorem unitsOf_append (xs ys : List Stored) : unitsOf (xs ++ ys) = unitsOf xs + unitsOf ys := by
  simp [unitsOf]

/-! ## Acceptance and loss -/

/-- R53, R65: an acceptance changes the records, the occupancy and the next number, and may raise STORE_HIGH. -/
theorem State.accept_eq (s : State) (before : Nat) (r : Rec) :
    s.accept before r = { s with
      ts := { s.ts with
        records := s.ts.records ++ [{ seq := s.ts.nextSeq, record := r }]
        occupancy := s.ts.occupancy + r.units
        nextSeq := s.ts.nextSeq + 1 }
      fu := (s.raiseIf (decide (before < s.ts.active.watermark) &&
        decide (s.ts.active.watermark ≤ s.ts.occupancy + r.units)) .storeHigh).fu } := by
  simp only [State.accept, State.raiseIf]
  split <;> rfl

/-- R52: a loss changes the two counts and the gap start time. -/
theorem State.lose_eq (s : State) : s.lose = { s with ts := { s.ts with
    lost := s.ts.lost + 1, totalLost := s.ts.totalLost + 1
    gapStart := if s.ts.lost = 0 then some s.rc.timeBase else s.ts.gapStart } } := rfl

/-- R53: an acceptance keeps the store sound. -/
theorem State.accept_sound (s : State) (before : Nat) (r : Rec) (h : s.ts.Sound) : (s.accept before r).ts.Sound := by
  obtain ⟨ho, hl, hs⟩ := h
  rw [State.accept_eq]
  refine ⟨by simp [Ts.occupancyExact] at *; exact ho, by simp; omega, fun i hi => ?_⟩
  simp only [List.length_append, List.length_cons, List.length_nil] at hi ⊢
  by_cases e : i < s.ts.records.length
  · rw [List.getElem_append_left e, hs i e]; omega
  · rw [List.getElem_append_right (by omega)]
    simp; omega

/-- R52: a loss keeps the store sound. -/
theorem State.lose_sound (s : State) (h : s.ts.Sound) : s.lose.ts.Sound := h

/-! ## Eviction (R60, R64) -/

/-- R60, R64: eviction takes the oldest records, no more of them than needed, until the size fits or the limit is met. -/
theorem evictFrom_spec (size limit : Nat) (rs : List Stored) (occ : Nat) (h : occ = unitsOf rs) :
    ∃ evicted, rs = evicted ++ (evictFrom size limit rs occ).1 ∧
      (evictFrom size limit rs occ).2 = unitsOf (evictFrom size limit rs occ).1 ∧
      (∀ pre r, evicted = pre ++ [r] → Config.ordinaryCeiling < occ - unitsOf pre + size) ∧
      (∀ r ∈ evicted, r.seq < limit) ∧
      (unitsOf (evictFrom size limit rs occ).1 + size ≤ Config.ordinaryCeiling ∨
        ∀ r, (evictFrom size limit rs occ).1.head? = some r → limit ≤ r.seq) := by
  induction rs generalizing occ with
  | nil => exact ⟨[], rfl, by simpa [evictFrom] using h, by simp, by simp, .inr (by simp [evictFrom])⟩
  | cons r rs ih =>
    by_cases c : occ + size ≤ Config.ordinaryCeiling ∨ limit ≤ r.seq
    · refine ⟨[], by simp [evictFrom, c], by simp only [evictFrom, c, if_true]; exact h, by simp, by simp, ?_⟩
      simp only [evictFrom, c, if_true]
      rcases c with c | c
      · exact .inl (by rw [← h]; exact c)
      · exact .inr (by simpa using c)
    · obtain ⟨ev, h1, h2, h3, h4, h5⟩ := ih (occ - r.record.units) (by rw [h]; simp)
      have e : evictFrom size limit (r :: rs) occ = evictFrom size limit rs (occ - r.record.units) := by
        simp [evictFrom, c]
      rw [e]
      refine ⟨r :: ev, by rw [List.cons_append, ← h1], h2, fun pre x hx => ?_, ?_, h5⟩
      · rcases pre with _ | ⟨y, pre⟩
        · simp at hx; simp only [unitsOf_nil]; omega
        · simp only [List.cons_append, List.cons.injEq] at hx
          obtain ⟨rfl, hx⟩ := hx
          have := h3 pre x hx
          simp only [unitsOf_cons]; omega
      · intro x hx
        rcases List.mem_cons.1 hx with rfl | hx
        · omega
        · exact h4 x hx

/-- A suffix of a sound store's records, with their units as the occupancy, is sound. -/
theorem Ts.suffix_sound (t : Ts) (gone kept : List Stored) (h : t.Sound) (hr : t.records = gone ++ kept) :
    ({ t with records := kept, occupancy := unitsOf kept } : Ts).Sound := by
  obtain ⟨_, hl, hs⟩ := h
  refine ⟨rfl, by simp [hr] at hl; simp; omega, fun i hi => ?_⟩
  simp only at hi ⊢
  have hlen : t.records.length = gone.length + kept.length := by simp [hr]
  have := hs (gone.length + i) (by omega)
  simp only [hr, List.getElem_append_right (Nat.le_add_right gone.length i), Nat.add_sub_cancel_left,
    List.length_append] at this
  rw [this]; simp [hr] at hl; omega

/-- R60, R64: eviction keeps the store sound. -/
theorem State.evict_sound (s : State) (size limit : Nat) (h : s.ts.Sound) : (s.evict size limit).ts.Sound := by
  obtain ⟨ev, h1, h2, -⟩ := evictFrom_spec size limit s.ts.records s.ts.occupancy h.1
  have := Ts.suffix_sound s.ts ev _ h h1
  rw [← h2] at this
  exact this

/-- R60: the RING rule keeps the store sound. -/
theorem State.takeRing_sound (s : State) (r : Rec) (h : s.ts.Sound) : (s.takeRing r).ts.Sound :=
  State.accept_sound _ _ _ (State.evict_sound _ _ _ h)

/-! ## Release and FETCH (R66, R67) -/

/-- R67: a release takes the oldest records, up to its number, and their units. -/
theorem releaseUpTo_spec (seq : Nat) (rs : List Stored) (occ : Nat) (h : occ = unitsOf rs) :
    ∃ gone, rs = gone ++ (releaseUpTo seq rs occ).1 ∧ (∀ r ∈ gone, r.seq ≤ seq) ∧
      (∀ r, (releaseUpTo seq rs occ).1.head? = some r → seq < r.seq) ∧
      (releaseUpTo seq rs occ).2 = unitsOf (releaseUpTo seq rs occ).1 := by
  induction rs generalizing occ with
  | nil => exact ⟨[], rfl, by simp, by simp [releaseUpTo], by simpa [releaseUpTo] using h⟩
  | cons r rs ih =>
    by_cases c : r.seq ≤ seq
    · obtain ⟨gone, h1, h2, h3, h4⟩ := ih (occ - r.record.units) (by rw [h]; simp)
      have e : releaseUpTo seq (r :: rs) occ = releaseUpTo seq rs (occ - r.record.units) := by simp [releaseUpTo, c]
      rw [e]
      refine ⟨r :: gone, by rw [List.cons_append, ← h1], fun x hx => ?_, h3, h4⟩
      rcases List.mem_cons.1 hx with rfl | hx
      · exact c
      · exact h2 x hx
    · exact ⟨[], by simp [releaseUpTo, c], by simp, by simp [releaseUpTo, c]; omega, by simp [releaseUpTo, c, h]⟩

/-- R66: the records of a reply are the longest run of whole records from the first on that fits. -/
theorem takeFitting_spec (max : Nat) (rs : List Stored) : ∃ rest, rs = takeFitting max rs ++ rest ∧
    8 * unitsOf (takeFitting max rs) ≤ max ∧
    ∀ r rest', rest = r :: rest' → max < 8 * unitsOf (takeFitting max rs) + 8 * r.record.units := by
  induction rs generalizing max with
  | nil => exact ⟨[], by simp [takeFitting], by simp [takeFitting], by simp⟩
  | cons r rs ih =>
    by_cases c : 8 * r.record.units ≤ max
    · obtain ⟨rest, h1, h2, h3⟩ := ih (max - 8 * r.record.units)
      have e : takeFitting max (r :: rs) = r :: takeFitting (max - 8 * r.record.units) rs := by simp [takeFitting, c]
      rw [e]
      refine ⟨rest, by rw [List.cons_append, ← h1], by simp only [unitsOf_cons]; omega, fun x rest' hx => ?_⟩
      have := h3 x rest' hx
      simp only [unitsOf_cons]; omega
    · exact ⟨r :: rs, by simp [takeFitting, c], by simp [takeFitting, c], fun x rest' hx => by
        simp only [List.cons.injEq] at hx; obtain ⟨rfl, -⟩ := hx; simp [takeFitting, c]; omega⟩

/-! ## Which record is taken (R52, R63) -/

/-- R52: a record taken is waiting, the TS is free, it passes only records that it may pass, and it is taken before a
TRIG that waits only where it may be. -/
theorem Ts.mayTake_spec {t : Ts} {clock k : Nat} (ha : t.admitted = false) (h : t.mayTake clock k = true) :
    t.nextTake ≤ clock ∧
    ∃ w, t.input[k]? = some w ∧ (∀ e ∈ t.input.take k, w.mayPass e = true) ∧
      ∀ e ∈ t.input, w.mayPrecede e = true := by
  unfold Ts.mayTake at h
  cases hi : t.input[k]? with
  | none => simp [hi] at h
  | some w =>
    simp only [hi, ha, Bool.false_eq_true, if_false, Bool.and_eq_true, decide_eq_true_eq, List.all_eq_true] at h
    exact ⟨h.1, w, rfl, h.2⟩

/-- R52: the first record waiting may be taken as soon as the TS is free, unless a TRIG that it may not precede waits. -/
theorem Ts.mayTake_first {t : Ts} {clock : Nat} {w : Waiting} (ha : t.admitted = false) (h : t.nextTake ≤ clock)
    (hi : t.input.head? = some w) (hp : ∀ e ∈ t.input, w.mayPrecede e = true) : t.mayTake clock 0 = true := by
  rcases hq : t.input with _ | ⟨x, ws⟩
  · simp [hq] at hi
  · simp only [hq, List.head?_cons, Option.some.injEq] at hi
    subst hi
    rw [hq] at hp
    simpa [Ts.mayTake, h, hq, ha] using hp

/-- R63: a TRIG that waits may be taken as soon as the TS is free, unless a RUN ARMED waits before it. -/
theorem Ts.mayTake_trig {t : Ts} {clock k : Nat} {w : Waiting} (hn : t.admitted = false) (h : t.nextTake ≤ clock)
    (hi : t.input[k]? = some w) (hw : w.record.body.isTrig = true)
    (ha : ∀ e ∈ t.input.take k, e.record.body.isArmed = false) : t.mayTake clock k = true := by
  simp only [Ts.mayTake, h, hi, hn, Bool.false_eq_true, if_false, decide_true, Bool.true_and, Bool.and_eq_true, List.all_eq_true]
  exact ⟨fun e he => by simp [Waiting.mayPass, ha e he, hw], fun e _ => by simp [Waiting.mayPrecede, hw]⟩

/-- R52: a record other than TRIG that passes another reached the TS at the same tick from another source. -/
theorem Waiting.mayPass_spec {w e : Waiting} (hw : w.record.body.isTrig = false) (h : w.mayPass e = true) :
    w.reached = e.reached ∧ w.source ≠ e.source := by
  simp only [Waiting.mayPass, hw, Bool.false_or, Bool.and_eq_true, beq_iff_eq, bne_iff_ne] at h
  exact ⟨h.2.1.1.1.1, h.2.1.1.1.2⟩

/-- R61, R62: the record admitted with a GAP may be taken as soon as the TS is free, and no other. -/
theorem Ts.mayTake_admitted {t : Ts} {clock k : Nat} (ha : t.admitted = true) :
    t.mayTake clock k = true ↔ t.nextTake ≤ clock ∧ t.input ≠ [] ∧ k = 0 := by
  unfold Ts.mayTake
  rcases hq : t.input with _ | ⟨w, ws⟩
  · simp
  · cases k with
    | zero => simp [ha]
    | succ k => cases hi : (w :: ws)[k + 1]? <;> simp [ha]

/-! ## A record and its GAP (R51, R52, R61, R62) -/

/-- R62: a waiting record is RUN ENDED. -/
theorem Rec.closesRun_iff (r : Rec) : r.closesRun ↔ ∃ src c v ff, r.body = .runEnded src c v ff := Iff.rfl

/-- R61, R62: a GAP goes ahead of the record exactly where one is due. -/
theorem Ts.gapDue_iff (t : Ts) (w : Waiting) : t.gapDue w ↔ (!t.admitted && t.gapFirst w.record) = true := by
  simp only [Ts.gapDue, Ts.gapFirst, Rec.closesRun, Rec.isTrigger, Bool.and_eq_true, Bool.not_eq_true', bne_iff_ne,
    Config.gapCeiling]
  refine and_congr_right fun _ => and_congr_right fun _ => ?_
  cases w.record.body <;> simp [Ts.fits, Config.ordinaryCeiling] <;>
    exact fun _ => decide_eq_true_iff.symm

/-- R52: a take accepts the GAP that is due; with none due it takes the record, by the rule of its kind or, admitted with a GAP
before, whatever the occupancy, and answers the MARK request that waits for it. -/
theorem State.takeWaiting_cases (s : State) (k : Nat) (w : Waiting) (hi : s.ts.input[k]? = some w) :
    (s.ts.gapDue w → s.takeWaiting k = s.takeGap k w) ∧
    (¬s.ts.gapDue w → s.takeWaiting k =
      let s1 := s.setTs { s.ts with input := s.ts.input.eraseIdx k }
      let u := if s.ts.admitted then s1.takeAdmitted w.record else s1.takeRecord w.record
      let v := u.setTs { u.ts with nextTake := s.clock + (u.ts.nextSeq - s.ts.nextSeq) }
      if w.awaited then s.beside (v.answerMark (u.ts.nextSeq != s.ts.nextSeq) (u.ts.nextSeq - 1)) else v) := by
  rw [Ts.gapDue_iff]
  constructor <;> intro h <;> simp only [State.takeWaiting, hi, h, if_true, if_false, Bool.false_eq_true]

/-- R53: the acceptance of a GAP keeps the store sound. -/
theorem State.takeGap_sound (s : State) (k : Nat) (w : Waiting) (h : s.ts.Sound) : (s.takeGap k w).ts.Sound := by
  have := State.accept_sound s s.ts.occupancy s.ts.gapRecord h
  unfold State.takeGap
  split <;> exact this

/-- R53: the acceptance of the record admitted with a GAP keeps the store sound. -/
theorem State.takeAdmitted_sound (s : State) (r : Rec) (h : s.ts.Sound) : (s.takeAdmitted r).ts.Sound :=
  State.accept_sound s s.ts.occupancy r h

/-! ## The trigger (R63) -/

/-- R63: a firing that takes effect changes the trigger and the records waiting; one that does not changes nothing. -/
theorem State.fireTrigger_eq (s : State) (src : TrigSource) : s.fireTrigger src = { s with ts := { s.ts with
    fired := (s.fireTrigger src).ts.fired, input := (s.fireTrigger src).ts.input } } := by
  unfold State.fireTrigger; split <;> rfl

/-- R63: a firing loses no record that waits. -/
theorem State.fireTrigger_keeps (s : State) (src : TrigSource) (w : Waiting) (h : w ∈ s.ts.input) :
    w ∈ (s.fireTrigger src).ts.input := by
  unfold State.fireTrigger
  split
  · exact List.mem_append_left _ h
  · exact h

end Sys2Proof.Machine
end

