-- ==== Sys2Proof/Laws/Steps.lean ====
section
/-! SUPPORT. What the evaluation of steps may change (chapter 3), said once for an action, a resolution, an opening, a chain
of failures and a pass. -/

namespace Sys2Proof.Machine

set_option Elab.async false

/-- What an operation of the STE may change: the evaluation records, the resolution order, the pass in hand and the events;
and by its actions the drive channels, the SC, the flags and the trigger; the records it hands over go behind those that wait at
the TS. -/
structure StepFrame (s t : State) : Prop where
  eq : t = { s with
    sc := t.sc, fu := t.fu, dc := t.dc, ts := { s.ts with input := t.ts.input, fired := t.ts.fired }
    ste := { s.ste with evals := t.ste.evals, order := t.ste.order, pass := t.ste.pass, events := t.ste.events } }
  settings : t.sc.settings = s.sc.settings
  staged : t.sc.staged = s.sc.staged
  active : t.sc.active = s.sc.active
  behind : s.ts.input <+: t.ts.input

theorem StepFrame.refl (s : State) : StepFrame s s := ⟨rfl, rfl, rfl, rfl, List.prefix_refl _⟩

theorem StepFrame.trans {s t u : State} (h : StepFrame s t) (k : StepFrame t u) : StepFrame s u :=
  ⟨by
    have e := k.eq
    rw [h.eq] at e
    simpa using e, k.settings.trans h.settings, k.staged.trans h.staged, k.active.trans h.active,
    h.behind.trans k.behind⟩

theorem ScanFrame.stepFrame {s t : State} (h : ScanFrame s t) : StepFrame s t :=
  ⟨by
    have e := h.eq
    rw [e], h.settings, h.staged, h.active, h.behind⟩

theorem StepFrame.rc {s t : State} (h : StepFrame s t) : t.rc = s.rc := by rw [h.eq]
theorem StepFrame.mp {s t : State} (h : StepFrame s t) : t.mp = s.mp := by rw [h.eq]
theorem StepFrame.clock {s t : State} (h : StepFrame s t) : t.clock = s.clock := by rw [h.eq]
theorem StepFrame.pending {s t : State} (h : StepFrame s t) : t.pending = s.pending := by rw [h.eq]
theorem StepFrame.choices {s t : State} (h : StepFrame s t) : t.choices = s.choices := by rw [h.eq]
theorem StepFrame.lau {s t : State} (h : StepFrame s t) : t.lau = s.lau := by rw [h.eq]
theorem StepFrame.mc {s t : State} (h : StepFrame s t) : t.mc = s.mc := by rw [h.eq]
theorem StepFrame.rm {s t : State} (h : StepFrame s t) : t.rm = s.rm := by rw [h.eq]
theorem StepFrame.cdp {s t : State} (h : StepFrame s t) : t.cdp = s.cdp := by rw [h.eq]
theorem StepFrame.permitMask {s t : State} (h : StepFrame s t) : t.permitMask = s.permitMask := by rw [h.eq]
theorem StepFrame.plan {s t : State} (h : StepFrame s t) : t.ste.active = s.ste.active := by rw [h.eq]
theorem StepFrame.lookback {s t : State} (h : StepFrame s t) : t.ste.lookback = s.ste.lookback := by rw [h.eq]
theorem StepFrame.evictionMark {s t : State} (h : StepFrame s t) : t.ste.evictionMark = s.ste.evictionMark := by
  rw [h.eq]
theorem StepFrame.live {s t : State} (h : StepFrame s t) : t.live = s.live := by simp [State.live, h.rc]
theorem StepFrame.records {s t : State} (h : StepFrame s t) : t.ts.records = s.ts.records := by rw [h.eq]

/-- The store stays sound (R51, R53). -/
theorem StepFrame.sound {s t : State} (h : StepFrame s t) (hs : s.ts.Sound) : t.ts.Sound := by
  rw [h.eq]; exact hs

theorem State.hand_stepFrame (s : State) (src : RecSource) (r : Rec) : StepFrame s (s.hand src r) := by
  refine ⟨?_, ?_, ?_, ?_, State.hand_behind s src r⟩ <;> unfold State.hand <;> split <;> rfl

theorem State.raiseIf_stepFrame (s : State) (c : Bool) (f : Flag) : StepFrame s (s.raiseIf c f) := by
  unfold State.raiseIf; split <;> exact ⟨rfl, rfl, rfl, rfl, List.prefix_refl _⟩

theorem State.setEval_stepFrame (s : State) (k : Fin 64) (v : StepEval) : StepFrame s (s.setEval k v) :=
  ⟨rfl, rfl, rfl, rfl, List.prefix_refl _⟩

theorem State.note_stepFrame (s : State) (k : Fin 64) (e : StepEntry) (st : StepState) :
    StepFrame s (s.setSte (s.ste.note k e st)) := ⟨rfl, rfl, rfl, rfl, List.prefix_refl _⟩

theorem State.fireTrigger_stepFrame (s : State) (src : TrigSource) : StepFrame s (s.fireTrigger src) := by
  unfold State.fireTrigger; split
  · exact ⟨rfl, rfl, rfl, rfl, List.prefix_append _ _⟩
  · exact StepFrame.refl s

theorem State.setRefused_stepFrame (s : State) (k : Fin 64) : StepFrame s (s.setRefused k) := by
  unfold State.setRefused; split <;> exact ⟨rfl, rfl, rfl, rfl, List.prefix_refl _⟩

theorem State.driveOperate_stepFrame (s : State) (c : Fin 8) (op : DriveOp) (w : DriveCause) :
    StepFrame s (s.driveOperate c op w) := by
  unfold State.driveOperate State.handDrive
  dsimp only
  split
  · refine StepFrame.trans ?_ (State.hand_stepFrame _ _ _)
    exact ⟨rfl, rfl, rfl, rfl, List.prefix_refl _⟩
  · exact ⟨rfl, rfl, rfl, rfl, List.prefix_refl _⟩

theorem State.stepClaim_stepFrame (s : State) (c : Fin 8) (op : DriveOp) : StepFrame s (s.stepClaim c op).1 := by
  unfold State.stepClaim
  split
  · exact ⟨rfl, rfl, rfl, rfl, List.prefix_refl _⟩
  · exact State.driveOperate_stepFrame _ _ _ _

/-- R23: an action of a successful step. -/
theorem State.act_stepFrame (s : State) (k : Fin 64) (a : Action) : StepFrame s (State.act k s a) := by
  cases a with
  | drive c op =>
    have h := State.stepClaim_stepFrame s c op
    simp only [State.act]
    split
    · exact StepFrame.trans h (State.setRefused_stepFrame _ _)
    · exact h
  | scan t => exact (State.submitStep_frame s t).stepFrame
  | mark code => exact State.hand_stepFrame _ _ _
  | trigger => exact State.fireTrigger_stepFrame _ _
  | endRun => exact ⟨rfl, rfl, rfl, rfl, List.prefix_refl _⟩

theorem State.acts_stepFrame (s : State) (k : Fin 64) (l : List Action) : StepFrame s (l.foldl (State.act k) s) := by
  induction l generalizing s with
  | nil => exact StepFrame.refl s
  | cons a l ih => exact StepFrame.trans (State.act_stepFrame s k a) (ih _)

/-- R46: a resolution, with its actions, its record and its flag. -/
theorem State.resolveStep_stepFrame (s : State) (k : Fin 64) (e : StepEntry) (v : StepEval) (st : StepState) (time : Nat) :
    StepFrame s (s.resolveStep k e v st time) := by
  unfold State.resolveStep
  dsimp only
  refine StepFrame.trans ?_ (State.raiseIf_stepFrame _ _ _)
  have h2 : StepFrame s ((s.setEval k { v with state := st, resolution := some time }).setSte
      ((s.setEval k { v with state := st, resolution := some time }).ste.note k e st)) :=
    StepFrame.trans (State.setEval_stepFrame s k _) (State.note_stepFrame _ _ _ _)
  have h3 := fun b : Bool => show StepFrame s (if b = true then e.actions.foldl (State.act k) _ else _) from by
    cases b
    · exact h2
    · exact StepFrame.trans h2 (State.acts_stepFrame _ k e.actions)
  split
  · exact h3 _
  · exact StepFrame.trans (h3 _) (State.hand_stepFrame _ _ _)

theorem skipOne_stepFrame (time : Nat) (acc : State × List (Fin 64)) (j : Fin 64) :
    StepFrame acc.1 (skipOne time acc j).1 := by
  unfold skipOne
  split
  · split
    · split
      · exact State.resolveStep_stepFrame _ _ _ _ _ _
      · exact StepFrame.refl _
    · exact StepFrame.refl _
  · exact StepFrame.refl _

/-- R45: a chain of failures. -/
theorem State.skipChain_stepFrame (s : State) (k : Fin 64) (time : Nat) : StepFrame s (s.skipChain k time) := by
  unfold State.skipChain
  generalize List.finRange 64 = l
  generalize hacc : ((s, [k]) : State × List (Fin 64)) = acc
  rw [show s = acc.1 from by rw [← hacc]]
  clear hacc
  induction l generalizing acc with
  | nil => exact StepFrame.refl _
  | cons j l ih => exact StepFrame.trans (skipOne_stepFrame time acc j) (ih _)

/-- R43: a step's opening. -/
theorem State.openStep_stepFrame (s : State) (j : Fin 64) (e : StepEntry) (v : StepEval) (anchor : Nat) :
    StepFrame s (s.openStep j e v anchor).1 := by
  unfold State.openStep
  dsimp only
  split
  · exact State.setEval_stepFrame _ _ _
  · by_cases h : e.kind = .check <;> simp only [h, if_true, if_false] <;>
      (split <;> exact State.setEval_stepFrame _ _ _)

/-- R46: a resolution with all that follows from it. -/
theorem State.resolve_stepFrame (n : Nat) (k : Fin 64) (st : StepState) (time : Nat) (s : State) :
    StepFrame s (State.resolve n k st time s) := by
  induction n generalizing k st time s with
  | zero => exact StepFrame.refl s
  | succ n ih =>
    unfold State.resolve
    split
    · exact StepFrame.refl s
    · rename_i e v _
      dsimp only
      split
      · refine StepFrame.trans (State.resolveStep_stepFrame s k e v st time) ?_
        generalize s.resolveStep k e v st time = u
        generalize List.finRange 64 = l
        induction l generalizing u with
        | nil => exact StepFrame.refl u
        | cons j l ihl =>
          refine StepFrame.trans ?_ (ihl _)
          beta_reduce
          split
          · split
            · rename_i e' v' _ _
              have h := State.openStep_stepFrame u j e' v' time
              split
              · rename_i hs; rw [hs] at h; exact StepFrame.trans h (ih _ _ _ _)
              · rename_i hs; rw [hs] at h; exact h
            · exact StepFrame.refl u
          · exact StepFrame.refl u
      · exact StepFrame.trans (State.resolveStep_stepFrame s k e v st time) (State.skipChain_stepFrame _ _ _)

/-- R44: the steps anchored to START open. -/
theorem State.openStarts_stepFrame (s : State) (anchor : Nat) : StepFrame s (s.openStarts anchor) := by
  unfold State.openStarts
  generalize List.finRange 64 = l
  induction l generalizing s with
  | nil => exact StepFrame.refl s
  | cons j l ih =>
    refine StepFrame.trans ?_ (ih _)
    beta_reduce
    split
    · split
      · rename_i e v _ _
        have h := State.openStep_stepFrame s j e v anchor
        split
        · rename_i hs; rw [hs] at h; exact StepFrame.trans h (State.resolve_stepFrame _ _ _ _ _)
        · rename_i hs; rw [hs] at h; exact h
      · exact StepFrame.refl s
    · exact StepFrame.refl s

/-- R32: an event offered to a step. -/
theorem offerTo_stepFrame (x : Event) (s : State) (j : Fin 64) : StepFrame s (offerTo x s j) := by
  unfold offerTo
  split
  · exact StepFrame.refl s
  · split
    · split
      · exact StepFrame.trans (State.setEval_stepFrame _ _ _) (State.resolve_stepFrame _ _ _ _ _)
      · exact State.setEval_stepFrame _ _ _
    · exact StepFrame.refl s

theorem offers_stepFrame (x : Event) (s : State) (l : List (Fin 64)) : StepFrame s (l.foldl (offerTo x) s) := by
  induction l generalizing s with
  | nil => exact StepFrame.refl s
  | cons j l ih => exact StepFrame.trans (offerTo_stepFrame x s j) (ih _)

/-- R37: a step's decision. -/
theorem decideStep_stepFrame (s : State) (j : Fin 64) : StepFrame s (decideStep s j) := by
  unfold decideStep
  split
  · exact StepFrame.refl s
  · split
    · exact StepFrame.trans (State.setEval_stepFrame _ _ _) (State.resolve_stepFrame _ _ _ _ _)
    · exact StepFrame.refl s

theorem decides_stepFrame (s : State) (l : List (Fin 64)) : StepFrame s (l.foldl decideStep s) := by
  induction l generalizing s with
  | nil => exact StepFrame.refl s
  | cons j l ih => exact StepFrame.trans (decideStep_stepFrame s j) (ih _)

/-- R49: the close of a pass adds at most one end request, of the cause that its first applying row gives. -/
theorem State.closePass_eq (s : State) : s.closePass = { s with
    rc := { s.rc with endRequests := s.rc.endRequests ++ s.ste.endCause.toList }
    ste := { s.ste with pass := Pass.none } } := rfl

/-! ## The look-back list and the deliveries (R32, R33) -/

/-- R33: an event joins the list; from a full one the oldest leaves and becomes the eviction mark. -/
theorem Ste.append_spec (t : Ste) (x : Event) : t.append x = { t with
      lookback := (t.append x).lookback, evictionMark := (t.append x).evictionMark } ∧
    (t.lookback.length < 64 →
      (t.append x).lookback = t.lookback ++ [x] ∧ (t.append x).evictionMark = t.evictionMark) ∧
    ∀ y ys, t.lookback = y :: ys → 64 ≤ t.lookback.length →
      (t.append x).lookback = ys ++ [x] ∧ (t.append x).evictionMark = some y.time := by
  unfold Ste.append
  refine ⟨?_, ?_, ?_⟩
  · split
    · split <;> rfl
    · rfl
  · intro h
    split
    · rw [if_neg (by simp only [Config.lookbackMax]; omega)]; exact ⟨rfl, rfl⟩
    · rename_i hl; exact ⟨by simp [hl], rfl⟩
  · intro y ys hl h
    simp only [hl] at h ⊢
    rw [if_pos (by simp only [Config.lookbackMax]; exact h)]
    exact ⟨rfl, rfl⟩

/-- R32: an event that may be delivered is there, behind no earlier one of its own source. -/
theorem Ste.deliverable_spec (t : Ste) (k : Nat) (x : Event) : t.deliverable k = some x ↔
    t.events[k]? = some x ∧ ∀ y ∈ t.events.take k, y.body.sameSource x.body = false := by
  unfold Ste.deliverable
  cases h : t.events[k]? with
  | none => simp
  | some y =>
    simp only [List.all_eq_true, Bool.not_eq_true']
    constructor
    · intro he
      split at he
      · rename_i hp; cases he; exact ⟨rfl, hp⟩
      · cases he
    · rintro ⟨he, hp⟩
      cases he
      rw [if_pos hp]

/-- The active entry and the evaluation record of a step in a given state. -/
theorem Ste.inState_iff (t : Ste) (k : Fin 64) (st : StepState) (e : StepEntry) (v : StepEval) :
    t.inState k st = some (e, v) ↔ t.active[k] = some e ∧ t.evals[k] = some v ∧ v.state = st := by
  unfold Ste.inState
  cases h1 : t.active[k] <;> cases h2 : t.evals[k] <;> simp
  aesop

end Sys2Proof.Machine
end

