-- ==== Sys2Proof/Laws/Run.lean ====
section
/-! SUPPORT. What the work at start and the end of a run leave (R10, R15), what deliveries keep (R32), what a
passing validation says (R28), and when the part takes up a command of its own. -/

namespace Sys2Proof.Machine

set_option Elab.async false

/-! ## The end of a run (R15) -/

/-- What the end work keeps of every block: all but the RC, the evaluation of steps, the records waiting at the TS, the
pending records of the sources, the SC and the flags. -/
structure EndFrame (s t : State) : Prop where
  eq : t = { s with
    rc := t.rc, fu := t.fu, sc := t.sc, ts := { s.ts with input := t.ts.input }
    ste := { s.ste with evals := t.ste.evals, order := t.ste.order, events := t.ste.events }
    cdp := { s.cdp with pending := t.cdp.pending }, cp := t.cp }
  timeBase : t.rc.timeBase = s.rc.timeBase
  active : t.rc.active = s.rc.active

theorem EndFrame.refl (s : State) : EndFrame s s := ⟨rfl, rfl, rfl⟩

theorem EndFrame.trans {s t u : State} (h : EndFrame s t) (k : EndFrame t u) : EndFrame s u :=
  ⟨by
    have e := k.eq
    rw [h.eq] at e
    simpa using e, k.timeBase.trans h.timeBase, k.active.trans h.active⟩

theorem ScanFrame.endFrame {s t : State} (h : ScanFrame s t) : EndFrame s t :=
  ⟨by have e := h.eq; rw [e], by rw [h.rc], by rw [h.rc]⟩

theorem EndFrame.mp {s t : State} (h : EndFrame s t) : t.mp = s.mp := by rw [h.eq]
theorem EndFrame.dc {s t : State} (h : EndFrame s t) : t.dc = s.dc := by rw [h.eq]
theorem EndFrame.lau {s t : State} (h : EndFrame s t) : t.lau = s.lau := by rw [h.eq]
theorem EndFrame.mc {s t : State} (h : EndFrame s t) : t.mc = s.mc := by rw [h.eq]
theorem EndFrame.rm {s t : State} (h : EndFrame s t) : t.rm = s.rm := by rw [h.eq]
theorem EndFrame.permitMask {s t : State} (h : EndFrame s t) : t.permitMask = s.permitMask := by rw [h.eq]
theorem EndFrame.history {s t : State} (h : EndFrame s t) : t.cdp.history = s.cdp.history := by rw [h.eq]
theorem EndFrame.plan {s t : State} (h : EndFrame s t) : t.ste.active = s.ste.active := by rw [h.eq]
theorem EndFrame.clock {s t : State} (h : EndFrame s t) : t.clock = s.clock := by rw [h.eq]
theorem EndFrame.pending {s t : State} (h : EndFrame s t) : t.pending = s.pending := by rw [h.eq]
theorem EndFrame.choices {s t : State} (h : EndFrame s t) : t.choices = s.choices := by rw [h.eq]
theorem EndFrame.records {s t : State} (h : EndFrame s t) : t.ts.records = s.ts.records := by rw [h.eq]

/-- The store stays sound (R51, R53). -/
theorem EndFrame.sound {s t : State} (h : EndFrame s t) (hs : s.ts.Sound) : t.ts.Sound := by
  rw [h.eq]; exact hs

/-- R15, step 1: one step cancelled. -/
theorem cancelStep_endFrame (s : State) (k : Fin 64) : EndFrame s (cancelStep s k) := by
  unfold cancelStep
  split
  · split
    · exact EndFrame.refl s
    · exact ⟨rfl, rfl, rfl⟩
  · exact EndFrame.refl s

/-- R15, step 1: the steps cancelled. -/
theorem State.cancelSteps_endFrame (s : State) : EndFrame s s.cancelSteps := by
  unfold State.cancelSteps
  generalize List.finRange 64 = l
  induction l generalizing s with
  | nil => exact EndFrame.refl s
  | cons k l ih => exact EndFrame.trans (cancelStep_endFrame s k) (ih _)

/-- R15, step 2: the open CODE record closed. -/
theorem State.closeCode_endFrame (s : State) : EndFrame s (s.closeCode true) := by
  unfold State.closeCode; split
  · exact EndFrame.refl s
  · exact ⟨rfl, rfl, rfl⟩

/-- R15, step 2: a fragment closed. -/
theorem State.closeFragment_endFrame (s : State) (p : Fin 2) (d : TextDir) : EndFrame s (s.closeFragment true p d false) := by
  unfold State.closeFragment; split
  · exact EndFrame.refl s
  · exact ⟨rfl, rfl, rfl⟩

/-- R15, step 2. -/
theorem State.closeSources_endFrame (s : State) : EndFrame s s.closeSources := by
  unfold State.closeSources
  dsimp only
  have h0 := State.closeCode_endFrame s
  have h1 := EndFrame.trans h0 (State.closeFragment_endFrame _ 0 .rx)
  have h2 := EndFrame.trans h1 (State.closeFragment_endFrame _ 0 .tx)
  have h3 := EndFrame.trans h2 (State.closeFragment_endFrame _ 1 .rx)
  exact EndFrame.trans h3 (State.closeFragment_endFrame _ 1 .tx)

/-- R15, steps 3 and 4. -/
theorem State.closeRun_endFrame (s : State) (cause : EndCause) : EndFrame s (s.closeRun cause) := ⟨rfl, rfl, rfl⟩

/-- R15: the end of a run keeps the board, the settings, the plan and the store. -/
theorem State.endRun_endFrame (s : State) (cause : EndCause) : EndFrame s (s.endRun cause) := by
  unfold State.endRun
  dsimp only
  have h0 : EndFrame s (s.setRc { s.rc with runState := .ended }) := ⟨rfl, rfl, rfl⟩
  have h1 := EndFrame.trans h0 (State.cancelSteps_endFrame _)
  have h2 := EndFrame.trans h1 (State.closeSources_endFrame _)
  have h3 := EndFrame.trans h2 (State.closeRun_endFrame _ cause)
  exact EndFrame.trans h3 (State.cancelWhere_frame _ _).endFrame

/-! ## The work at start (R10) -/

/-- R10: the work at start is the STE's work on the started run, the close of its pass, and the firing of the trigger where
the active settings ask for it; what each of the two parts may change is the frame of the STE. -/
theorem State.startRun_frames (s : State) (time : Nat) : ∃ u, StepFrame (s.setRc (s.rc.started time)) u ∧
    StepFrame u.closePass (s.startRun time) := by
  have h1 : ∀ w : State, StepFrame w ((w.raise .runStart).openStarts time) := fun w =>
    StepFrame.trans (show StepFrame w (w.raise .runStart) from ⟨rfl, rfl, rfl, rfl, List.prefix_refl _⟩) (State.openStarts_stepFrame _ time)
  unfold State.startRun
  refine ⟨_, StepFrame.trans (State.hand_stepFrame (s.setRc (s.rc.started time)) .run
    { time, body := .runStarted (s.setRc (s.rc.started time)).rc.active.source }) (h1 _), ?_⟩
  dsimp only
  split
  · exact State.fireTrigger_stepFrame _ _
  · exact StepFrame.refl _

/-! ## Deliveries (R32, R84) -/

/-- What deliveries keep: all but the run's start and its end requests, the evaluation of steps, the records waiting at the
TS and its trigger, the drive channels, the SC and the flags; a run stays a run, and the records handed over go behind those
that wait. -/
structure DeliverFrame (s t : State) : Prop where
  eq : t = { s with
    rc := { s.rc with
      runState := t.rc.runState, startTime := t.rc.startTime, limitTime := t.rc.limitTime
      endRequests := t.rc.endRequests }
    fu := t.fu, dc := t.dc, sc := t.sc, ts := { s.ts with input := t.ts.input, fired := t.ts.fired }
    ste := { t.ste with staged := s.ste.staged, active := s.ste.active } }
  live : t.live = s.live
  behind : s.ts.input <+: t.ts.input

theorem DeliverFrame.refl (s : State) : DeliverFrame s s := ⟨rfl, rfl, List.prefix_refl _⟩

theorem DeliverFrame.trans {s t u : State} (h : DeliverFrame s t) (k : DeliverFrame t u) : DeliverFrame s u :=
  ⟨by
    have e := k.eq
    rw [h.eq] at e
    simpa using e, k.live.trans h.live, h.behind.trans k.behind⟩

theorem StepFrame.deliverFrame {s t : State} (h : StepFrame s t) : DeliverFrame s t :=
  ⟨by have e := h.eq; rw [e], h.live, h.behind⟩

theorem DeliverFrame.mp {s t : State} (h : DeliverFrame s t) : t.mp = s.mp := by rw [h.eq]
theorem DeliverFrame.clock {s t : State} (h : DeliverFrame s t) : t.clock = s.clock := by rw [h.eq]
theorem DeliverFrame.pending {s t : State} (h : DeliverFrame s t) : t.pending = s.pending := by rw [h.eq]
theorem DeliverFrame.choices {s t : State} (h : DeliverFrame s t) : t.choices = s.choices := by rw [h.eq]
theorem DeliverFrame.cdp {s t : State} (h : DeliverFrame s t) : t.cdp = s.cdp := by rw [h.eq]
theorem DeliverFrame.timeBase {s t : State} (h : DeliverFrame s t) : t.rc.timeBase = s.rc.timeBase := by rw [h.eq]
theorem DeliverFrame.active {s t : State} (h : DeliverFrame s t) : t.rc.active = s.rc.active := by rw [h.eq]
theorem DeliverFrame.records {s t : State} (h : DeliverFrame s t) : t.ts.records = s.ts.records := by rw [h.eq]

/-- R49: the close of a pass. -/
theorem State.closePass_deliverFrame (s : State) : DeliverFrame s s.closePass := ⟨rfl, rfl, List.prefix_refl _⟩

/-- R10: the work at the start of an ARMED run. -/
theorem State.startRun_deliverFrame (s : State) (time : Nat) (h : s.rc.runState = .armed) :
    DeliverFrame s (s.startRun time) := by
  obtain ⟨u, h1, h2⟩ := State.startRun_frames s time
  have h0 : DeliverFrame s (s.setRc (s.rc.started time)) := ⟨rfl, by simp [State.live, State.setRc, Rc.started, h, RunState.live],
    List.prefix_refl _⟩
  exact ((h0.trans h1.deliverFrame).trans (State.closePass_deliverFrame u)).trans h2.deliverFrame

/-- R33: an event joins the look-back list. -/
theorem State.append_deliverFrame (s : State) (x : Event) : DeliverFrame s (s.setSte (s.ste.append x)) :=
  ⟨by rw [(Ste.append_spec s.ste x).1]; rfl, rfl, List.prefix_refl _⟩

/-- R32: one delivery. -/
theorem State.deliver_frame (s : State) (x : Event) : DeliverFrame s (s.deliver x) := by
  unfold State.deliver
  split
  · exact DeliverFrame.refl s
  · exact DeliverFrame.refl s
  · rename_i h
    dsimp only
    split
    · exact (State.append_deliverFrame s x).trans (State.startRun_deliverFrame _ _ h)
    · exact State.append_deliverFrame s x
  · exact ((State.append_deliverFrame s x).trans (offers_stepFrame x _ _).deliverFrame).trans
      (State.closePass_deliverFrame _)

/-- R32: the delivery of the oldest event. -/
theorem State.deliverNext_frame (s : State) : DeliverFrame s s.deliverNext := by
  unfold State.deliverNext
  split
  · exact DeliverFrame.refl s
  · rename_i rest _
    have h : DeliverFrame s (s.setSte { s.ste with events := rest }) := ⟨rfl, rfl, List.prefix_refl _⟩
    exact h.trans (State.deliver_frame _ _)

/-- R32: what deliveries of the oldest events keep. -/
theorem State.deliverFirst_frame (n : Nat) (s : State) : DeliverFrame s (s.deliverFirst n) := by
  induction n generalizing s with
  | zero => exact DeliverFrame.refl s
  | succ n ih => exact (State.deliverNext_frame s).trans (ih _)

/-- R84, R100, R112: the delivery of every event handed over so far. -/
theorem State.settle_frame (s : State) : DeliverFrame s s.settle := State.deliverFirst_frame _ s

/-- R32: the delivery of the oldest event is EVENT_DELIVERY with 0. -/
theorem execEventDelivery_zero (s : State) : execEventDelivery 0 s = .next s.deliverNext := by
  unfold execEventDelivery State.deliverNext Ste.deliverable
  cases h : s.ste.events <;> simp

/-- The `n` oldest events are delivered by `n` EVENT_DELIVERYs, in one way. -/
theorem delivered_iff (n : Nat) (s t : State) : delivered n s t ↔ t = s.deliverFirst n := by
  induction n generalizing s with
  | zero => exact Iff.rfl
  | succ n ih =>
    constructor
    · rintro ⟨u, hu, hd⟩
      cases (execEventDelivery_zero s).symm.trans hu
      exact (ih _).1 hd
    · exact fun h => ⟨s.deliverNext, execEventDelivery_zero s, (ih _).2 h⟩

/-- The events handed over so far are delivered by as many EVENT_DELIVERYs. -/
theorem State.settle_delivered (s : State) : delivered s.ste.events.length s s.settle :=
  (delivered_iff _ s _).2 rfl

/-! ## An end with a pass in hand (R15, R32, R47) -/

/-- A pass in hand when the end is taken keeps what the whole pass keeps. -/
theorem State.endedInPass_frame {s w : State} (h : DeliverFrame s w) (k : Nat) : DeliverFrame s (s.endedInPass w k) := by
  obtain ⟨l, hl⟩ := h.behind
  have e := h.eq
  refine ⟨by rw [e]; rfl, h.live, ?_⟩
  simp only [State.endedInPass, State.setTs, ← hl, List.take_length_add_append, List.append_assoc]
  exact List.prefix_append _ _

/-- R15: which records count and whether the trigger fired, said of the pass in hand. -/
theorem State.endedInPass_spec {s w : State} (h : s.ts.input <+: w.ts.input) (k : Nat) :
    EndedInPass s w (s.endedInPass w k) k := by
  obtain ⟨l, hl⟩ := h
  have hd : w.ts.input.drop (s.ts.input.length + k) = l.drop k := by rw [← hl, List.drop_length_add_append]
  have ht : w.ts.input.take (s.ts.input.length + k) = s.ts.input ++ l.take k := by
    rw [← hl, List.take_length_add_append]
  refine ⟨l.take k, l.drop k, by rw [List.take_append_drop, hl], by simp, ?_, ?_, ?_⟩
  · simp only [State.endedInPass, State.setTs, hd, ht, List.append_assoc]; rfl
  · rintro ⟨e, he, src, hs⟩
    have : (l.drop k).any Waiting.ofTrigger = true := List.any_eq_true.2 ⟨e, he, by simp [Waiting.ofTrigger, hs]⟩
    simp [State.endedInPass, State.setTs, hd, this]
  · intro hn
    have : (l.drop k).any Waiting.ofTrigger = false := by
      rw [List.any_eq_false]
      intro e he
      have := hn e he
      unfold Waiting.ofTrigger
      split
      · rename_i src hs; exact absurd hs (this src)
      · simp
    simp [State.endedInPass, State.setTs, hd, this]

/-- With nothing of the pass coming after the end, the pass in hand is the whole pass. -/
theorem State.endedInPass_whole {s w : State} {k : Nat} (h : w.ts.input.length ≤ s.ts.input.length + k) :
    s.endedInPass w k = w := by
  simp [State.endedInPass, State.setTs, List.take_of_length_le h, List.drop_of_length_le h]

/-- R37: the pass of decision times reached. -/
theorem State.decideAll_frame (s : State) : DeliverFrame s s.decideAll :=
  (decides_stepFrame s _).deliverFrame.trans (State.closePass_deliverFrame _)

/-- The last of the deliveries is the delivery of the oldest event left. -/
theorem State.deliverFirst_succ (n : Nat) (s : State) : s.deliverFirst (n + 1) = (s.deliverFirst n).deliverNext := by
  induction n generalizing s with
  | zero => rfl
  | succ n ih => exact ih s.deliverNext

/-- What comes before the end work keeps what deliveries keep, whatever the free value. -/
theorem State.settleEnd_frame (c : Nat) (s : State) : DeliverFrame s (s.settleEnd c) := by
  have h : DeliverFrame s s.settle := State.settle_frame s
  unfold State.settleEnd
  dsimp only
  split
  · exact h.trans (State.endedInPass_frame (State.decideAll_frame _) _)
  · split
    · rename_i hn
      refine (State.deliverFirst_frame _ s).trans (State.endedInPass_frame ?_ _)
      obtain ⟨n, hl⟩ := Nat.exists_eq_succ_of_ne_zero hn.1
      simp only [State.settle, hl, Nat.succ_sub_one, State.deliverFirst_succ]
      exact State.deliverNext_frame _
    · exact h

/-- R37: a decision time is due exactly where the step's pass would decide a step. -/
theorem State.decisionsDue_iff (s : State) : s.decisionsDue = true ↔ s.isDue .decisionTime := by
  simp only [State.decisionsDue, State.isDue, Bool.and_eq_true, beq_iff_eq, List.any_eq_true, List.mem_finRange, true_and]
  refine and_congr_right fun _ => exists_congr fun j => ?_
  constructor
  · intro h
    split at h
    · rename_i e v hi
      obtain ⟨h1, h2, h3⟩ := (Ste.inState_iff _ _ _ _ _).1 hi
      refine ⟨e, v, h1, h2, h3, ?_⟩
      unfold StepEval.decisionDue at h
      cases hd : v.decision with
      | none => simp [hd] at h
      | some d => exact ⟨d, rfl, by simpa [hd] using h⟩
    · cases h
  · rintro ⟨e, v, h1, h2, h3, d, hd, hle⟩
    rw [(Ste.inState_iff _ _ _ e v).2 ⟨h1, h2, h3⟩]
    simpa [StepEval.decisionDue, hd] using hle

/-- R15, R32, R84: what the end work of an end begins with, whatever the free value. -/
theorem State.settleEnd_begins (c : Nat) (s : State) :
    EndBegins c s { s.settleEnd c with choices := (s.settleEnd c).choices + 1 } := by
  refine ⟨s.settle, s.settleEnd c, s.settle_delivered, by rw [(State.settleEnd_frame c s).choices], ?_, ?_⟩
  · rintro ⟨hc, hd⟩
    have hd' := s.settle.decisionsDue_iff.2 hd
    refine ⟨s.settle.decideAll, by simp [exec, execDecisionTime, hd'], ?_⟩
    simp only [State.settleEnd, hd', hc, and_self, if_true]
    exact State.endedInPass_spec (State.decideAll_frame _).behind _
  · intro hn
    have hn' : ¬(s.settle.decisionsDue = true ∧ c % 2 = 1) := fun h => hn ⟨h.2, s.settle.decisionsDue_iff.1 h.1⟩
    refine ⟨fun he => by simp [State.settleEnd, hn', he], fun n p hl hp => ?_⟩
    cases (delivered_iff _ _ _).1 hp
    have hs : s.settle = (s.deliverFirst n).deliverNext := by rw [State.settle, hl, State.deliverFirst_succ]
    simp only [State.settleEnd, hn', if_false, hl, Nat.add_sub_cancel, ne_eq, Nat.succ_ne_zero, not_false_eq_true, true_and]
    constructor
    · intro hr
      rw [if_pos hr, hs]
      exact State.endedInPass_spec (State.deliverNext_frame _).behind _
    · intro hr
      rw [if_neg hr]

/-- An end keeps the queue of waiting commands and the clock, and makes one free choice. -/
theorem State.takeEnd_frame (s : State) (cause : EndCause) :
    (s.takeEnd cause).pending = s.pending ∧ (s.takeEnd cause).clock = s.clock ∧ (s.takeEnd cause).mp = s.mp ∧
      (s.takeEnd cause).choices = s.choices + 1 := by
  have h := State.settleEnd_frame (Config.choose s.choices) s
  have k := State.endRun_endFrame
    { s.settleEnd (Config.choose s.choices) with choices := (s.settleEnd (Config.choose s.choices)).choices + 1 } cause
  unfold State.takeEnd
  exact ⟨k.pending.trans h.pending, k.clock.trans h.clock, k.mp.trans h.mp, k.choices.trans (congrArg (· + 1) h.choices)⟩

/-! ## Validation (R27, R28) -/

/-- R28: a step without a fault passes every check. -/
theorem State.stepFault_none (s : State) (k : Fin 64) (e : StepEntry) (h : s.stepFault k e = none) :
    anchorOk s.ste.staged k e = true ∧ e.kindOk = true ∧ e.windowOk = true ∧ e.countOk = true ∧
      s.condOk e.cond = true ∧ e.actions.all s.actionSourceOk = true ∧ e.actions.all s.actionPermitted = true ∧
      e.orderOk = true := by
  unfold State.stepFault at h
  cases h1 : anchorOk s.ste.staged k e <;> cases h2 : e.kindOk <;> cases h3 : e.windowOk <;> cases h4 : e.countOk <;>
    cases h5 : s.condOk e.cond <;> cases h6 : e.actions.all s.actionSourceOk <;>
    cases h7 : e.actions.all s.actionPermitted <;> cases h8 : e.orderOk <;>
    simp only [h1, h2, h3, h4, h5, h6, h7, h8, Bool.not_true, Bool.not_false, Bool.and_self, Bool.and_true, Bool.and_false,
      Bool.false_eq_true, if_true, if_false, reduceCtorEq] at h
  simp

/-- R28: a plan that passes has no step with a fault. -/
theorem State.validate_steps (s : State) (h : s.validate = none) (k : Fin 64) (e : StepEntry)
    (hk : s.ste.staged[k] = some e) : s.stepFault k e = none := by
  unfold State.validate at h
  split at h
  · cases h
  · cases hp : s.planFault with
    | some f => simp [hp] at h
    | none =>
      have := List.findSome?_eq_none_iff.1 hp k (List.mem_finRange k)
      simpa [hk] using this

/-- R28, DENIED: the drive channels that a passing plan names are in the permit mask. -/
theorem State.validate_permits (s : State) (h : s.validate = none) (k : Fin 64) (e : StepEntry)
    (hk : s.ste.staged[k] = some e) (c : Fin 8) (op : DriveOp) (ha : Action.drive c op ∈ e.actions) :
    s.permitMask.getLsbD c.val = true := by
  have := (State.stepFault_none s k e (State.validate_steps s h k e hk)).2.2.2.2.2.2.1
  exact List.all_eq_true.1 this _ ha

/-! ## What is ready (00_scope.md) -/

/-- A command stands in a list of due commands where its condition holds. -/
theorem mem_whenDue (c : Bool) (i j : Instr) : j ∈ whenDue c i ↔ c = true ∧ j = i := by
  cases c <;> simp [whenDue]

/-- With nothing ready the part ticks. -/
theorem State.advance_of_idle (s : State) (h : s.ready = []) : s.advance = s.tick := by
  simp [State.advance, h]

/-- With something ready the part takes up one of the ready commands. -/
theorem State.advance_of_ready (s : State) (h : s.ready ≠ []) :
    ∃ c n, c ∈ s.ready ∧ s.advance = { s with pending := [c], choices := n } := by
  rcases hq : s.ready with _ | ⟨c, _ | ⟨d, cs⟩⟩
  · exact absurd hq h
  · exact ⟨c, s.choices, by simp, by simp [State.advance, hq]⟩
  · refine ⟨_, s.choices + 1, ?_, by simp only [State.advance, hq]; rfl⟩
    have : Config.choose s.choices % (c :: d :: cs).length < (c :: d :: cs).length := Nat.mod_lt _ (by simp)
    simp only [List.getD_eq_getElem?_getD, List.getElem?_eq_getElem this, Option.getD_some]
    exact List.getElem_mem _

end Sys2Proof.Machine
end

