-- ==== Sys2Proof/Tests/Slice0.lean ====
section
/-! SUPPORT. The model's own tests: an ill-formed command for each check of WellFormed; the manual's worked figures; and for
each statement of Certificates/Slice0 that has hypotheses, a state and operands that meet them, clause by clause at the
boundaries of their ranges. -/

open Sys2Proof Sys2Proof.Machine

namespace Sys2Proof.Tests

set_option Elab.async false
set_option maxRecDepth 8000

/-! ## WellFormed refuses -/

theorem test_wf_empty_frame : (Instr.frameReceive ⟨[], false⟩).wellFormed = false := by decide
theorem test_wf_empty_error : (Instr.errorEntry ⟨[], true⟩).wellFormed = false := by decide
theorem test_wf_unknown_known : (Instr.unknownKind 0x01 0 []).wellFormed = false := by decide
theorem test_wf_unknown_long : (Instr.unknownKind 0x06 0 (List.replicate 1019 0)).wellFormed = false := by decide
theorem test_wf_malformed_unknown : (Instr.malformed (.frame 0x06 0 [])).wellFormed = false := by decide
theorem test_wf_malformed_allowed : (Instr.malformed (.frame 0x01 0 [])).wellFormed = false := by decide
theorem test_wf_malformed_long : (Instr.malformed (.frame 0x01 0 (List.replicate 1019 0))).wellFormed = false := by decide
theorem test_wf_lengths :
    (Instr.runsetPut 0 (List.replicate 11 0)).wellFormed = false ∧ (Instr.planPut 0 0 1 []).wellFormed = false ∧
    (Instr.planPut 0 0 0 (List.replicate 35 0)).wellFormed = false ∧
    (Instr.storeSet 0 (List.replicate 5 0)).wellFormed = false ∧ (Instr.mark 0 (List.replicate 15 0)).wellFormed = false ∧
    (Instr.bankSet 0 0 (List.replicate 17 0)).wellFormed = false ∧
    (Instr.chanSet 0 0 (List.replicate 6 0)).wellFormed = false ∧
    (Instr.rateSet 0 0 (List.replicate 13 0)).wellFormed = false ∧
    (Instr.codeSet 0 (List.replicate 9 0)).wellFormed = false ∧
    (Instr.consSet 0 0 (List.replicate 4 0)).wellFormed = false ∧
    (Instr.consSend 0 0 (List.replicate 256 0)).wellFormed = false ∧
    (Instr.matchSet 0 0 (List.replicate 35 0)).wellFormed = false ∧
    (Instr.scanConfig 0 (List.replicate 3 0)).wellFormed = false ∧
    (Instr.templatePut 0 0 1 []).wellFormed = false ∧
    (Instr.scanSubmit 0 0 (List.replicate 195 0)).wellFormed = false := by decide
theorem test_wf_history_option : (Instr.codeHistory 0 1).wellFormed = false := by decide
theorem test_wf_drive_byte : (Instr.driveSetNone 0 0 4 []).wellFormed = false := by decide
theorem test_wf_drive_part :
    (Instr.driveSetNone 0 0 255 (List.replicate 9 0)).wellFormed = false ∧
    (Instr.driveSetRelease 0 0 (List.replicate 9 0)).wellFormed = false ∧
    (Instr.driveSetLow 0 0 [0]).wellFormed = false ∧ (Instr.driveSetHigh 0 0 [0]).wellFormed = false ∧
    (Instr.driveSetStartPulse 0 0 [0]).wellFormed = false ∧ (Instr.driveSetStopPulse 0 0 [0]).wellFormed = false := by
  decide

/-! ## The manual's worked figures -/

/-- One part of the next state. -/
def after {α : Type} (f : State → α) (c : Instr) (s : State) : Option α :=
  match exec c s with
  | .next t => some (f t)
  | _ => none

/-- The bytes of the reply that a command leaves. -/
def replyBytes (c : Instr) (s : State) : Option Bytes :=
  (after (fun t => t.mp.reply.map fun r => frameBytes r.kind r.tag r.status.code r.body) c s).join

/-- IDENTIFY's reply, byte for byte (12.1, R135): vendor 0x5544, part 0x0420, revision 1, 32,768 units, 64, 8, 8, 16. -/
theorem test_identify_reply : replyBytes (.identify 7) State.reset =
    some [17, 0, 0x01, 7, 0, 0, 0x44, 0x55, 0x20, 0x04, 1, 0x00, 0x80, 64, 8, 8, 16] := by decide

/-- A frame of IDENTIFY with tag 7 is taken as it (12.1, R133). -/
theorem test_identify_frame : after (fun t => t.mp.queue.map Entry.command) (.frameReceive ⟨[6, 0, 0x01, 7, 0, 0], true⟩)
    State.reset = some [.identify 7] := by decide

/-- R133: the byte after a frame begins the next one, in the same transfer; after a bad length the rest is discarded. -/
theorem test_stream :
    after (fun t => (t.mp.queue.map Entry.command, t.mp.reception))
      (.frameReceive ⟨[6, 0, 0x01, 7, 0, 0, 6, 0, 0x02, 8], false⟩) State.reset = some ([.identify 7], [6, 0, 0x02, 8]) ∧
    after (fun t => (t.mp.queue, t.mp.transfer)) (.frameReceive ⟨[5, 0, 6, 0, 0x01, 7, 0, 0], false⟩) State.reset =
      some ([.error], .discarding) := by decide

/-- A frame of kind 0x06, which 12.1 does not list, and one of DRIVE_SET with its operation byte 1 (12.2: LOW). -/
theorem test_frames_by_kind : (Entry.frame 0x06 9 [1, 2]).command = .unknownKind 0x06 9 [1, 2] ∧
    (Entry.frame 0x50 9 [3, 1]).command = .driveSetLow 9 3 [] ∧
    (Entry.frame 0x50 9 [3]).command = .malformed (.frame 0x50 9 [3]) := by decide

/-- ARM with no used step is refused with BAD_PLAN, step 255, reason EMPTY, code 1 (12.2, 12.3, R27). -/
theorem test_arm_empty : replyBytes (.arm 2) State.reset = some [8, 0, 0x12, 2, 12, 0, 255, 1] := by decide

/-- FLAGS_ENABLE with a mask above bit 14 is refused with RANGE (R136). -/
theorem test_flags_range : replyBytes (.flagsEnable 1 0x8000) State.reset = some [6, 0, 0x04, 1, 3, 0] := by decide

/-- The worked acquisition of chapter 5: the decision for bit 2 on a reference at 3,304 mV is kept at 33 of 64 samples above
and dropped at 32. -/
theorem test_decision_on_noise :
    let a := fun n => ({ kind := .track, s0 := 200, s1 := 50, factor := 4, elapsed := 200 + 5 * 114 + 63, result := 232
                         above := n } : Acq)
    ((a 32).tick 3304 true).result = 236 ∧ ((a 32).tick 3304 false).result = 232 ∧ ((a 32).tick 3305 false).result = 236 := by
  decide

/-- The acquisition of chapter 5 lasts 1,112 ticks. -/
theorem test_acquisition_length : (Acq.begin .track BankSettings.reset).duration = 1112 := by decide

/-- The revolutions of chapter 6: 7,510,000, 2,500,000 and 900,000 ticks. -/
theorem test_tach_readings : tachReading 7510000 = 798 ∧ tachReading 2500000 = 2400 ∧ tachReading 900000 = 6666 := by decide

/-- Chapter 6: the first LOW reading of a monitor in OFF makes it the candidate, the second moves the state (R90). -/
theorem test_rate_agreement :
    let r : Rm := { Rm.reset with settings := { RateSettings.reset with enabled := true, highRpm := 6000 } }
    (r.judge .low).state = .off ∧ (r.judge .low).agreement = 1 ∧ ((r.judge .low).judge .low).state = .low ∧
      ((r.judge .low).judge .low).candidate = none := by decide

/-- Chapter 7: a capture of the head's code inside the fold window folds; of another code does not (R97, R98). -/
theorem test_code_folding :
    let c : Cdp := { Cdp.reset with foldFrom := some 0, history := [⟨0x19, 2⟩, ⟨0x17, 3⟩] }
    c.historyAfter 0x19 = [⟨0x19, 3⟩, ⟨0x17, 3⟩] ∧ c.historyAfter 0x2A = [⟨0x2A, 1⟩, ⟨0x19, 2⟩, ⟨0x17, 3⟩] := by decide

/-- Chapter 8: at 115,200 baud in 8N1 a byte arrives 8,247 ticks after its start edge, and a line low for more than
F = 8,680.55… ticks is a break. -/
theorem test_console_times : Cp.reset.settings.samplePoint 9 = 8247 ∧ Cp.reset.settings.longerThanFrame 8680 = false ∧
    Cp.reset.settings.longerThanFrame 8681 = true := by decide

/-- Chapter 8: with 4 bytes of "ok ok" matched, a letter O leaves progress 1 and a k completes the pattern. -/
theorem test_matcher_fallback :
    let t : Tm := { settings := { enabled := true, port := 1, caseInsensitive := true, pattern := [0x6F, 0x6B, 0x20, 0x6F, 0x6B] }
                    progress := 4 }
    t.advance 0x4F = 1 ∧ t.advance 0x4B = 5 := by decide

/-- Chapter 4: a TEXT record of 1 byte takes 3 units and one of 56 bytes takes 9; the one of chapter 8 with 10 bytes takes 4. -/
theorem test_text_units : [1, 10, 56].map (fun n =>
    ({ time := 0, body := .text 1 .rx (List.replicate n 0x6F) false false } : Rec).units) = [3, 4, 9] := by decide

/-- Chapter 9: with p 12 and B 4,884 a period is 20,004,864 ticks: 4,884 units of 4,096. -/
theorem test_period : 4884 * 2 ^ 12 = 20004864 ∧
    ({ Dc.reset with running := true, active := ⟨12, 1, 4884, false⟩, counter := 4884 } : Dc).periodDue = true ∧
    ({ Dc.reset with running := true, active := ⟨12, 1, 4884, false⟩, counter := 4883 } : Dc).periodDue = false := by decide

/-- Chapter 10: an IR_SCAN of 8 bits takes 14 periods, a DR_SCAN of 32 bits 37, and an IR capture of 0x01 passes the check. -/
theorem test_scan_periods : (ScanOp.irScan 8 0).periods = 14 ∧ (ScanOp.drScan 32 0).periods = 37 ∧
    irCheckPasses 8 1 = true ∧ irCheckPasses 8 3 = false := by decide

/-- Chapter 10: from UNKNOWN the six periods of a TAP_RESET lead to Run-Test/Idle (R124, R125). -/
theorem test_tap_reset : (List.range 6).foldl (fun t i => tapEdge t .tapReset i) none = some .runTestIdle := by decide

/-! ## Witnesses: what meets the hypotheses of each statement -/

/-- A plan with one step. -/
def onePlan (e : StepEntry) : Plan := Plan.reset.set 0 (some e)

/-- An AWAIT step on a rising edge of MC0, 0 to 100 µs after START. -/
def edgeStep : StepEntry :=
  { kind := .await, required := true, anchor := .start, cond := .edge 0 .rising, windowMin := 0, windowMax := 100
    count := 1, earlyFails := true, stopOnFail := true, label := 7, actions := [] }

/-- The record of a step OPEN from 1,000 to 2,000 ticks. -/
def openRecord : StepEval :=
  { StepEval.fresh with
    state := .opened, anchorTime := some 1000, lo := some 1000, hi := some 2000, decision := some 2000 }

/-- A state in a run. -/
def inRun (st : RunState) : State := { State.reset with rc := { Rc.reset with runState := st } }

/-- A state RUNNING with one step of the plan and its record. -/
def withStep (e : StepEntry) (v : StepEval) (now : Nat) (events : List Event) : State :=
  { State.reset with
    rc := { Rc.reset with runState := .running, timeBase := now, startTime := some 0, limitTime := some 100000 }
    ste := { Ste.reset with active := onePlan e, evals := Ste.reset.evals.set 0 (some v), events } }

theorem witness_StepRunsFrontCommand : ({ State.reset with pending := [.por, .armTimeout] } : State).pending =
    .por :: [.armTimeout] := rfl

theorem witness_IdleStepTicksOrTakesUp : State.reset.pending = [] ∧ State.reset.ready = [] ∧
    (∃ a, State.reset.lau[(0 : Fin 4)].acq = some a) ∧
    ({ State.reset with mp := { Mp.reset with resetDue := true } } : State).ready ≠ [] := by
  refine ⟨by decide, by decide, ⟨_, rfl⟩, by decide⟩

theorem witness_CommandsAnswerAndLeaveQueue : Instr.armTimeout ≠ .por ∧ Instr.armTimeout ≠ .pinReset ∧
    Instr.armTimeout ≠ .softReset := by decide

theorem witness_RequestFramesRoundTrip :
    (Instr.consSend 1 0 (List.replicate 255 9)).wellFormed = true ∧
    (Instr.consSend 1 0 (List.replicate 255 9)).entry = some (.frame 0x49 1 (0 :: 255 :: List.replicate 255 9)) ∧
    (Instr.codeHistory 1 0).wellFormed = true ∧ (Instr.codeHistory 1 0).entry = some (.frame 0x41 1 [0]) ∧
    (Instr.driveSetNone 1 2 5 []).wellFormed = true ∧
    (Instr.driveSetNone 1 2 5 []).entry = some (.frame 0x50 1 [2, 5]) := by decide

theorem witness_FramesEnterTheQueue :
    (State.reset.mp.attached = true ∧ State.reset.mp.reception = [] ∧ State.reset.mp.transfer ≠ .discarding ∧
      State.reset.mp.queue.length < 3 ∧ (List.replicate 1018 (0 : Byte)).length ≤ 1018 ∧
      [6] ≠ ([] : Bytes) ∧ [0, 1, 7, 0, 0] ≠ ([] : Bytes) ∧ [6] ++ [0, 1, 7, 0, 0] = frameBytes 0x01 7 0 []) ∧
    (Mp.receive ([6] ++ [0, 1, 7, 0, 0]) Mp.reset ≠ none ∧
      after (fun t => t.mp.reception) (.frameReceive ⟨[6], false⟩) State.reset = some [6]) ∧
    (({ Mp.reset with attached := false } : Mp).attached = false ∧
      4 ≤ ({ Mp.reset with queue := List.replicate 4 .error } : Mp).queue.length) ∧
    (let waiting := fun (n : Nat) (m : Mp) => { State.reset with mp := { m with queue := List.replicate n .error } }
     let begun := { Mp.reset with reception := [6], transfer := .unframing }
     (waiting 2 begun).mp.queue.length < 3 ∧ (waiting 2 begun).mp.reception ++ [0, 1, 7, 0, 0] = frameBytes 0x01 7 0 [] ∧
       after (fun t => (t.mp.held, t.mp.reception)) (.frameReceive ⟨[0, 1, 7, 0, 0], true⟩) (waiting 2 begun) =
         some (3, []) ∧
       after (fun t => (t.mp.held, t.mp.reception)) (.frameReceive ⟨[6], false⟩) (waiting 3 Mp.reset) = some (4, [6]) ∧
       after (fun t => t.mp) (.frameReceive ⟨[0, 1, 7, 0, 0], true⟩) (waiting 3 begun) = some (waiting 3 begun).mp ∧
       after (fun t => t.mp) (.frameReceive ⟨[6, 0], true⟩) (waiting 3 Mp.reset) = some (waiting 3 Mp.reset).mp) := by decide

theorem witness_BadFramesAreAnswered :
    (State.reset.mp.attached = true ∧ State.reset.mp.reception = [] ∧ State.reset.mp.queue.length < 3 ∧
      2 ≤ ([5, 0] : Bytes).length ∧ State.reset.mp.transfer ≠ .discarding ∧ field [5, 0] 0 2 < 6 ∧
      1024 < field [1, 4] 0 2) ∧
    (let m := { Mp.reset with transfer := .discarding }
     m.attached = true ∧ m.reception = [] ∧ m.queue.length < 4 ∧ m.transfer = .discarding) ∧
    (let s := { State.reset with mp := { Mp.reset with queue := List.replicate 4 .error } }
     s.mp.reception = [] ∧ 4 ≤ s.mp.queue.length) ∧
    (let m := { Mp.reset with reception := [5], transfer := .unframing }
     m.transfer ≠ .discarding ∧ m.queue.length < 3 ∧ m.reception = [5] ∧ field [5, 0] 0 2 < 6) ∧
    (kindKnown 0x06 = false ∧ State.reset.mp.canTake (.unknownKind 0x06 1 []) = true) ∧
    (kindKnown 0x01 = true ∧ bodyAllowed 0x01 [0] = false ∧
      State.reset.mp.canTake (.malformed (.frame 0x01 1 [0])) = true) ∧
    State.reset.mp.canTake (.malformed .error) = true := by decide

theorem witness_RequestsWaitTheirTurn : (Instr.identify 1).entry = some (.frame 0x01 1 []) ∧
    ({ Mp.reset with resetDue := true } : Mp).busy = true ∧
    ({ Mp.reset with queue := [.error] } : Mp).queue = .error :: [] ∧ Entry.error.command ≠ .identify 1 := by decide

theorem witness_RepliesAndNoticesAreSent :
    (let s := { State.reset with mp := { Mp.reset with reply := some ⟨1, 2, .ok, []⟩ } }
     s.mp.attached = true ∧ s.mp.reply = some ⟨1, 2, .ok, []⟩) ∧
    (let s := { State.reset with fu := ⟨1, 1, 1⟩ }
     s.mp.attached = true ∧ s.mp.reply = none ∧ s.fu.slot ≠ 0) ∧
    (let s := { State.reset with fu := ⟨1, 1, 1⟩, mp := { Mp.reset with reply := some ⟨1, 2, .ok, []⟩, together := true } }
     s.mp.attached = true ∧ s.mp.together = true ∧ s.fu.slot ≠ 0) ∧
    (let s := { State.reset with fu := ⟨1, 1, 1⟩, mp := { Mp.reset with reply := some ⟨1, 2, .ok, []⟩ } }
     s.mp.reply ≠ none ∧ s.mp.together = false) := by decide

/-- R137: FLAGS_ENABLE of a set flag makes its notice and its reply ready together: the notice may be sent first. A notice that
waited before the request goes behind the reply. -/
theorem test_reply_and_notice_together :
    (match Sys2Proof.Machine.exec (.flagsEnable 0 1) { State.reset with fu := ⟨1, 0, 0⟩ } with
     | .next t => t.mp.together && after (fun u => (u.fu.slot, u.mp.reply.isSome)) .noticeSend t == some (0, true)
     | _ => false) = true ∧
    (match Sys2Proof.Machine.exec (.flagsEnable 0 1) { State.reset with fu := ⟨1, 1, 1⟩ } with
     | .next t => !t.mp.together && after (fun u => (u.fu.slot, u.mp.reply.isSome)) .noticeSend t == some (1, true)
     | _ => false) = true := by decide

theorem witness_PortRequestsAnswer : State.reset.mp.canTake (.identify 0) = true ∧
    State.reset.mp.canTake (.resetProbe 0) = true := by decide

theorem witness_ResetsAct : ({ State.reset with mp := { Mp.reset with resetDue := true } } : State).mp.resetDue = true ∧
    State.reset.mp.resetDue = false := by decide

theorem witness_StepKeepsNoticeSlot : Fu.Sound ⟨3, 1, 1⟩ := by unfold Fu.Sound; decide

/-- A state IDLE with two records retained. -/
def retaining : State := { State.reset with ts := { Ts.reset with
  records := [⟨0, ⟨0, .gap 1⟩⟩, ⟨1, ⟨5, .gap 2⟩⟩], occupancy := 6, nextSeq := 2 } }

theorem noFragments : ∀ p : Fin 2, State.reset.cp[p].fragmentsSound := by
  intro p
  match p with
  | 0 => exact ⟨(fun _ h => by cases h), (fun _ h => by cases h)⟩
  | 1 => exact ⟨(fun _ h => by cases h), (fun _ h => by cases h)⟩

theorem witness_StepKeepsStore : retaining.StoreSound where
  sound := by
    refine ⟨by unfold Ts.occupancyExact; decide, by decide, ?_⟩
    intro i h
    match i, h with
    | 0, _ => rfl
    | 1, _ => rfl
  roomy := ⟨by decide, fun _ => by decide, by decide, by decide, fun h => absurd h (by decide),
    fun _ h => absurd rfl h, fun h => absurd h (by decide)⟩
  trigger := fun h => absurd h (by decide)
  marks := by decide
  fragments := noFragments

theorem witness_StepKeepsCapacities : State.reset.Fits where
  requests := by unfold Mp.fitsQueue; decide
  lookback := by unfold Ste.fitsLookback; decide
  history := by unfold Cdp.historySound; decide
  codeRecord := fun _ h => by cases h
  scans := by unfold Sc.fits; decide
  transmit := by unfold Cp.fitsTransmit; decide
  fragments := noFragments
  progress := by unfold Tm.progressSound; decide

theorem witness_StepKeepsDrivesSafe : State.reset.DrivesSafe :=
  ⟨by unfold State.railsRespected; decide, by unfold State.maskRespected; decide, fun h => absurd h (by decide),
    by unfold Dc.generatorSound; decide⟩

theorem witness_StepKeepsTapAtRest : State.reset.sc.restsIdle := fun _ => .inl rfl

theorem witness_TerminalStepsStay :
    let v := { openRecord with state := .matched }
    let s := withStep edgeStep v 0 []
    (∀ tag, Instr.trigger 0 ≠ .arm tag) ∧ s.ste.evals[(0 : Fin 64)] = some v ∧ v.state.terminal = true := by
  intro v s
  exact ⟨fun _ => by simp, by decide, by decide⟩

theorem witness_FlagsAndNotices : 14 < 15 ∧ State.reset.mp.canTake (.flagsQuery 0) = true ∧
    State.reset.mp.canTake (.flagsEnable 0 0x7FFF) = true ∧ (0x7FFF : BitVec 16).getLsbD 15 = false ∧
    State.reset.mp.canTake (.flagsClear 0 0x8000) = true ∧ (0x8000 : BitVec 16).getLsbD 15 = true := by decide

/-- A record at the ends of every range. -/
theorem witness_SettingsReadBack :
    (1 ≤ 5000000 ∧ 5000000 ≤ 5000000) ∧ (16 ≤ 32000 ∧ 32000 ≤ 32000 ∧ 32768 ≤ 32768) ∧
    (let r : BankSettings := { BankSettings.reset with
        interval := 1000000, s0 := 32767, s1 := 1, factor := 64, up := 255, down := 254, fixedThreshold := 255 }
     100 ≤ r.interval ∧ r.interval ≤ 1000000 ∧ r.s0 ≤ 32767 ∧ 1 ≤ r.s1 ∧ r.factor ≤ 64 ∧ r.down < r.up ∧ r.up ≤ 255 ∧
       BankSettings.dec r.enc = some r) ∧
    (let r : ChanSettings := ⟨true, 65535, false, true⟩; ChanSettings.dec r.enc = some r) ∧
    (let r : RateSettings := ⟨true, .clock, 23, 4, 65535, 65535, 5000, 50000, 50000⟩; RateSettings.dec r.enc = some r) ∧
    (let r : CodeSettings := ⟨true, .falling, 60000, [1, 2, 3, 4], false⟩; CodeSettings.dec r.enc = some r) ∧
    (let r : ConsSettings := ⟨true, 7, .f8O1, 255, true⟩; ConsSettings.dec r.enc = some r) ∧
    (let r : MatchSettings := ⟨true, 1, true, List.replicate 32 9⟩; MatchSettings.dec r.enc = some r) ∧
    (let r : DrivePart := ⟨true, true, true, ⟨14, 65535, 1, true⟩⟩; DrivePart.dec r.enc = some r) ∧
    (let r : ScanSettings := ⟨1000, true, true⟩; ScanSettings.dec r.enc = some r) := by decide

theorem witness_StepEntriesReadBack :
    let e := { edgeStep with
      windowMin := 4000000000, windowMax := 4000000000, count := 255, cond := .scan 7 .fault
      actions := [.drive 7 .stopPulse, .scan 7, .mark 255, .endRun] }
    e.windowMin ≤ 4000000000 ∧ e.windowMax ≤ 4000000000 ∧ e.count ≤ 255 ∧ e.actions.length ≤ 4 ∧
      StepEntry.dec e.enc = some e := by decide

/-- A job of one IR_SCAN and one DR_SCAN of the greatest lengths, with a compare. -/
def job : JobBody :=
  { ops := [.irScan 64 (BitVec.ofNat 128 (2 ^ 64 - 1)), .drScan 128 (BitVec.ofNat 128 (2 ^ 128 - 1)), .idle 65535]
    compare := some ⟨1, BitVec.ofNat 128 (2 ^ 128 - 1)⟩ }

theorem witness_JobBodiesReadBack : 1 ≤ job.ops.length ∧ job.ops.length ≤ 8 ∧ (job.ops.map ScanOp.bits).sum ≤ 512 ∧
    lastDrLength job.ops = some 128 ∧ JobBody.dec job.enc = some job := by decide

theorem witness_RecordsFillTheirUnits :
    let r : Stored := ⟨2 ^ 48 - 1, ⟨2 ^ 40 - 1, .text 1 .tx (List.replicate 56 255) true true⟩⟩
    r.seq < 2 ^ 48 ∧ r.record.time < 2 ^ 40 ∧ (List.replicate 56 (255 : Byte)).length ≤ 56 ∧
      1 ≤ (List.replicate 56 (255 : Byte)).length ∧ r.record.units = 9 ∧ r.bytes.length = 72 := by decide

/-- A state with a plan that passes. -/
def ready : State :=
  { State.reset with
    ste := { Ste.reset with staged := onePlan edgeStep }
    mc := State.reset.mc.set 0 { Mc.reset with settings := ⟨true, 0, true, true⟩ } }

theorem witness_ValidationAtArm : ready.validate = none ∧ State.reset.validate = some (none, .empty) ∧
    { State.reset with ste := ready.ste : State }.validate = some (some 0, .source) ∧
    { ready with rc := { Rc.reset with staged := { RunSettings.reset with source := .edge 23 .rising } } : State }.validate =
      some (none, .start) ∧
    (let s : State := { State.reset with rc := { Rc.reset with staged := { RunSettings.reset with source := .edge 23 .rising } } }
     (∀ j : Fin 64, s.ste.staged[j] = none) ∧ s.mc[(23 : Fin 24)].settings.enabled = false ∧
       s.validate = some (none, .empty)) := by decide

theorem witness_ArmStartsARun : ready.mp.canTake (.arm 0) = true ∧ ready.rc.runState = .idle ∧ ready.validate = none ∧
    ({ ready with rc := { ready.rc with runState := .ended } } : State).validate = none := by decide

theorem witness_StartStartsTheRun : (inRun .armed).mp.canTake (.start 0) = true ∧ (inRun .armed).rc.runState = .armed ∧
    (inRun .armed).rc.active.source = .station ∧ State.reset.rc.runState ≠ .armed ∧
    (let s : State := { inRun .armed with
       rc := { Rc.reset with runState := .armed, active := { RunSettings.reset with fromTrigger := true } }
       ts := { Ts.reset with active := { StoreSettings.reset with mode := .window } } }
     s.rc.active.fromTrigger = true ∧ s.ts.active.mode = .window ∧ s.ts.fired = false ∧
       after (fun t => t.ts.input.map Waiting.record) (.start 0) s =
         some [⟨0, .runStarted .station⟩, ⟨0, .trig .start⟩]) := by decide

theorem witness_EndsTakeEffect :
    ((inRun .running).mp.canTake (.abort 0) = true ∧ (inRun .running).rc.runState = .running) ∧
    (let s := withStep edgeStep openRecord 100000 []
     s.rc.runState = .running ∧ s.rc.limitTime = some 100000 ∧ 100000 ≤ s.rc.timeBase) ∧
    (let s : State := { State.reset with rc := { Rc.reset with runState := .running, endRequests := [.allResolved] } }
     s.rc.runState = .running ∧ s.rc.endRequests = .allResolved :: []) := by decide

theorem witness_RefusedRunRequests :
    ((inRun .armed).mp.canTake (.arm 0) = true ∧ (inRun .armed).rc.runState = .armed) ∧
    (State.reset.mp.canTake (.arm 0) = true ∧ State.reset.rc.runState = .idle ∧
      State.reset.validate = some (none, .empty)) ∧
    State.reset.mp.canTake (.abort 0) = true ∧
    ({ State.reset with rc := { Rc.reset with endRequests := [.limit] } } : State).rc.endRequests = .limit :: [] := by
  decide

theorem witness_ArmTimeoutEndsTheRun :
    let s : State := { State.reset with
      rc := { Rc.reset with runState := .armed, timeBase := 6000000000 }
      ste := { Ste.reset with active := onePlan edgeStep, evals := Ste.reset.evals.set 0 (some StepEval.fresh) } }
    s.rc.runState = .armed ∧ s.rc.timeBase = s.rc.active.armTimeout * 100000 ∧ s.rc.startTime = none ∧
      s.ste.active[(0 : Fin 64)] = some edgeStep ∧ s.ste.evals[(0 : Fin 64)] = some StepEval.fresh ∧
      StepEval.fresh.state = .pending ∧ (inRun .running).rc.runState = .running := by decide

theorem witness_FirstFailingStep :
    let t : Ste := { Ste.reset with
      active := onePlan edgeStep, evals := Ste.reset.evals.set 0 (some { openRecord with state := .missed }), order := [0] }
    t.firstFail .fail = some (0, .missed) ∧ (0 : Fin 64) ∈ t.order ∧ t.firstFail .pass = none := by decide

theorem witness_RunQueryReports : State.reset.mp.canTake (.runQuery 0) = true ∧ State.reset.rc.startTime = none ∧
    State.reset.rc.timeBase < 2 ^ 40 ∧ State.reset.rc.firstFail = none ∧ (inRun .ended).mp.canTake (.runQuery 9) = true ∧
    (withStep edgeStep openRecord 5 []).rc.startTime = some 0 ∧ 0 < 2 ^ 40 ∧ State.reset.rc = Rc.reset ∧
    State.reset.ste = Ste.reset := by decide

/-- RUNSET_PUT of an EDGE start on MC23 falling, with times that clamp at both ends, and one of an unknown kind. -/
theorem witness_RunSettingsArePutAndRead :
    (let b : Bytes := [1, 23, 1, 1] ++ le 4 0 ++ le 4 5000001
     b.length = 12 ∧ byteAt b 0 = 1 ∧ (byteAt b 1).toNat = 23 ∧ byteAt b 2 = 1 ∧ byteAt b 3 = 1 ∧
       State.reset.mp.canTake (.runsetPut 0 b) = true ∧
       after (fun t => t.rc.staged) (.runsetPut 0 b) State.reset = some ⟨.edge 23 .falling, true, 1, 5000000⟩) ∧
    (let b : Bytes := [3, 0, 0, 0] ++ le 4 1 ++ le 4 1
     b.length = 12 ∧ 2 < (byteAt b 0).toNat ∧ State.reset.mp.canTake (.runsetPut 0 b) = true) ∧
    State.reset.mp.canTake (.runsetGet 0 0) = true ∧ State.reset.mp.canTake (.runsetGet 0 1) = true ∧
    State.reset.mp.canTake (.runsetGet 0 2) = true := by decide

theorem witness_PlanIsPutReadAndWiped :
    (State.reset.mp.canTake (.planPut 0 63 1 edgeStep.enc) = true ∧ edgeStep.enc.length = 36 ∧
      edgeStep.windowMax ≤ 4000000000 ∧ edgeStep.count ≤ 255) ∧
    (let b := (edgeStep.enc.set 3 9).set 35 7
     b.length = 36 ∧ (∀ i < 36, edgeStep.unused i = false → byteAt b i = byteAt edgeStep.enc i) ∧ b ≠ edgeStep.enc ∧
       State.reset.mp.canTake (.planPut 0 63 1 b) = true ∧
       after (fun t => t.ste.staged[(63 : Fin 64)]) (.planPut 0 63 1 b) State.reset = some (some edgeStep)) ∧
    State.reset.mp.canTake (.planPut 0 63 0 []) = true ∧ State.reset.mp.canTake (.planPut 0 64 0 []) = true ∧
    (let b := (edgeStep.enc.set 0 3)
     b.length = 36 ∧ 2 < (byteAt b 0).toNat ∧ State.reset.mp.canTake (.planPut 0 0 1 b) = true) ∧
    State.reset.mp.canTake (.planGet 0 63 1) = true ∧ State.reset.mp.canTake (.planGet 0 64 0) = true ∧
    State.reset.mp.canTake (.planWipe 0) = true := by decide

/-- The event of the step's edge. -/
def edgeEvent (time : Nat) : Event := ⟨time, .edge 0 .rising⟩

theorem witness_EventDeliveries :
    (State.reset.ste.events.length ≤ 0) ∧
    (let s := { State.reset with ste := { Ste.reset with events := [edgeEvent 5] } }
     s.ste.events[0]? = some (edgeEvent 5) ∧ s.rc.runState = .idle) ∧
    (let s := { inRun .armed with ste := { Ste.reset with lookback := List.replicate 64 (edgeEvent 1), events := [edgeEvent 5] } }
     s.rc.runState = .armed ∧ s.rc.active.source = .station ∧ 64 ≤ s.ste.lookback.length) ∧
    (let s : State := { State.reset with
       rc := { Rc.reset with runState := .armed, active := { RunSettings.reset with source := .edge 0 .rising } }
       ste := { Ste.reset with events := [edgeEvent 5] } }
     s.rc.runState = .armed ∧ s.ste.events[0]? = some (edgeEvent 5) ∧ s.rc.active.source = .edge 0 .rising) ∧
    (withStep edgeStep openRecord 1500 [edgeEvent 1500]).rc.runState = .running := by decide

/-- R84: with the acceptance taken before the limit, its event is delivered before the run ends: the step is MATCHED and the
verdict PASS. -/
theorem test_event_before_end :
    after (fun t => ((t.ste.evals[(0 : Fin 64)]).map StepEval.state, t.rc.verdict)) .limitExpiry
      (withStep edgeStep openRecord 100000 [edgeEvent 1500]) = some (some .matched, some .pass) := by decide

/-- A step whose actions leave a DRIVE, a MARK and a TRIG record, resolved by an event that comes with the limit expiry. -/
def endingPass : State :=
  let s := withStep { edgeStep with actions := [.drive 0 .low, .mark 5, .trigger] } openRecord 100000 [edgeEvent 1500]
  { s with
    ts := { Ts.reset with active := { StoreSettings.reset with mode := .window } }
    lau := State.reset.lau.set 0 { Lau.reset with present := true } }

/-- R15, R32, R47: the end taken before any record of the pass in hand, after its DRIVE record, and after all of them: the
step is MATCHED and the channel driven in each case, but DRIVE and TRIG records after the end are not accepted. -/
theorem test_end_in_pass :
    let seen := fun c => let t := endingPass.settleEnd c
      (t.ts.input.map fun w : Waiting => w.record.body.kind, t.ts.fired, t.dc[(0 : Fin 8)].mode,
        (t.ste.evals[(0 : Fin 64)]).map StepEval.state)
    seen 0 = ([10, 8], false, .low, some .matched) ∧ seen 2 = ([7, 10, 8], false, .low, some .matched) ∧
    seen 8 = ([7, 10, 11, 8], true, .low, some .matched) := by decide

/-- R37: a GUARD step whose decision time is reached at the limit: decided by a pass in hand where `c` is odd, else
CANCELLED by the end work. -/
theorem test_decision_in_pass :
    let s : State := { withStep { edgeStep with kind := .guard, actions := [.drive 0 .low] } openRecord 100000 [] with
      lau := State.reset.lau.set 0 { Lau.reset with present := true } }
    let seen := fun c => let t := (s.settleEnd c).endRun .limit
      ((t.ts.input.map fun w : Waiting => w.record.body.kind), (t.ste.evals[(0 : Fin 64)]).map StepEval.state, t.rc.verdict)
    seen 0 = ([8, 1], some .cancelled, some .fail) ∧ seen 1 = ([8, 1], some .held, some .pass) ∧
    seen 3 = ([7, 8, 1], some .held, some .pass) := by decide

/-- R15, R129, R131: an end completes a waiting step job CANCELLED and leaves the host job behind it. -/
theorem test_end_cancels_step_jobs :
    let body : JobBody := ⟨[.tapReset], none⟩
    let s : State := { inRun .running with sc := { Sc.reset with queue := [⟨.step 2, body, true⟩, ⟨.host 3, body, false⟩] } }
    let t := s.endRun .abort
    t.sc.queue = [⟨.host 3, body, false⟩] ∧ t.sc.results.map (fun r => (r.cls, r.outcome)) = [(.step 2, .cancelled)] ∧
    t.fu.flags.getLsbD 12 = true ∧ t.ste.events = [⟨0, .scan 2 .cancelled⟩] := by decide

/-- R23, R46, R49, 4.10: the actions' records, TRIG first of those the TRIGGER action and what follows it leave, then the STEP
record; the end request is that of END_RUN. -/
theorem test_actions :
    let e := { edgeStep with actions := [.mark 5, .trigger, .endRun] }
    let s := withStep e openRecord 1500 [edgeEvent 1500]
    let s := { s with ts := { Ts.reset with active := { StoreSettings.reset with mode := .window } } }
    after (fun t => (t.rc.endRequests, t.ste.order, t.ts.input.map fun w : Waiting => w.record.body.kind)) (.eventDelivery 0) s =
      some ([.endAction], [0], [10, 11, 8]) ∧
    after (fun t => [0, 1, 2].map fun k => t.ts.mayTake t.clock k) (.eventDelivery 0) s = some [true, true, false] := by decide

/-- A matching event at lo and at hi, one before lo and one after hi; a GUARD step; and a step that counts to 2. -/
theorem witness_EventsAreJudged :
    let s := fun e time => withStep e openRecord 2500 [edgeEvent time]
    let judged := fun e time => ((after (fun t => t.ste.evals[(0 : Fin 64)]) (.eventDelivery 0) (s e time)).join).map StepEval.state
    ((s edgeStep 1000).rc.runState = .running ∧ (s edgeStep 1000).ste.events[0]? = some (edgeEvent 1000) ∧
      (s edgeStep 1000).ste.active[(0 : Fin 64)] = some edgeStep ∧
      (s edgeStep 1000).ste.evals[(0 : Fin 64)] = some openRecord ∧ openRecord.state = .opened ∧
      openRecord.lo = some 1000 ∧ openRecord.hi = some 2000 ∧ edgeStep.cond.met (edgeEvent 1000).body = true) ∧
    judged edgeStep 1000 = some .matched ∧ judged edgeStep 2000 = some .matched ∧ judged edgeStep 999 = some .early ∧
    judged edgeStep 2001 = some .opened ∧ judged { edgeStep with earlyFails := false } 999 = some .opened ∧
    judged { edgeStep with kind := .guard } 2000 = some .violated ∧
    judged { edgeStep with kind := .guard } 999 = some .opened ∧ judged { edgeStep with count := 2 } 1500 = some .opened := by
  decide

/-- The step of `withStep` is the plan's only one: no other is OPEN, and none is anchored to it. -/
theorem witness_EventsAreJudged_alone (i : Fin 64) (e' : StepEntry) (v' : StepEval)
    (h : (withStep edgeStep openRecord 1500 [edgeEvent 1500]).ste.active[i] = some e')
    (hv : (withStep edgeStep openRecord 1500 [edgeEvent 1500]).ste.evals[i] = some v') :
    (v'.state = .opened → i ≠ 0 → e'.cond.met (edgeEvent 1500).body = false) ∧
      (v'.state = .pending → e'.anchor ≠ .step 0) := by
  have h0 : i = 0 := by
    by_contra n
    have : ¬(0 = i.val) := fun q => n (Fin.ext q.symm)
    simp [withStep, onePlan, Plan.reset, this] at h
  subst h0
  cases h; cases hv
  exact ⟨fun _ n => absurd rfl n, fun q => absurd q (by decide)⟩

/-- Each kind at its decision time, and a CHECK that passes and fails. -/
theorem witness_DecisionsAreTaken :
    let s := fun e now => withStep e openRecord now []
    let decided := fun e => ((after (fun t => t.ste.evals[(0 : Fin 64)]) .decisionTime (s e 2000)).join).map StepEval.state
    ((s edgeStep 2000).rc.runState = .running ∧ openRecord.decision = some 2000 ∧ (s edgeStep 1999).rc.timeBase < 2000) ∧
    decided edgeStep = some .missed ∧ decided { edgeStep with kind := .guard } = some .held ∧
    decided { edgeStep with kind := .check, cond := .level 0 false } = some .matched ∧
    decided { edgeStep with kind := .check, cond := .level 0 true } = some .failed := by decide

/-- A step anchored to START, PENDING in ARMED: its window open, run out, met by a look-back entry, and a CHECK. -/
theorem witness_StepsOpenAtTheirAnchor :
    let s := fun (e : StepEntry) (lookback : List Event) => { State.reset with
      rc := { Rc.reset with runState := .armed, timeBase := 500 }
      ste := { Ste.reset with active := onePlan e, evals := Ste.reset.evals.set 0 (some StepEval.fresh), lookback } }
    let opens := fun e l => ((after (fun t => t.ste.evals[(0 : Fin 64)]) (.start 0) (s e l)).join).map StepEval.state
    ((s edgeStep []).mp.canTake (.start 0) = true ∧ (s edgeStep []).rc.runState = .armed ∧
      (s edgeStep []).rc.active.source = .station ∧ StepEval.fresh.state = .pending ∧ edgeStep.anchor = .start) ∧
    opens edgeStep [] = some .opened ∧ opens { edgeStep with windowMax := 0 } [] = some .missed ∧
    opens edgeStep [edgeEvent 500] = some .matched ∧ opens edgeStep [edgeEvent 499] = some .opened ∧
    opens { edgeStep with count := 2 } [edgeEvent 500] = some .opened ∧
    opens { edgeStep with count := 2 } [edgeEvent 500, edgeEvent 501] = some .matched ∧
    opens { edgeStep with windowMin := 1, windowMax := 2, earlyFails := false } [edgeEvent 599, edgeEvent 700] = some .matched ∧
    opens { edgeStep with windowMin := 1, windowMax := 2 } [edgeEvent 599, edgeEvent 700] = some .early ∧
    opens { edgeStep with kind := .guard, windowMin := 1, windowMax := 2 } [edgeEvent 599, edgeEvent 600] = some .violated ∧
    opens { edgeStep with kind := .check, cond := .always } [] = some .matched ∧
    opens { edgeStep with kind := .check, cond := .always, windowMin := 1 } [] = some .opened ∧
    (let t : State := { State.reset with
       rc := { Rc.reset with runState := .running, timeBase := 1500, limitTime := some 100000 }
       ste := { Ste.reset with
         active := (onePlan edgeStep).set 1 (some { edgeStep with anchor := .step 0 })
         evals := (Ste.reset.evals.set 0 (some openRecord)).set 1 (some StepEval.fresh), events := [edgeEvent 1000] } }
     ((after (fun t => t.ste.evals[(1 : Fin 64)]) (.eventDelivery 0) t).join).map StepEval.anchorTime = some (some 1000)) := by
  decide

/-- RUNNING at 2,000 with step 0 at its decision time and step 1 anchored to it, an AWAIT step but for its window. -/
def chained (anchor : StepEntry) (windowMax : Nat) (lookback : List Event) : State := { State.reset with
  rc := { Rc.reset with runState := .running, timeBase := 2000, limitTime := some 100000 }
  ste := { Ste.reset with
    active := (onePlan anchor).set 1 (some { edgeStep with anchor := .step 0, windowMax })
    evals := (Ste.reset.evals.set 0 (some openRecord)).set 1 (some StepEval.fresh), lookback, evictionMark := some 1000 } }

/-- The state, window high bound and LOOKBACK with which step 1 of `chained` opens. -/
def openedBy (anchor : StepEntry) (windowMax : Nat) (lookback : List Event) : Option (StepState × Option Nat × Bool) :=
  (after (fun t => t.ste.evals[(1 : Fin 64)]) .decisionTime (chained anchor windowMax lookback)).join.map fun v =>
    (v.state, v.hi, v.lookback)

/-- A GUARD step HELD at hi 2,000, and a CHECK step MATCHED at lo 1,000, open the step anchored to them (R21, R43). -/
theorem witness_StepsOpenAtTheirAnchor_decision :
    let guard := { edgeStep with kind := .guard }
    let check := { edgeStep with kind := .check, cond := .always }
    (openRecord.state = .opened ∧ openRecord.lo = some 1000 ∧ openRecord.hi = some 2000 ∧ openRecord.decision = some 2000) ∧
    openedBy guard 100 [] = some (.opened, some 12000, false) ∧
    openedBy check 100 [edgeEvent 999] = some (.opened, some 11000, true) ∧
    openedBy check 0 [edgeEvent 1000] = some (.matched, some 1000, true) ∧
    openedBy check 0 [] = some (.missed, some 1000, true) := by
  decide

/-! ### The Trace Store -/

/-- A store RUNNING in a mode, with records kept and one waiting. -/
def store (m : StoreMode) (st : StoreState) (kept : List Stored) (occ : Nat) (lost : Nat) (r : Rec) : State :=
  { inRun .running with ts := { Ts.reset with
      state := st, active := { StoreSettings.reset with mode := m }, records := kept, occupancy := occ
      nextSeq := kept.length, lost, trigSeq := some 0
      input := [⟨r, .station, 0, false, false⟩] } }

/-- An EDGE record, of 2 units (12.5). -/
def edgeRecord : Rec := ⟨0, .edge 0 true false⟩

theorem witness_StoreIsSetAndReported :
    (let b : Bytes := [3, 0] ++ le 2 32001 ++ le 2 32769
     b.length = 6 ∧ byteAt b 0 = 3 ∧ State.reset.mp.canTake (.storeSet 0 b) = true ∧
       after (fun t => t.ts.staged) (.storeSet 0 b) State.reset = some ⟨.window, 32000, 32768⟩) ∧
    (let b : Bytes := [4, 0] ++ le 2 16 ++ le 2 0
     b.length = 6 ∧ 4 ≤ (byteAt b 0).toNat ∧ State.reset.mp.canTake (.storeSet 0 b) = true) ∧
    State.reset.mp.canTake (.storeQuery 0) = true ∧ State.reset.ts.records = [] ∧ State.reset.ts.trigSeq = none ∧
    State.reset.ts.nextSeq < 2 ^ 48 ∧
    (store .stop .accepting [⟨0, edgeRecord⟩] edgeRecord.units 0 edgeRecord).ts.records.head? = some ⟨0, edgeRecord⟩ := by decide

theorem witness_RecordsAreReadAndReleased :
    let s := store .stream .accepting [⟨4, edgeRecord⟩, ⟨5, edgeRecord⟩] (2 * edgeRecord.units) 0 edgeRecord
    s.mp.canTake (.fetch 0 3 1) = true ∧ s.ts.records.head? = some ⟨4, edgeRecord⟩ ∧ (3 : BitVec 48).toNat < 4 ∧
    (1 : BitVec 16) ≠ 0 ∧ ({ Ts.reset with nextSeq := 1 } : Ts).records = [] ∧
    (0 : BitVec 48).toNat < ({ Ts.reset with nextSeq := 1 } : Ts).nextSeq ∧
    s.mp.canTake (.release 0 4) = true ∧ s.ts.active.mode = .stream ∧ State.reset.ts.active.mode ≠ .stream := by decide

theorem witness_RecordsAreReadAndReleased_sound :
    Ts.Sound { Ts.reset with
      active := { StoreSettings.reset with mode := .stream }, records := [⟨4, edgeRecord⟩], occupancy := edgeRecord.units
      nextSeq := 5 } := by
  refine ⟨by unfold Ts.occupancyExact; decide, by decide, ?_⟩
  intro i h
  match i, h with
  | 0, _ => rfl

/-- A state in a run in STREAM mode, one loss counted, with a record and an EDGE record waiting and a MARK request in hand. -/
def pairDue (w : Waiting) : State :=
  { store .stream .accepting [] 0 1 edgeRecord with
    mp := { Mp.reset with inHand := some (0x25, 7) }
    ts := { (store .stream .accepting [] 0 1 edgeRecord).ts with
      input := [w, ⟨edgeRecord, .mc 0, 0, false, false⟩] } }

/-- The state after the first waiting record is taken. -/
def taken (s : State) : State :=
  match exec (.recordTake 0) s with
  | .next t => t
  | _ => s

/-- The state a tick later. -/
def tickOn (s : State) : State := { s with clock := s.clock + 1 }

/-- R52, R61: the GAP is accepted at one tick, nothing else at that tick, and its record at the next; then the count is 0. -/
theorem test_gap_then_record :
    let s := pairDue ⟨⟨9, .mark true []⟩, .run, 0, false, false⟩
    let see := fun t : State => (t.ts.records.map fun r => (r.seq, r.record.body.kind), t.ts.input.map fun w => w.record.time,
      t.ts.lost, t.ts.admitted)
    see (taken s) = ([(0, 12)], [9, 0], 1, true) ∧ taken (taken s) = taken s ∧
      see (taken (tickOn (taken s))) = ([(0, 12), (1, 10)], [0], 0, false) := by decide

/-- R52, R62: RUN ENDED too comes a tick after its GAP; the count restarts with the GAP. -/
theorem test_gap_then_run_ended :
    let s := store .stop .stopped [] 32762 1 ⟨0, .runEnded .station .abort .aborted none⟩
    let see := fun t : State => (t.ts.occupancy, t.ts.nextSeq, t.ts.lost, t.ts.input.length)
    see (taken s) = (32765, 1, 0, 1) ∧ taken (taken s) = taken s ∧ see (taken (tickOn (taken s))) = (32768, 2, 0, 0) := by
  decide

theorem witness_TriggersAndMarks :
    (let s := store .window .accepting [] 0 0 ⟨0, .runArmed .station⟩
     s.mp.canTake (.trigger 0) = true ∧ s.ts.active.mode = .window ∧ s.rc.runState = .running ∧ s.ts.fired = false) ∧
    (State.reset.mp.canTake (.trigger 0) = true ∧ State.reset.ts.active.mode ≠ .window) ∧
    (let l : Bytes := List.replicate 16 65
     l.length = 16 ∧ (inRun .armed).mp.canTake (.mark 0 l) = true ∧ State.reset.mp.canTake (.mark 0 l) = true ∧
       State.reset.rc.runState = .idle) ∧
    (let w : Waiting := ⟨⟨0, .mark false (List.replicate 16 65)⟩, .station, 0, false, true⟩
     let s : State := { inRun .running with
       mp := { Mp.reset with inHand := some (0x25, 7) }
       ts := { Ts.reset with input := [w, ⟨edgeRecord, .mc 0, 0, false, false⟩] } }
     s.ts.mayTake s.clock 0 = true ∧ s.ts.input[0]? = some w ∧ w.awaited = true ∧ s.mp.inHand = some (0x25, 7) ∧
       (∀ e ∈ s.ts.input.eraseIdx 0, e.awaited = false) ∧ s.ts.mayTake s.clock 1 = true ∧
       after (fun t => (t.ts.nextSeq, t.ts.input.length, t.mp.reply.isSome)) (.recordTake 0) s = some (1, 1, true)) ∧
    (let w : Waiting := ⟨⟨0, .mark false (List.replicate 16 65)⟩, .station, 0, false, true⟩
     let s : State := { store .stop .stopped [] 0 0 edgeRecord with
       mp := { Mp.reset with inHand := some (0x25, 7) }, ts := { (store .stop .stopped [] 0 0 edgeRecord).ts with input := [w] } }
     s.ts.mayTake s.clock 0 = true ∧ w.awaited = true ∧
       after (fun t => (t.ts.nextSeq, t.ts.lost, t.mp.reply.isSome)) (.recordTake 0) s = some (0, 1, true)) ∧
    (let s := pairDue ⟨⟨0, .mark false (List.replicate 16 65)⟩, .station, 0, false, true⟩
     s.ts.mayTake s.clock 0 = true ∧ s.mp.inHand = some (0x25, 7) ∧ s.ts.admitted = false ∧ s.ts.lost ≠ 0 ∧
       s.ts.active.mode = .stream ∧ (∀ w ∈ s.ts.input, s.ts.occupancy + w.record.units ≤ 32762) ∧
       after (fun t => (t.ts.nextSeq, t.ts.admitted, t.mp.inHand.isSome, t.mp.reply.isSome)) (.recordTake 0) s =
         some (1, true, true, false) ∧
       after (fun t => (t.ts.nextSeq, t.ts.admitted, t.mp.inHand.isSome, t.mp.reply.isSome)) (.recordTake 0)
         (tickOn (taken s)) = some (2, false, false, true)) := by decide

/-- A MARK record that a link reset leaves waiting answers no later MARK (R138; notes/assumptions/9.md). -/
theorem test_mark_after_link_reset :
    let s : State := { inRun .running with
      mp := { Mp.reset with inHand := some (0x25, 7) }
      ts := { Ts.reset with input := [⟨⟨0, .mark false []⟩, .station, 0, false, true⟩] } }
    after (fun t => (t.ts.input.map Waiting.awaited, t.mp.inHand)) (.linkReset false) s = some ([false], none) := by decide

/-- RUN ARMED, then a record, then TRIG two ticks later: RUN ARMED is taken, then TRIG, then the record. -/
theorem witness_RecordsAreTakenInStopAndRing :
    (let s := store .stop .accepting [] 0 0 edgeRecord
     s.ts.mayTake s.clock 0 = true ∧ s.ts.nextTake ≤ s.clock ∧ s.ts.input ≠ [] ∧
       s.ts.input[0]? = some ⟨edgeRecord, .station, 0, false, false⟩ ∧ s.ts.active.mode = .stop ∧ s.ts.state ≠ .stopped ∧
       s.ts.occupancy + edgeRecord.units ≤ 32762) ∧
    State.reset.ts.mayTake 0 0 = false ∧ (store .stop .accepting [] 0 0 edgeRecord).ts.admitted = false ∧
    (let u : Ts := { (store .stop .accepting [] 0 0 edgeRecord).ts with admitted := true }
     u.admitted = true ∧ u.mayTake 0 0 = true ∧ u.mayTake 0 1 = false) ∧
    32762 < (store .stop .accepting [] 32761 0 edgeRecord).ts.occupancy + edgeRecord.units ∧
    (store .stop .stopped [] 0 0 edgeRecord).ts.state = .stopped ∧
    (store .ring .accepting [] 0 0 edgeRecord).ts.active.mode = .ring ∧ edgeRecord.units ≤ 9 ∧
    (let a : Waiting := ⟨⟨0, .runArmed .station⟩, .run, 0, false, false⟩
     let e : Waiting := ⟨edgeRecord, .mc 0, 0, false, false⟩
     let g : Waiting := ⟨⟨0, .trig .station⟩, .trig, 2, false, false⟩
     [0, 1, 2].map (fun k => ({ Ts.reset with input := [a, e, g] } : Ts).mayTake 2 k) = [true, false, false] ∧
       [0, 1].map (fun k => ({ Ts.reset with input := [e, g] } : Ts).mayTake 2 k) = [false, true]) := by decide

/-- A store with no record is sound. -/
theorem witness_RecordsAreTakenInStopAndRing_sound : (store .ring .accepting [] 0 0 edgeRecord).ts.Sound := by
  refine ⟨by unfold Ts.occupancyExact; decide, by decide, ?_⟩
  intro i h
  exact absurd h (Nat.not_lt_zero _)

theorem witness_RecordsAreTakenInStreamAndAtTheEnd :
    let s := store .stream .accepting [] 32760 1 edgeRecord
    let z := store .stop .stopped [] 32762 1 ⟨0, .runEnded .station .abort .aborted none⟩
    (s.ts.mayTake s.clock 0 = true ∧ s.ts.admitted = false ∧ s.ts.active.mode = .stream ∧ s.ts.occupancy + edgeRecord.units ≤ 32762 ∧ s.ts.lost ≠ 0) ∧
    (store .stream .accepting [] 0 0 edgeRecord).ts.lost = 0 ∧
    32762 < (store .stream .accepting [] 32761 0 edgeRecord).ts.occupancy + edgeRecord.units ∧
    (z.ts.mayTake z.clock 0 = true ∧ z.ts.admitted = false ∧ z.ts.lost ≠ 0 ∧ z.ts.occupancy + 3 ≤ 32765) ∧
    (let p := tickOn (taken s)
     p.ts.mayTake p.clock 0 = true ∧ p.ts.admitted = true) ∧
    32765 < (store .stop .stopped [] 32763 1 edgeRecord).ts.occupancy + 3 := by decide

theorem witness_RecordsAreTakenInWindow :
    let s := fun st => store .window st [] 0 0 edgeRecord
    (∀ st ∈ [StoreState.accepting, .triggered, .stopped], (s st).ts.mayTake (s st).clock 0 = true ∧
      (s st).ts.admitted = false ∧ (s st).ts.active.mode = .window ∧ (s st).ts.state = st) ∧ edgeRecord.units ≤ 9 ∧
    (s .triggered).ts.trigSeq = some 0 ∧ (s .triggered).ts.post + edgeRecord.units < (s .triggered).ts.active.quota := by decide

/-! ### Banks, channels, monitors and the code port -/

/-- A state with the rail of a bank PRESENT, its threshold 64. -/
def powered (b : Fin 4) : State := State.reset.setLau b { Lau.reset with present := true, acq := none }

theorem witness_BanksAreSetAndQueried :
    (let r : Bytes := [0, 1, 50, 36, 64, 1, 65, 0] ++ le 4 99 ++ le 2 32768 ++ le 2 1
     r.length = 16 ∧ State.reset.mp.canTake (.bankSet 0 3 r) = true ∧ (byteAt r 3).toNat < (byteAt r 2).toNat ∧
       byteAt r 6 ≠ 0 ∧ field r 12 2 ≠ 0 ∧ field r 14 2 ≠ 0 ∧ byteAt r 0 = 0 ∧
       after (fun t => t.lau[(3 : Fin 4)].settings.interval) (.bankSet 0 3 r) State.reset = some 100) ∧
    (let r : Bytes := [1, 0, 50, 36, 200, 1, 1, 0] ++ le 4 1000 ++ le 2 1 ++ le 2 1
     byteAt r 0 = 1 ∧ after (fun t => t.lau[(0 : Fin 4)].present) (.bankSet 0 0 r) State.reset = some true) ∧
    (let r : Bytes := [0, 0, 36, 36, 0, 0, 1, 0] ++ le 4 1000 ++ le 2 1 ++ le 2 1
     r.length = 16 ∧ (byteAt r 2).toNat ≤ (byteAt r 3).toNat ∧ State.reset.mp.canTake (.bankSet 0 0 r) = true) ∧
    ((powered 1).mp.canTake (.acquire 0 1) = true ∧ (powered 1).lau[(1 : Fin 4)].acq = none) ∧
    State.reset.lau[(1 : Fin 4)].acq ≠ none ∧ State.reset.mp.canTake (.bankQuery 0 3) = true ∧
    State.reset.mp.canTake (.acquire 0 4) = true ∧ State.reset.mp.canTake (.bankQuery 0 4) = true ∧
    (let s : State := { powered 1 with clock := 100000 }
     s.lau[(1 : Fin 4)].settings.track = true ∧ s.lau[(1 : Fin 4)].intervalStart + 1000 * 100 ≤ s.clock ∧
       s.lau[(1 : Fin 4)].acq = none) := by decide

/-- An acquisition of bank A at its last tick, with result 50, the least that brings the rail up. -/
def ending : State := State.reset.setLau 0 { Lau.reset with acq := some { Acq.begin .requested BankSettings.reset with
  elapsed := 1112, result := 50 } }

theorem witness_AcquisitionsEnd :
    (∃ a, State.reset.lau[(0 : Fin 4)].acq = some a ∧ a.elapsed < a.s0 + 8 * (16 * a.factor + a.s1)) ∧
    (∃ a, ending.lau[(0 : Fin 4)].acq = some a ∧ a.s0 + 8 * (16 * a.factor + a.s1) ≤ a.elapsed) ∧
    after (fun t => t.lau[(0 : Fin 4)].present) (.acquisitionEnd 0) ending = some true ∧
    after (fun t => t.fu.flags.toNat) (.acquisitionEnd 0) ending = some (128 + 256) :=
  ⟨⟨_, rfl, by decide⟩, ⟨_, rfl, by decide⟩, by decide, by decide⟩

/-- 5.2: a reference at code 2's voltage, 28 mV, comes out as 1 or 2 by the noise at its last decision but one. -/
theorem witness_AcquisitionMeasures : 1 ≤ BankSettings.reset.factor ∧ min 255 ((28 - 1) / 14) = 1 ∧ min 255 (28 / 14) = 2 ∧
    (let a : Acq := { Acq.begin .track BankSettings.reset with elapsed := 200 + 7 * (16 * 4 + 50) + 16 * 4 - 1 }
     1 ≤ a.factor ∧ 7 < 8 ∧ a.elapsed = a.s0 + 7 * (16 * a.factor + a.s1) + 16 * a.factor - 1) := by decide

theorem witness_ChannelsAndMonitorsAreSetAndQueried :
    (let r : Bytes := [1, 3, 0] ++ le 4 65536
     r.length = 7 ∧ State.reset.mp.canTake (.chanSet 0 23 r) = true ∧ (byteAt r 0).toNat ≤ 1 ∧ (byteAt r 1).toNat ≤ 3 ∧
       State.reset.rc.runState = .idle ∧
       after (fun t => t.mc[(23 : Fin 24)].settings.debounce) (.chanSet 0 23 r) State.reset = some 65535) ∧
    (inRun .armed).mp.canTake (.chanSet 0 0 ([1, 3, 0] ++ le 4 0)) = true ∧
    (State.reset.mp.canTake (.chanSet 0 24 ([1, 3, 0] ++ le 4 0)) = true ∧ 24 ≤ (24 : Byte).toNat ∧
      4 ≤ (byteAt [1, 4, 0] 1).toNat) ∧
    State.reset.mp.canTake (.chanQuery 0) = true ∧
    (let r : Bytes := [1, 0, 23, 4] ++ le 2 1000 ++ le 2 1000 ++ le 2 99 ++ le 2 50001 ++ le 2 0
     r.length = 14 ∧ State.reset.mp.canTake (.rateSet 0 3 r) = true ∧ field r 4 2 ≤ field r 6 2 ∧ field r 10 2 ≠ 0 ∧
       byteAt r 2 = byte 23 ∧
       after (fun t => t.rm[(3 : Fin 4)].settings.stall) (.rateSet 0 3 r) State.reset = some 100) ∧
    (let r : Bytes := [1, 0, 23, 5] ++ le 2 0 ++ le 2 0 ++ le 2 100 ++ le 2 1 ++ le 2 0
     r.length = 14 ∧ 5 ≤ (byteAt r 3).toNat ∧ State.reset.mp.canTake (.rateSet 0 3 r) = true) ∧
    State.reset.mp.canTake (.rateQuery 0 3) = true ∧ State.reset.mp.canTake (.rateQuery 0 4) = true ∧
    4 ≤ (4 : Byte).toNat := by decide

/-- MC0 enabled on a PRESENT rail. -/
def channel (m : Mc) : State :=
  let s := powered 0
  { s with clock := 200, mc := s.mc.set 0 { m with settings := ⟨true, 1, true, false⟩ } }

theorem witness_ChannelEvents :
    (let s := channel Mc.reset
     s.mc[(0 : Fin 24)].settings.enabled = true ∧ s.lau[chanBank 0].present = true ∧ s.mc[(0 : Fin 24)].blanking = none ∧
       s.mc[(0 : Fin 24)].pending = none ∧ decide (s.lau[chanBank 0].threshold * 14 < 897) ≠ s.mc[(0 : Fin 24)].level ∧
       decide (s.lau[chanBank 0].threshold * 14 < 896) = s.mc[(0 : Fin 24)].level) ∧
    (let p : Transition := ⟨true, 100, false⟩
     let s := channel { Mc.reset with pending := some p }
     s.mc[(0 : Fin 24)].pending = some p ∧ p.t0 + s.mc[(0 : Fin 24)].settings.debounce * 100 ≤ s.clock ∧
       s.clock < 101 + s.mc[(0 : Fin 24)].settings.debounce * 100 ∧ s.mc[(0 : Fin 24)].settings.traceRising = true) ∧
    (let s := channel { Mc.reset with blanking := some 200 }
     s.mc[(0 : Fin 24)].blanking = some 200 ∧ 200 ≤ s.clock ∧ s.mc[(0 : Fin 24)].settings.enabled = true) ∧
    (let r : Rm := { Rm.reset with settings := { RateSettings.reset with enabled := true, mode := .clock }, last := some false }
     let s : State := { channel Mc.reset with rm := State.reset.rm.set 0 r }
     s.rm[(0 : Fin 4)].settings.channel = 0 ∧ s.rm[(0 : Fin 4)].last = some false ∧
       after (fun t => t.rm[(0 : Fin 4)].edges) (.rawInputChange (.mc 0) 897) s = some 1) := by decide

/-- RM0 enabled on MC0 in a mode, its last sample 1 and the input now 0. -/
def monitor (m : RateMode) (f : Rm → Rm) : State :=
  let s := powered 0
  { s with
    clock := 100000000
    rm := s.rm.set 0 (f { Rm.reset with settings := { RateSettings.reset with enabled := true, mode := m }, last := some true }) }

theorem witness_RateMonitorEvents :
    (let s := monitor .tach fun r => { r with revolution := some ⟨0, 1⟩ }
     let r := s.rm[(0 : Fin 4)]
     r.settings.enabled = true ∧ r.settings.mode = .tach ∧ s.lau[chanBank r.settings.channel].present = true ∧
       r.last = some true ∧ s.rawMc r.settings.channel = false ∧ r.revolution = some ⟨0, 1⟩ ∧ r.settings.ppr ≤ 1 + 1 ∧
       0 < s.clock) ∧
    (let r := (monitor .tach fun r => { r with revolution := some ⟨0, 0⟩ }).rm[(0 : Fin 4)]
     r.revolution = some ⟨0, 0⟩ ∧ 0 + 1 < r.settings.ppr) ∧
    (monitor .tach id).rm[(0 : Fin 4)].revolution = none ∧
    (let s := monitor .tach fun r => { r with stallFrom := some 0 }
     s.rm[(0 : Fin 4)].stallFrom = some 0 ∧ 0 + s.rm[(0 : Fin 4)].settings.stall * 100000 ≤ s.clock) ∧
    (let s := monitor .clock id
     s.rm[(0 : Fin 4)].settings.mode = .clock ∧ s.rm[(0 : Fin 4)].gateStart + 100000 ≤ s.clock ∧
       s.rm[(0 : Fin 4)].gateVoid = false) ∧
    (monitor .clock fun r => { r with gateVoid := true }).rm[(0 : Fin 4)].gateVoid = true ∧
    (let s := monitor .clock fun r => { r with gateStart := 99900001 }
     s.clock < s.rm[(0 : Fin 4)].gateStart + 100000) := by decide

theorem witness_CodePortIsSetAndRead :
    (let r : Bytes := [1, 1, 1, 4, 9, 8, 7, 6] ++ le 2 60001
     r.length = 10 ∧ State.reset.mp.canTake (.codeSet 0 r) = true ∧ (byteAt r 3).toNat ≤ 4 ∧ byteAt r 1 = 1 ∧
       State.reset.rc.runState = .idle ∧
       after (fun t => t.cdp.settings.foldWindow) (.codeSet 0 r) State.reset = some 60000) ∧
    (inRun .running).rc.runState = .running ∧ 5 ≤ (byteAt [1, 0, 1, 5] 3).toNat ∧
    State.reset.mp.canTake (.codeHistory 0 0) = true ∧ State.reset.mp.canTake (.codeHistoryClear 0) = true ∧
    State.reset.cdp.settings.ignoreList.length ≤ 4 ∧ State.reset.cdp.pending = none := by decide

/-- The code port RUNNING on a PRESENT rail with STB high after a low reference. -/
def strobed (f : Cdp → Cdp) : State :=
  let s := powered 3
  { s with
    rc := { Rc.reset with runState := .running, timeBase := 50 }, clock := 10000000
    pins := { Pins.zero with stb := 3300, data := Pins.zero.data.set 0 3300 }
    cdp := f { Cdp.reset with settings := { Cdp.reset.settings with enabled := true }, reference := some false } }

theorem witness_CodePortEvents :
    (let s := strobed id
     s.cdp.settings.enabled = true ∧ s.lau[(3 : Fin 4)].present = true ∧ s.cdp.blanking = none ∧ s.readStb = true ∧
       s.cdp.reference = some false ∧ s.live = true ∧ s.cdp.settings.trace = true ∧ s.readData = 1 ∧
       s.readData ∉ s.cdp.settings.ignoreList ∧ s.cdp.settings.foldWindow ≠ 0) ∧
    (let s := strobed fun c => { c with settings := { c.settings with ignoreList := [1] } }
     s.readData ∈ s.cdp.settings.ignoreList) ∧
    (let s := strobed fun c => { c with
       foldFrom := some 0, history := [⟨1, 65534⟩], pending := some ⟨1, 65534, 0, 9⟩ }
     s.cdp.foldFrom ≠ none ∧ s.cdp.history = ⟨1, 65534⟩ :: [] ∧ 65534 < 65535 ∧ s.cdp.pending = some ⟨1, 65534, 0, 9⟩ ∧
       0 + s.cdp.settings.foldWindow * 100000 ≤ s.clock) ∧
    (strobed fun c => { c with settings := { c.settings with foldWindow := 0 } }).cdp.settings.foldWindow = 0 ∧
    (let s := strobed fun c => { c with blanking := some 10000000 }
     s.cdp.blanking = some 10000000 ∧ 10000000 ≤ s.clock) ∧
    (strobed fun c => { c with reference := some true }).cdp.reference ≠ some false := by decide

/-! ### Consoles, matchers, drives and scans -/

/-- Console port CP1 enabled on a PRESENT rail, its line at a voltage. -/
def port (mv : Nat) (f : Cp → Cp) : State :=
  let s := powered 3
  { s with
    rc := { Rc.reset with runState := .running, timeBase := 9000 }, clock := 10000
    pins := { Pins.zero with rx := Pins.zero.rx.set 1 mv }
    cp := s.cp.set 1 (f { Cp.reset with settings := { Cp.reset.settings with enabled := true } }) }

theorem witness_ConsolePortsAreSetAndFed :
    (let r : Bytes := [1, 7, 2, 0, 1]
     r.length = 5 ∧ State.reset.mp.canTake (.consSet 0 1 r) = true ∧ byteAt r 1 = byte (7 : Fin 8).val ∧
       byteAt r 2 = 2 ∧ State.reset.rc.runState = .idle ∧
       after (fun t => t.cp[(1 : Fin 2)].settings.idleGap) (.consSet 0 1 r) State.reset = some 1) ∧
    (State.reset.mp.canTake (.consSet 0 2 [1, 0, 0, 1, 0]) = true ∧ 2 ≤ (2 : Byte).toNat) ∧
    (let b : Bytes := List.replicate 241 65
     b.length ≤ 255 ∧ 240 < b.length ∧ State.reset.mp.canTake (.consSend 0 0 b) = true) ∧
    (let s := port 3300 fun c => { c with queue := List.replicate 16 65 }
     let b : Bytes := List.replicate 240 66
     1 ≤ b.length ∧ b.length ≤ 240 ∧ s.mp.canTake (.consSend 0 1 b) = true ∧ s.cp[(1 : Fin 2)].settings.enabled = true ∧
       s.lau[portBank 1].present = true ∧ s.cp[(1 : Fin 2)].queue.length + b.length ≤ 256 ∧
       s.cp[(1 : Fin 2)].queue ++ b = 65 :: (List.replicate 15 65 ++ b) ∧ s.cp[(1 : Fin 2)].inFlight = none) ∧
    256 < (port 3300 fun c => { c with queue := List.replicate 17 65 }).cp[(1 : Fin 2)].queue.length + 240 ∧
    State.reset.cp[(0 : Fin 2)].settings.enabled = false ∧ State.reset.lau[portBank 0].present = false ∧
    State.reset.mp.canTake (.consQuery 0 1) = true ∧ State.reset.mp.canTake (.consQuery 0 2) = true := by decide

theorem witness_MatchersAreSetAndSearch :
    (let r : Bytes := [1, 1, 1, 32] ++ List.replicate 32 65
     r.length = 36 ∧ State.reset.mp.canTake (.matchSet 0 7 r) = true ∧ byteAt r 1 = byte (1 : Fin 2).val ∧
       1 ≤ (byteAt r 3).toNat ∧ (byteAt r 3).toNat ≤ 32 ∧ State.reset.rc.runState = .idle ∧
       after (fun t => t.tm[(7 : Fin 8)].settings.pattern.length) (.matchSet 0 7 r) State.reset = some 32) ∧
    (let r : Bytes := [1, 1, 1, 33] ++ List.replicate 32 65
     r.length = 36 ∧ 33 ≤ (byteAt r 3).toNat ∧ State.reset.mp.canTake (.matchSet 0 7 r) = true) ∧
    State.reset.mp.canTake (.matchQuery 0 7) = true ∧ State.reset.mp.canTake (.matchQuery 0 8) = true ∧
    (let r : MatchSettings := { enabled := true, port := 0, caseInsensitive := true, pattern := [0x61, 0x61, 0x62] }
     let progress := fun bytes : Bytes =>
       (bytes.foldl (fun t b => { t with progress := t.advance b }) ({ settings := r, progress := 0 } : Tm)).progress
     r.pattern ≠ [] ∧ (∀ k < 4, progress (([0x41, 0x61, 0x61, 0x62] : Bytes).take k) < r.pattern.length) ∧
       progress [0x41, 0x61, 0x61, 0x62] = 3) := by decide

/-- The bits of a frame of value 0x41 before its stop bit, in 8N1. -/
def frame41 : List Bool := [false, true, false, false, false, false, false, true, false]

theorem witness_ReceiverEvents :
    (let s := port 3300 fun c => { c with rx := .waitIdle, highSince := some 1319 }
     s.cp[(1 : Fin 2)].settings.enabled = true ∧ s.lau[portBank 1].present = true ∧ s.cp[(1 : Fin 2)].rx = .waitIdle ∧
       s.cp[(1 : Fin 2)].highSince = some 1319 ∧ 10 * 100000000 ≤ (s.clock - 1319) * 115200 ∧
       (s.clock - 1320) * 115200 < 10 * 100000000) ∧
    (let s := port 896 fun c => { c with rx := .idle }
     s.cp[(1 : Fin 2)].rx = .idle ∧ s.readRx 1 = false) ∧
    (let s := port 897 fun c => { c with rx := .receiving, rxStart := 9565 }
     s.cp[(1 : Fin 2)].bits = [] ∧ 100000000 ≤ 2 * (s.clock - 9565) * 115200 ∧ s.readRx 1 = true) ∧
    (let s := port 3300 fun c => { c with rx := .receiving, rxStart := 1753, bits := frame41 }
     s.cp[(1 : Fin 2)].held = false ∧ s.cp[(1 : Fin 2)].bits.length = 9 ∧ 19 * 100000000 ≤ 2 * (s.clock - 1753) * 115200 ∧
       true ∈ s.cp[(1 : Fin 2)].bits ∧ (∀ i < 8, (0x41 : Byte).getLsbD i = frame41.getD (i + 1) false) ∧
       after (fun t => t.cp[(1 : Fin 2)].rxFragment.map Fragment.bytes) (.byteArrival 1) s = some (some [0x41])) ∧
    (let s := port 0 fun c => { c with rx := .receiving, rxStart := 1753, bits := List.replicate 9 false }
     s.readRx 1 = false ∧ (∀ b ∈ s.cp[(1 : Fin 2)].bits, b = false) ∧
       after (fun t => t.cp[(1 : Fin 2)].held) (.byteArrival 1) s = some true) ∧
    (let s := port 3300 fun c => { c with rx := .receiving, rxStart := 1500, held := true }
     s.cp[(1 : Fin 2)].held = true ∧ s.readRx 1 = true ∧ s.clock - 1500 - 8247 ≤ s.rc.timeBase) ∧
    (let s := port 0 fun c => { c with
       rx := .receiving, rxStart := 1319, held := true, steadyLow := true, rxFragment := some ⟨[1], 5, 5, false, false⟩ }
     s.readRx 1 = false ∧ s.cp[(1 : Fin 2)].steadyLow = true ∧ 10 * 100000000 < (s.clock - 1319) * 115200 ∧ s.live = true ∧
       s.cp[(1 : Fin 2)].rxFragment = some ⟨[1], 5, 5, false, false⟩) ∧
    (let s := port 0 fun c => { c with rx := .receiving, rxStart := 1319, held := true, steadyLow := true }
     after (fun t => t.cp[(1 : Fin 2)].steadyLow) (.rawInputChange (.rx 1) 3300) s = some false) ∧
    (let s := port 3300 fun c => { c with rx := .waitHigh }
     s.cp[(1 : Fin 2)].rx = .waitHigh ∧ s.readRx 1 = true) ∧
    (let c := { Cp.reset with rx := .receiving, rxStart := 9565 }
     c.rxStart ≤ 10000 ∧ (2 * c.bits.length + 1) * 100000000 ≤ 2 * (10000 - c.rxStart) * baudRate c.settings.baud) := by decide

theorem witness_TransmitterAndIdleGap :
    (let f : InFlight := ⟨0x41, 1753, false⟩
     let s := port 3300 fun c => { c with inFlight := some f, settings := { c.settings with echo := true } }
     s.cp[(1 : Fin 2)].inFlight = some f ∧ f.complete = false ∧ 19 * 100000000 ≤ 2 * (s.clock - f.started) * 115200 ∧
       2 * (s.clock - 1754) * 115200 < 19 * 100000000 ∧ s.cp[(1 : Fin 2)].settings.echo = true ∧ f.started ≤ s.clock) ∧
    (let f : InFlight := ⟨0x41, 1319, true⟩
     let s := port 3300 fun c => { c with inFlight := some f, queue := [0x42] }
     s.cp[(1 : Fin 2)].inFlight = some f ∧ f.complete = true ∧ 10 * 100000000 ≤ (s.clock - f.started) * 115200 ∧
       (s.clock - 1320) * 115200 < 10 * 100000000 ∧ s.cp[(1 : Fin 2)].queue = 0x42 :: [] ∧ s.txPin 1 = some true) ∧
    (let s : State := { port 3300 (fun c => { c with txFragment := some ⟨[1], 5, 5, false, false⟩ }) with
       rc := { Rc.reset with runState := .running, timeBase := 2000005 } }
     s.cp[(1 : Fin 2)].fragment .tx = some ⟨[1], 5, 5, false, false⟩ ∧ s.live = true ∧
       5 + s.cp[(1 : Fin 2)].settings.idleGap * 100000 ≤ s.rc.timeBase) ∧
    (let s := fun fmt => port 3300 fun c => { c with
       inFlight := some ⟨0x43, 2187, false⟩, settings := { c.settings with format := fmt } }
     9 * 100000000 ≤ (10000 - 2187) * 115200 ∧ (10000 - 2187) * 115200 < 10 * 100000000 ∧
       (s .f8E1).txPin 1 = some true ∧ (s .f8O1).txPin 1 = some false) ∧
    State.reset.cp[(0 : Fin 2)].settings.enabled = false := by decide

/-- DC7 permitted, on a rail PRESENT or ABSENT. -/
def drive (up : Bool) (f : Dc → Dc) : State :=
  let s := if up then powered 1 else State.reset
  { s with permitMask := 0x80, dc := s.dc.set 7 (f Dc.reset), rc := { Rc.reset with runState := .running } }

theorem witness_DriveSetActs :
    (let part : Bytes := [2, 0, 0, 0, 0, 0, 1, 0, 2, 0]
     part.length = 10 ∧ 2 ≤ (byteAt part 0).toNat ∧ State.reset.mp.canTake (.driveSetLow 0 0 part) = true) ∧
    (5 ≤ (5 : Byte).toNat ∧ (5 : Byte) ≠ 255 ∧ State.reset.mp.canTake (.driveSetNone 0 0 5 []) = true) ∧
    (let r : DrivePart := ⟨true, true, true, ⟨14, 1, 65535, true⟩⟩
     let s := drive false fun d => { d with railGated := false, mode := .high }
     r.values.prescaler ≤ 14 ∧ 1 ≤ r.values.a ∧ r.values.b ≤ 65535 ∧ s.permitMask.getLsbD 7 = true ∧
       s.mp.canTake (.driveSetNone 0 7 255 r.enc) = true ∧ s.lau[driveBank 7].present = false ∧
       after (fun t => t.dc[(7 : Fin 8)].mode) (.driveSetNone 0 7 255 r.enc) s = some .released ∧
       after (fun t => t.fu.flags.toNat) (.driveSetNone 0 7 255 r.enc) s = some 16384) ∧
    State.reset.permitMask.getLsbD 7 = false ∧
    ((drive false id).dc[(7 : Fin 8)].railGated = true ∧ (drive false id).lau[driveBank 7].present = false) ∧
    (drive true id).lau[driveBank 7].present = true ∧
    after (fun t => t.dc[(7 : Fin 8)].driveMode) (.driveSetStartPulse 0 7 []) (drive true id) = some .pulseRunning := by
  decide

theorem witness_PermitAndDriveQuery :
    (State.reset.mp.canTake (.permitSet 0 0) = true ∧ (inRun .armed).live = true ∧ State.reset.live = false ∧
      State.reset.permitLock = false ∧ ({ State.reset with permitLock := true } : State).permitLock = true) ∧
    (let s : State := { drive true (fun d => { d with mode := .low }) with rc := Rc.reset }
     (s.permitMask.getLsbD 7 && !(0x7F : Byte).getLsbD 7) = true ∧ s.dc[(7 : Fin 8)].mode ≠ .released ∧ s.live = false) ∧
    State.reset.mp.canTake (.permitLock 0) = true ∧ State.reset.mp.canTake (.driveQuery 0 7) = true ∧
    State.reset.mp.canTake (.driveQuery 0 8) = true ∧ State.reset.dc[(7 : Fin 8)].counter < 2 ^ 16 ∧
    State.reset.dc[(7 : Fin 8)].active.prescaler ≤ 14 := by decide

theorem witness_GeneratorRuns :
    (let d := { Dc.reset with mode := .pulse, running := true, active := ⟨0, 1, 2, true⟩, counter := 1 }
     d.running = true ∧ d.active.a ≤ d.counter ∧ d.counter < d.active.b) ∧
    (let s := drive true fun d => { d with mode := .pulse, running := true, active := ⟨0, 1, 2, false⟩, counter := 2 }
     s.dc[(7 : Fin 8)].running = true ∧ s.dc[(7 : Fin 8)].active.b ≤ s.dc[(7 : Fin 8)].counter ∧
       s.dc[(7 : Fin 8)].active.rep = false ∧ s.live = true ∧ s.dc[(7 : Fin 8)].mode = .pulse) ∧
    Dc.reset.running = false ∧ (⟨0, 1, 2, true⟩ : GenValues).rep = true ∧ State.reset.live = false := by decide

/-- A short sound job body. -/
def shortJob : JobBody := { ops := [.drScan 1 1, .idle 1], compare := some ⟨1, 1⟩ }

theorem witness_ScanRequests :
    (let b : Bytes := [1, 0, 1, 0]
     b.length = 4 ∧ State.reset.mp.canTake (.scanConfig 0 b) = true ∧ (byteAt b 2).toNat ≤ 1 ∧ (byteAt b 3).toNat ≤ 1 ∧
       after (fun t => t.sc.settings.divider) (.scanConfig 0 b) State.reset = some 2) ∧
    (2 ≤ (byteAt [10, 0, 2, 0] 2).toNat ∧ State.reset.mp.canTake (.scanConfig 0 [10, 0, 2, 0]) = true) ∧
    (1 ≤ shortJob.ops.length ∧ (shortJob.ops.map ScanOp.bits).sum ≤ 512 ∧ lastDrLength shortJob.ops = some 1 ∧
      State.reset.mp.canTake (.templatePut 0 7 1 shortJob.enc) = true) ∧
    (let b := (shortJob.enc.set 2 1).set 163 9
     b.length = 196 ∧ (∀ i < 196, shortJob.unused i = false → byteAt b i = byteAt shortJob.enc i) ∧ b ≠ shortJob.enc ∧
       State.reset.mp.canTake (.scanSubmit 0 9 b) = true ∧
       after (fun t => t.sc.staged[(7 : Fin 8)]) (.templatePut 0 7 1 b) State.reset = some (some shortJob)) ∧
    (let waits := fun s : State => { s with sc := { s.sc with queue := [⟨.host 3, shortJob, false⟩] } }
     (waits State.reset).sc.queue ≠ [] ∧ (waits State.reset).sc.job = none ∧
       (waits (powered 3)).lau[(3 : Fin 4)].present = true ∧
       after (fun t => t.sc.results.map ScanResult.cls) (.scanSubmit 0 9 shortJob.enc) (waits State.reset) =
         some [.host 9, .host 3] ∧
       after (fun t => (t.sc.job.map fun a => a.job.cls, t.sc.queue.map Job.cls)) (.scanSubmit 0 9 shortJob.enc)
         (waits (powered 3)) = some (some (.host 3), [.host 9])) ∧
    State.reset.mp.canTake (.templatePut 0 7 0 []) = true ∧
    (let b := shortJob.enc.set 0 0
     b.length = 196 ∧ (byteAt b 0).toNat = 0 ∧ State.reset.mp.canTake (.templatePut 0 7 1 b) = true ∧
       State.reset.mp.canTake (.scanSubmit 0 1 b) = true) ∧
    State.reset.mp.canTake (.templateGet 0 7 0) = true ∧ State.reset.mp.canTake (.templateGet 0 7 1) = true ∧
    State.reset.mp.canTake (.templateGet 0 8 0) = true ∧ State.reset.mp.canTake (.scanSubmit 0 9 shortJob.enc) = true ∧
    (State.reset.sc.queue = [] ∧ State.reset.sc.job = none ∧ State.reset.lau[(3 : Fin 4)].present = false ∧
      (powered 3).lau[(3 : Fin 4)].present = true) ∧
    (let s : State := { State.reset with sc := { Sc.reset with queue := List.replicate 16 ⟨.host 3, shortJob, false⟩ } }
     16 ≤ s.sc.queue.length ∧ s.mp.canTake (.scanCancel 0 3) = true ∧
       (s.sc.queue.filter fun j => decide (j.cls = .host 3)) ≠ [] ∧ s.sc.results.length ≤ 16) ∧
    (let s := { powered 3 with sc := { Sc.reset with
       job := some (Job.activate ⟨.host 3, shortJob, false⟩ Sc.reset 0), results := [⟨.step 7, .done, none, true, 0, 0⟩] } }
     s.sc.job.isSome = true ∧ s.sc.queue.length < 16 ∧ s.mp.canTake (.scanResult 0 1 7) = true ∧
       s.sc.results = [] ++ ⟨.step 7, .done, none, true, 0, 0⟩ :: [] ∧ s.mp.canTake (.scanQuery 0) = true ∧
       shortJob.enc.length = 196) ∧
    (State.reset.mp.canTake (.scanResult 0 1 8) = true ∧ 8 ≤ (8 : Byte).toNat) ∧ State.reset.sc.results = [] := by decide

/-- A job whose operation ends: its settings, its operations, the one in progress and the samples. -/
def scanning (ops : List ScanOp) (op : Option Nat) (bits : List Bool) (f : Active → Active) : State :=
  { powered 3 with
    clock := 10000
    sc := { Sc.reset with job := some (f {
      job := ⟨.host 3, { ops, compare := some ⟨1, 1⟩ }, false⟩, settings := ⟨2, true, false⟩, inserted := false, op
      opStart := 0, bits, capture := 0, captureLen := 0, cancel := false }) } }

theorem witness_ScanOperationsEnd :
    (let s := scanning [.drScan 1 1] (some 0) [true] id
     s.lau[(3 : Fin 4)].present = true ∧ 0 + (ScanOp.drScan 1 1).periods * (2 * 2) ≤ s.clock ∧
       (∀ i < 128, (1 : BitVec 128).getLsbD i = [true].getD i false) ∧
       after (fun t => t.sc.results.map ScanResult.outcome) .operationEnd s = some [.match_]) ∧
    after (fun t => t.sc.results.map ScanResult.outcome) .operationEnd (scanning [.drScan 1 1] (some 0) [false] id) =
      some [.mismatch] ∧
    after (fun t => t.sc.results.map ScanResult.reason) .operationEnd (scanning [.irScan 2 1] (some 0) [true, true] id) =
      some [some .irCheck] ∧
    after (fun t => t.sc.results.map ScanResult.outcome) .operationEnd
      (scanning [.idle 1] (some 0) [] fun a => { a with cancel := true }) = some [.cancelled] ∧
    after (fun t => t.sc.job.map Active.op) .operationEnd (scanning [.idle 1, .idle 2] none [] id) = some (some (some 0)) ∧
    (let s := { scanning [.irScan 2 2] (some 0) [] id with clock := 4 * 5 + 2 }
     s.scanPins = { released := false, tck := true, tms := true, tdi := true, trst := true }) ∧
    (scanning [.idle 65535] (some 0) [] id).clock < 0 + (ScanOp.idle 65535).periods * (2 * 2) ∧
    (powered 3).sc.job = none ∧ State.reset.lau[(3 : Fin 4)].present = false := by decide

end Sys2Proof.Tests
end

section
/-! RUN_QUERY (R17, 12.2, 12.3): where each field of its 79-byte report lies, and the reply that carries it. -/

namespace Sys2Proof.Machine

/-! ## Reading a layout of several parts -/

/-- A byte behind a first part of known length reads as the byte of what follows. -/
theorem byteAt_append_right {pre : Bytes} {off : Nat} (h : pre.length = off) (b : Bytes) (i : Nat) :
    byteAt (pre ++ b) (off + i) = byteAt b i := by
  subst h
  simp [byteAt, List.getElem?_append_right]

/-- A field that is the head of a layout reads the head alone. -/
theorem field_append_head {pre : Bytes} {n : Nat} (h : pre.length = n) (b : Bytes) :
    field (pre ++ b) 0 n = leNat pre := by
  simp only [field, List.drop_zero]
  rw [List.take_left' h]

/-! ## Fields that may hold "none" (12.2, 12.3) -/

/-- The end cause's byte is its number, or 255 for none. -/
theorem elim_causeCode (c : Option EndCause) : c.elim 255 EndCause.code =
    match c with
    | none => 255 | some .allResolved => 0 | some .limit => 1 | some .endAction => 2 | some .stopOnFail => 3
    | some .abort => 4 | some .armTimeout => 5 := by
  rcases c with _ | c
  · rfl
  · cases c <;> rfl

/-- The verdict's byte is its number, or 255 for none. -/
theorem elim_verdictCode (v : Option Verdict) : v.elim 255 Verdict.code =
    match v with
    | none => 255 | some .pass => 0 | some .fail => 1 | some .notStarted => 2 | some .aborted => 3 := by
  rcases v with _ | v
  · rfl
  · cases v <;> rfl

/-- The first failing step takes two bytes. -/
@[simp] theorem encFail_length (f : Option (Fin 64 × StepState)) : (encFail f).length = 2 := by
  cases f <;> rfl

/-- An entry of the plan in use reports its state, one not in use 255. -/
theorem Ste.stateCode_eq (t : Ste) (k : Fin 64) :
    t.stateCode k = match t.evals[k] with | none => 255 | some v => v.state.code := by
  unfold Ste.stateCode
  cases t.evals[k] <;> rfl

/-! ## The report's layout (12.3) -/

/-- The state bytes of the 64 entries, which close the report. -/
def Ste.stateCodes (t : Ste) : Bytes := (List.finRange 64).map t.stateCode

/-- There is one state byte for each entry of the plan. -/
@[simp] theorem Ste.stateCodes_length (t : Ste) : t.stateCodes.length = 64 := by
  simp [Ste.stateCodes]

/-- The state bytes stand in the order of the entries. -/
theorem Ste.byteAt_stateCodes (t : Ste) (k : Fin 64) : byteAt t.stateCodes k.val = t.stateCode k := by
  simp [byteAt, Ste.stateCodes]

/-- The report, one part after the other. -/
theorem State.runReport_eq (s : State) : s.runReport =
    [s.rc.runState.code] ++ (leOrNone 5 s.rc.startTime ++ (le 5 s.rc.timeBase ++
      ([s.rc.cause.elim 255 EndCause.code, s.rc.verdict.elim 255 Verdict.code] ++
        (encFail s.rc.firstFail ++ s.ste.stateCodes)))) := by
  simp [State.runReport, Ste.stateCodes]

/-- 12.3: the report has 79 bytes. -/
theorem State.runReport_length (s : State) : s.runReport.length = 79 := by
  simp [State.runReport_eq]

/-- What lies behind the run state and the two times, from offset 11 on. -/
theorem State.byteAt_runReport_tail (s : State) (i : Nat) : byteAt s.runReport (11 + i) =
    byteAt ([s.rc.cause.elim 255 EndCause.code, s.rc.verdict.elim 255 Verdict.code] ++
      (encFail s.rc.firstFail ++ s.ste.stateCodes)) i := by
  have h : ([s.rc.runState.code] ++ leOrNone 5 s.rc.startTime ++ le 5 s.rc.timeBase).length = 11 := by simp
  rw [State.runReport_eq]
  simpa only [List.append_assoc] using byteAt_append_right h _ i

/-- Offset 0: the run state. -/
theorem State.byteAt_runReport_runState (s : State) : byteAt s.runReport 0 = s.rc.runState.code := by
  rw [State.runReport_eq]; rfl

/-- Offset 1, five bytes: the start time T_s or none. -/
theorem State.field_runReport_startTime (s : State) :
    field s.runReport 1 5 = leNat (leOrNone 5 s.rc.startTime) := by
  rw [State.runReport_eq, field_append _ _ 1 5 rfl, field_append_head (leOrNone_length 5 _)]

/-- Offset 6, five bytes: the run time base. -/
theorem State.field_runReport_timeBase (s : State) : field s.runReport 6 5 = leNat (le 5 s.rc.timeBase) := by
  have h : ([s.rc.runState.code] ++ leOrNone 5 s.rc.startTime).length = 6 := by simp
  rw [State.runReport_eq, ← List.append_assoc, field_append _ _ 6 5 h, field_append_head (le_length 5 _)]

/-- Offset 11: the end cause. -/
theorem State.byteAt_runReport_cause (s : State) :
    byteAt s.runReport 11 = s.rc.cause.elim 255 EndCause.code := s.byteAt_runReport_tail 0

/-- Offset 12: the verdict. -/
theorem State.byteAt_runReport_verdict (s : State) :
    byteAt s.runReport 12 = s.rc.verdict.elim 255 Verdict.code := s.byteAt_runReport_tail 1

/-- Offsets 13 and 14: the first failing step and its outcome, or none in both. -/
theorem State.byteAt_runReport_firstFail (s : State) :
    byteAt s.runReport 13 = s.rc.firstFail.elim 255 (fun f => byte f.1.val) ∧
      byteAt s.runReport 14 = s.rc.firstFail.elim 255 (fun f => f.2.code) := by
  rw [s.byteAt_runReport_tail 2, s.byteAt_runReport_tail 3]
  cases s.rc.firstFail <;> exact ⟨rfl, rfl⟩

/-- From offset 15 on: the state of each entry of the active plan. -/
theorem State.byteAt_runReport_entry (s : State) (k : Fin 64) :
    byteAt s.runReport (15 + k.val) = s.ste.stateCode k := by
  have h : ([s.rc.cause.elim 255 EndCause.code, s.rc.verdict.elim 255 Verdict.code] ++
      encFail s.rc.firstFail).length = 4 := by simp
  calc byteAt s.runReport (15 + k.val)
      = byteAt s.runReport (11 + (4 + k.val)) := by rw [← Nat.add_assoc]
    _ = byteAt s.ste.stateCodes k.val := by
      rw [s.byteAt_runReport_tail, ← List.append_assoc, byteAt_append_right h]
    _ = s.ste.stateCode k := s.ste.byteAt_stateCodes k

/-- The report depends on the RC and the STE alone. -/
theorem State.runReport_congr {s t : State} (hrc : s.rc = t.rc) (hste : s.ste = t.ste) :
    s.runReport = t.runReport := by
  simp only [State.runReport, hrc, hste]

/-- R1, R17: the report of IDLE as the resets leave it. -/
theorem State.runReport_reset : State.reset.runReport =
    [0] ++ List.replicate 5 255 ++ List.replicate 5 0 ++ List.replicate 68 255 := by decide

/-! ## The reply (R17, R134) -/

/-- R17: a RUN_QUERY that can be taken is answered OK with the report, in every run state, and changes nothing else. -/
theorem exec_runQuery {s : State} {tag : Byte} (h : s.mp.canTake (.runQuery tag) = true) :
    exec (.runQuery tag) s = .next (s.answered 0x15 tag .ok s.runReport) :=
  congrArg Host.Outcome.next (takeRequest_unchanged h rfl rfl)

/-- Settles O31: the reply is the report, whose fields are read one by one by the layout of 12.3. -/
theorem runQueryReports : Obligations.RunQueryReports := by
  unfold Obligations.RunQueryReports
  intro s tag htake
  refine ⟨s.runReport, exec_runQuery htake, s.runReport_length, s.byteAt_runReport_runState, ?startTime, ?noStartTime,
    ?timeBase, s.byteAt_runReport_cause.trans (elim_causeCode _),
    s.byteAt_runReport_verdict.trans (elim_verdictCode _), ?firstFail, ?noFail, ?entries, ?reset⟩
  case startTime =>
    intro n hn hfits
    rw [s.field_runReport_startTime, hn]
    exact leNat_le 5 n hfits
  case noStartTime =>
    intro hn
    rw [s.field_runReport_startTime, hn]
    rfl
  case timeBase =>
    intro hfits
    rw [s.field_runReport_timeBase]
    exact leNat_le 5 _ hfits
  case firstFail =>
    intro k o hf
    obtain ⟨hstep, houtcome⟩ := s.byteAt_runReport_firstFail
    rw [hf] at hstep houtcome
    exact ⟨by rw [hstep]; exact byte_toNat k.val (by omega), houtcome⟩
  case noFail =>
    intro hf
    obtain ⟨hstep, houtcome⟩ := s.byteAt_runReport_firstFail
    rw [hf] at hstep houtcome
    exact ⟨hstep, houtcome⟩
  case entries =>
    intro k
    exact (s.byteAt_runReport_entry k).trans (s.ste.stateCode_eq k)
  case reset =>
    intro hrc hste
    exact (State.runReport_congr hrc hste).trans State.runReport_reset

end Sys2Proof.Machine
end

section
/-! FETCH and RELEASE (R66, R67): the oldest retained number, the four answers of FETCH, and the records that a RELEASE
of a sound store leaves. -/

namespace Sys2Proof.Machine

/-! ## FETCH (R66) -/

/-- R66: the oldest retained number is the first record's. -/
theorem Ts.oldest_of_head {t : Ts} {r : Stored} (h : t.records.head? = some r) : t.oldest = r.seq := by
  simp [Ts.oldest, h]

/-- R66: an empty store counts from the next number. -/
theorem Ts.oldest_of_empty {t : Ts} (h : t.records = []) : t.oldest = t.nextSeq := by
  simp [Ts.oldest, h]

/-- R66: a number is not gone where it is not below the first record's, or below the next number of an empty store. -/
theorem Ts.oldest_le {t : Ts} {n : Nat} (hempty : t.records = [] → t.nextSeq ≤ n)
    (hhead : ∀ r, t.records.head? = some r → r.seq ≤ n) : t.oldest ≤ n := by
  cases hrecs : t.records with
  | nil => rw [Ts.oldest_of_empty hrecs]; exact hempty hrecs
  | cons r rs =>
    have hr : t.records.head? = some r := by rw [hrecs]; rfl
    rw [Ts.oldest_of_head hr]
    exact hhead r hr

/-- R66: max 0 is out of range. -/
theorem fetchOwner_zero (start : Nat) (s : State) : fetchOwner start 0 s = refuse s .range := if_pos rfl

/-- R66: a number below the oldest is gone, and the reply tells the oldest. -/
theorem fetchOwner_gone {start max : Nat} {s : State} (hmax : max ≠ 0) (h : start < s.ts.oldest) :
    fetchOwner start max s = { state := s, status := .gone, body := le 6 s.ts.oldest } := by
  rw [fetchOwner, if_neg hmax, if_pos h]

/-- R66: the records at or above the number, those of the store that a FETCH asks for. -/
def Ts.recordsFrom (t : Ts) (start : Nat) : List Stored := t.records.filter fun r => decide (start ≤ r.seq)

/-- R66: the records that a FETCH returns. -/
def Ts.fetched (t : Ts) (start max : Nat) : List Stored := takeFitting (min max 1016) (t.recordsFrom start)

/-- R66: any other number is answered with the count and the bytes of the records that fit. -/
theorem fetchOwner_read {start max : Nat} {s : State} (hmax : max ≠ 0) (h : s.ts.oldest ≤ start) :
    fetchOwner start max s =
      okay s (le 2 (s.ts.fetched start max).length ++ (s.ts.fetched start max).flatMap Stored.bytes) := by
  rw [fetchOwner, if_neg hmax, if_neg (Nat.not_lt.2 h)]
  rfl

/-- The unit count of a reply's records in bytes (R51). -/
theorem sum_bytes_eq_unitsOf (rs : List Stored) : (rs.map fun r : Stored => 8 * r.record.units).sum = 8 * unitsOf rs :=
  List.sum_map_mul_left rs _ 8

section
variable {s : State} {tag : Byte} {start : BitVec 48} {max : BitVec 16}

/-- R66: a FETCH with max 0 is refused. -/
theorem exec_fetch_zero (htake : s.mp.canTake (.fetch tag start 0) = true) :
    exec (.fetch tag start 0) s = .next (s.answered 0x22 tag .range []) :=
  congrArg Host.Outcome.next (takeRequest_unchanged htake rfl (fetchOwner_zero _ _))

/-- R66: a FETCH below the oldest number is answered GONE with it. -/
theorem exec_fetch_gone (htake : s.mp.canTake (.fetch tag start max) = true) (hmax : max ≠ 0)
    (h : start.toNat < s.ts.oldest) :
    exec (.fetch tag start max) s = .next (s.answered 0x22 tag .gone (le 6 s.ts.oldest)) :=
  congrArg Host.Outcome.next (takeRequest_unchanged htake rfl (fetchOwner_gone (BitVec.toNat_ne.1 hmax) h))

/-- R66: a FETCH from the oldest number on is answered with the records that fit. -/
theorem exec_fetch_read (htake : s.mp.canTake (.fetch tag start max) = true) (hmax : max ≠ 0)
    (h : s.ts.oldest ≤ start.toNat) :
    exec (.fetch tag start max) s = .next (s.answered 0x22 tag .ok
      (le 2 (s.ts.fetched start.toNat max.toNat).length ++
        (s.ts.fetched start.toNat max.toNat).flatMap Stored.bytes)) :=
  congrArg Host.Outcome.next (takeRequest_unchanged htake rfl (fetchOwner_read (BitVec.toNat_ne.1 hmax) h))

end

/-! ## RELEASE (R67) -/

/-- R53: the retained numbers ascend. -/
theorem Ts.Sound.ascending {t : Ts} (h : t.Sound) : t.records.Pairwise fun a b => a.seq < b.seq := by
  obtain ⟨-, -, hseq⟩ := h
  refine List.pairwise_iff_getElem.2 fun i j hi hj hij => ?_
  rw [hseq i hi, hseq j hj]
  omega

/-- In an ascending list whose first part lies at or below a number and whose second part begins above it, the second part
is what lies above the number. -/
theorem filter_above_append {n : Nat} {gone kept : List Stored}
    (hasc : (gone ++ kept).Pairwise fun a b => a.seq < b.seq) (hgone : ∀ r ∈ gone, r.seq ≤ n)
    (hhead : ∀ r, kept.head? = some r → n < r.seq) :
    (gone ++ kept).filter (fun r => decide (n < r.seq)) = kept := by
  have hkept : ∀ r ∈ kept, n < r.seq := by
    obtain ⟨-, hasc', -⟩ := List.pairwise_append.1 hasc
    cases kept with
    | nil => simp
    | cons k ks =>
      have hk : n < k.seq := hhead k rfl
      exact List.forall_mem_cons.2 ⟨hk, fun r hr => hk.trans (List.rel_of_pairwise_cons hasc' hr)⟩
  rw [List.filter_append, List.filter_eq_nil_iff.2 (by simpa using hgone),
    List.filter_eq_self.2 (by simpa using hkept), List.nil_append]

/-- The store without its records at or below a number (R67). -/
def Ts.keptAbove (t : Ts) (n : Nat) : Ts :=
  { t with
    records := t.records.filter fun r => decide (n < r.seq)
    occupancy := unitsOf (t.records.filter fun r => decide (n < r.seq)) }

/-- R67: in a sound store a release keeps exactly the records above its number, and their units. -/
theorem releaseUpTo_of_sound {t : Ts} (h : t.Sound) (n : Nat) :
    releaseUpTo n t.records t.occupancy = ((t.keptAbove n).records, (t.keptAbove n).occupancy) := by
  obtain ⟨gone, happ, hgone, hhead, hunits⟩ := releaseUpTo_spec n t.records t.occupancy h.1
  generalize releaseUpTo n t.records t.occupancy = left at happ hhead hunits ⊢
  have hkept : (t.keptAbove n).records = left.1 := by
    rw [Ts.keptAbove, happ]
    exact filter_above_append (happ ▸ h.ascending) hgone hhead
  exact Prod.ext hkept.symm (hunits.trans (congrArg unitsOf hkept.symm))

/-- R67: in STREAM the owner of a sound store leaves the records above the number. -/
theorem releaseOwner_stream {s : State} {n : Nat} (hmode : s.ts.active.mode = .stream) (hsound : s.ts.Sound) :
    releaseOwner n s = okay (s.setTs (s.ts.keptAbove n)) [] := by
  rw [releaseOwner, if_pos hmode, releaseUpTo_of_sound hsound]
  rfl

/-- R67: in the other modes a RELEASE is refused. -/
theorem releaseOwner_refused {s : State} {n : Nat} (h : s.ts.active.mode ≠ .stream) :
    releaseOwner n s = refuse s .state := if_neg h

section
variable {s : State} {tag : Byte} {seq : BitVec 48}

/-- R67: a RELEASE in STREAM of a sound store leaves the records above its number. -/
theorem exec_release_stream (htake : s.mp.canTake (.release tag seq) = true) (hmode : s.ts.active.mode = .stream)
    (hsound : s.ts.Sound) :
    exec (.release tag seq) s = .next ({ s with ts := s.ts.keptAbove seq.toNat }.answered 0x23 tag .ok []) :=
  congrArg Host.Outcome.next
    (takeRequest_quiet htake rfl rfl rfl (releaseOwner_stream (s := { s with mp := s.mp.pop }) hmode hsound))

/-- R67: a RELEASE in another mode is answered STATE. -/
theorem exec_release_refused (htake : s.mp.canTake (.release tag seq) = true) (hmode : s.ts.active.mode ≠ .stream) :
    exec (.release tag seq) s = .next (s.answered 0x23 tag .state []) :=
  congrArg Host.Outcome.next (takeRequest_unchanged htake rfl (releaseOwner_refused hmode))

end

/-- Settles O39: the cases of FETCH are those of `fetchOwner`, with `takeFitting_spec` for the run of records; those of
RELEASE rest on the ascending numbers of a sound store. -/
theorem recordsAreReadAndReleased : Obligations.RecordsAreReadAndReleased := by
  unfold Obligations.RecordsAreReadAndReleased
  refine fun s tag => ⟨fun start max htake => ⟨?zero, ?goneHead, ?goneEmpty, ?read⟩,
    fun seq htake => ⟨exec_release_stream htake, exec_release_refused htake⟩⟩
  case zero =>
    rintro rfl
    exact exec_fetch_zero htake
  case goneHead =>
    intro hmax r hr hlt
    rw [← Ts.oldest_of_head hr] at hlt ⊢
    exact exec_fetch_gone htake hmax hlt
  case goneEmpty =>
    intro hmax hempty hlt
    rw [← Ts.oldest_of_empty hempty] at hlt ⊢
    exact exec_fetch_gone htake hmax hlt
  case read =>
    intro hmax hempty hhead
    obtain ⟨rest, happ, hfits, hlongest⟩ := takeFitting_spec (min max.toNat 1016) (s.ts.recordsFrom start.toNat)
    refine ⟨s.ts.fetched start.toNat max.toNat, rest, happ,
      exec_fetch_read htake hmax (Ts.oldest_le hempty hhead), ?_⟩
    rw [sum_bytes_eq_unitsOf]
    exact ⟨hfits, hlongest⟩

end Sys2Proof.Machine
end

section
/-! What the part's own work is made of, said once: the elementary changes of the state (`Work`), each with the condition
under which it is made. Every invariant is proved of the elementary changes, and every operation is shown to be a chain of
them. -/

namespace Sys2Proof.Machine

open Relation

/-! ## The elementary changes -/

/-- R51, R52, R62: a record that may reach the TS in a run: of at most 9 units, not RUN ENDED, and awaited by no request. -/
structure Waiting.Ordinary (w : Waiting) : Prop where
  size : w.record.units ≤ 9
  running : ¬w.record.closesRun
  unawaited : w.awaited = false

/-- R120, R121: the conditions of a safe drive channel, said of a channel `d` put in the place of channel `c`. -/
def State.channelSafe (s : State) (c : Fin 8) (d : Dc) : Prop :=
  (d.railGated = true → s.lau[driveBank c].present = false → d.mode = .released) ∧
    (s.permitMask.getLsbD c.val = false → d.mode = .released) ∧ d.generatorSound

/-- What elementary changes may touch beside the rest: the rail state of a bank, the evaluation records of steps; and
whether they may take away what was there, a flag that is set, a record or an event that waits. -/
structure Scope where
  rails : Bool
  evals : Bool
  takes : Bool

/-- The scope of the work outside an evaluation of steps that moves no rail. -/
def Scope.plain : Scope := { rails := false, evals := false, takes := true }

/-- The scope of an evaluation of steps. -/
def Scope.evaluation : Scope := { rails := false, evals := true, takes := false }

/-- The scope of a bank's work. -/
def Scope.bank : Scope := { rails := true, evals := false, takes := false }

/-- The scope of the delivery of events. -/
def Scope.delivery : Scope := { rails := false, evals := true, takes := true }

/-- No flag is cleared. -/
def Fu.Kept (u v : Fu) : Prop := ∀ n, u.flags.getLsbD n = true → v.flags.getLsbD n = true

theorem Fu.Kept.refl (u : Fu) : u.Kept u := fun _ h => h

theorem Fu.Kept.trans {u v w : Fu} (h : u.Kept v) (k : v.Kept w) : u.Kept w := fun n hn => k n (h n hn)

/-- One elementary change of the part's work, within a scope. -/
inductive Work (x : Scope) : State → State → Prop
  | flags (s : State) (u : Fu) (h : s.fu.Sound → u.Sound) (hf : x.takes = true ∨ s.fu.Kept u) : Work x s { s with fu := u }
  | port (s : State) (m : Mp) (hq : s.mp.fitsQueue → m.fitsQueue) (hi : m.inHand = s.mp.inHand) :
      Work x s { s with mp := m }
  | run (s : State) (r : Rc) (h : r.runState.live = s.rc.runState.live) : Work x s (s.setRc r)
  | steps (s : State) (e : Ste) (hp : e.active = s.ste.active) (hl : s.ste.fitsLookback → e.fitsLookback)
      (he : x.evals = true ∨ e.evals = s.ste.evals) (hv : x.takes = true ∨ s.ste.events <+: e.events) :
      Work x s (s.setSte e)
  | record (s : State) (w : Waiting) (hl : s.live = true) (hw : w.Ordinary) : Work x s (s.enqueue w)
  | trigger (s : State) (fired : Bool) : Work x s (s.setTs { s.ts with fired })
  | text (s : State) (p : Fin 2) (d : TextDir) (w : Waiting) (hl : s.live = true)
      (hw : (∀ q : Fin 2, s.cp[q].fragmentsSound) → w.Ordinary) :
      Work x s ((s.setCp p (s.cp[p].setFragment d none)).enqueue w)
  | bank (s : State) (b : Fin 4) (l : Lau) (h : x.rails = true ∨ l.present = s.lau[b].present) : Work x s (s.setLau b l)
  | channel (s : State) (c : Fin 24) (m : Mc) : Work x s (s.setMc c m)
  | monitor (s : State) (m : Fin 4) (r : Rm) : Work x s (s.setRm m r)
  | code (s : State) (c : Cdp) (hh : s.cdp.historySound → c.historySound)
      (hr : s.cdp.historySound → s.codeRecordSound → (s.setCdp c).codeRecordSound) : Work x s (s.setCdp c)
  | console (s : State) (p : Fin 2) (c : Cp) (hf : s.cp[p].fragmentsSound → c.fragmentsSound)
      (hq : s.cp[p].fitsTransmit → c.fitsTransmit) : Work x s (s.setCp p c)
  | matcher (s : State) (m : Fin 8) (t : Tm) (h : s.tm[m].progressSound → t.progressSound) : Work x s (s.setTm m t)
  | drive (s : State) (c : Fin 8) (d : Dc) (h : s.DrivesSafe → s.channelSafe c d) : Work x s (s.setDc c d)
  | scan (s : State) (c : Sc) (hf : s.sc.fits → c.fits) (ht : s.sc.restsIdle → c.restsIdle) : Work x s (s.setSc c)
  | pins (s : State) (p : Pins) : Work x s { s with pins := p }
  | lock (s : State) (l : Bool) : Work x s { s with permitLock := l }
  | store (s : State) (u : Fu) (t : Ts) (m : Mp) (hx : x.takes = true) (hu : s.fu.Sound → u.Sound)
    (hq : s.mp.fitsQueue → m.fitsQueue)
      (h : s.StoreSound → { s with fu := u, ts := t, mp := m }.StoreSound) : Work x s { s with fu := u, ts := t, mp := m }

/-- Any number of elementary changes. -/
abbrev Works (x : Scope) : State → State → Prop := ReflTransGen (Work x)

/-! ## Each invariant under an elementary change -/

/-- R137. -/
theorem Work.keeps_fu {x : Scope} {s t : State} (h : Work x s t) (hs : s.fu.Sound) : t.fu.Sound := by
  cases h with
  | flags u h hf => exact h hs
  | store u t m hx hu hq h => exact hu hs
  | _ => exact hs

/-- R124. -/
theorem Work.keeps_restsIdle {x : Scope} {s t : State} (h : Work x s t) (hs : s.sc.restsIdle) :
    t.sc.restsIdle := by
  cases h with
  | scan c hf ht => exact ht hs
  | _ => exact hs

/-- R1: the run state stays live, or stays not live. -/
theorem Work.live {x : Scope} {s t : State} (h : Work x s t) : t.live = s.live := by
  cases h with
  | run r h => exact h
  | _ => rfl

/-- The queue of waiting commands, the core clock and the count of free choices stay. -/
theorem Work.outside {x : Scope} {s t : State} (h : Work x s t) :
    t.pending = s.pending ∧ t.clock = s.clock ∧ t.choices = s.choices := by
  cases h <;> exact ⟨rfl, rfl, rfl⟩

/-- Nothing is taken away: no flag is cleared, and the records and events that wait stay ahead of those that come. -/
structure State.Grows (s t : State) : Prop where
  flags : s.fu.Kept t.fu
  records : s.ts.input <+: t.ts.input
  events : s.ste.events <+: t.ste.events

theorem State.Grows.refl (s : State) : s.Grows s := ⟨.refl _, List.prefix_refl _, List.prefix_refl _⟩

theorem State.Grows.trans {s t u : State} (h : s.Grows t) (k : t.Grows u) : s.Grows u :=
  ⟨h.flags.trans k.flags, h.records.trans k.records, h.events.trans k.events⟩

/-- Work that takes nothing away only adds. -/
theorem Work.grows {x : Scope} (hx : x.takes = false) {s t : State} (h : Work x s t) : s.Grows t := by
  have no : ¬x.takes = true := by simp [hx]
  cases h with
  | flags u h hf => exact ⟨hf.resolve_left no, List.prefix_refl _, List.prefix_refl _⟩
  | steps e hp hl he hv => exact ⟨.refl _, List.prefix_refl _, hv.resolve_left no⟩
  | record w hl hw => exact ⟨.refl _, List.prefix_append _ _, List.prefix_refl _⟩
  | text p d w hl hw => exact ⟨.refl _, List.prefix_append _ _, List.prefix_refl _⟩
  | store u t m hx hu hq h => exact absurd hx no
  | _ => exact ⟨.refl _, List.prefix_refl _, List.prefix_refl _⟩

/-- R30: outside an evaluation the evaluation records stay. -/
theorem Work.keeps_evals {x : Scope} (hx : x.evals = false) {s t : State} (h : Work x s t) : t.ste.evals = s.ste.evals := by
  cases h with
  | steps e hp hl he hv => exact he.resolve_left (by simp [hx])
  | _ => rfl

/-- A drive channel put in a safe state in its place leaves the drives safe. -/
theorem State.DrivesSafe.setDc {s : State} (hs : s.DrivesSafe) {c : Fin 8} {d : Dc} (hd : s.channelSafe c d) :
    (s.setDc c d).DrivesSafe := by
  obtain ⟨hrail, hmask, hgen⟩ := hd
  refine ⟨fun x => ?_, fun x => ?_, hs.plan, fun x => ?_⟩ <;> rw [State.setDc_get] <;> split
  · subst x; exact hrail
  · exact hs.rails x
  · subst x; exact hmask
  · exact hs.mask x
  · exact hgen
  · exact hs.generators x

/-- What the safety of the drives depends on. -/
theorem State.DrivesSafe.congr {s t : State} (hs : s.DrivesSafe) (hdc : t.dc = s.dc)
    (hlau : ∀ b : Fin 4, t.lau[b].present = s.lau[b].present) (hmask : t.permitMask = s.permitMask)
    (hplan : t.ste.active = s.ste.active) (hlive : t.live = s.live) : t.DrivesSafe := by
  obtain ⟨rails, mask, plan, generators⟩ := hs
  refine ⟨fun c => ?_, fun c => ?_, fun hl => ?_, fun c => ?_⟩
  · rw [hdc, hlau]; exact rails c
  · rw [hdc, hmask]; exact mask c
  · rw [hplan, hmask]; exact plan (hlive ▸ hl)
  · rw [hdc]; exact generators c

/-- R120, R121. -/
theorem Work.keeps_drivesSafe {x : Scope} (hx : x.rails = false) {s t : State} (h : Work x s t) (hs : s.DrivesSafe) :
    t.DrivesSafe := by
  cases h with
  | drive c d h => exact hs.setDc (h hs)
  | run r h => exact hs.congr rfl (fun _ => rfl) rfl rfl h
  | steps e hp hl he hv => exact hs.congr rfl (fun _ => rfl) rfl hp rfl
  | bank b l h =>
    refine hs.congr rfl (fun x => ?_) rfl rfl rfl
    have hp : l.present = s.lau[b].present := h.resolve_left (by simp [hx])
    rw [State.setLau_get]
    split
    · subst x; exact hp
    · rfl
  | _ => exact hs.congr rfl (fun _ => rfl) rfl rfl rfl

/-! ### Capacities -/

/-- R107: the fragment of one direction replaced. -/
theorem Cp.setFragment_sound {c : Cp} (h : c.fragmentsSound) (d : TextDir) (f : Option Fragment)
    (hf : ∀ g, f = some g → g.sound) : (c.setFragment d f).fragmentsSound := by
  cases d with
  | rx => exact ⟨hf, h.2⟩
  | tx => exact ⟨h.1, hf⟩

/-- R108: a fragment replaced leaves the transmit queue. -/
@[simp] theorem Cp.setFragment_queue (c : Cp) (d : TextDir) (f : Option Fragment) : (c.setFragment d f).queue = c.queue := by
  cases d <;> rfl

/-- What the open CODE record depends on. -/
theorem State.codeRecordSound_congr {s t : State} (h : s.codeRecordSound) (hc : t.cdp = s.cdp) (hl : t.live = s.live) :
    t.codeRecordSound := by
  unfold State.codeRecordSound at *
  rw [hc, hl]; exact h

/-- A property of every console port, where one is replaced. -/
theorem State.setCp_all {P : Cp → Prop} {s : State} (h : ∀ q : Fin 2, P s.cp[q]) (p : Fin 2) {c : Cp} (hc : P c)
    (q : Fin 2) : P (s.setCp p c).cp[q] := by
  rw [State.setCp_get]; split
  · exact hc
  · exact h q

/-- R33, R98, R99, R107, R108, R112, R127, R131, R134. -/
theorem Work.keeps_fits {x : Scope} {s t : State} (h : Work x s t) (hs : s.Fits) : t.Fits := by
  cases h with
  | port m hq hi => exact { hs with requests := hq hs.requests }
  | store u t m hx hu hq h => exact { hs with requests := hq hs.requests }
  | run r h => exact { hs with codeRecord := State.codeRecordSound_congr hs.codeRecord rfl h }
  | steps e hp hl he hv => exact { hs with lookback := hl hs.lookback }
  | code c hh hr => exact { hs with history := hh hs.history, codeRecord := hr hs.history hs.codeRecord }
  | scan c hf ht => exact { hs with scans := hf hs.scans }
  | console p c hf hq =>
    exact { hs with
      transmit := State.setCp_all hs.transmit p (hq (hs.transmit p))
      fragments := State.setCp_all hs.fragments p (hf (hs.fragments p)) }
  | text p d w hl hw =>
    exact { hs with
      transmit := State.setCp_all hs.transmit p (by unfold Cp.fitsTransmit; rw [Cp.setFragment_queue]; exact hs.transmit p)
      fragments := State.setCp_all hs.fragments p (Cp.setFragment_sound (hs.fragments p) d none (by simp)) }
  | matcher m t h =>
    refine { hs with progress := fun x => ?_ }
    rw [State.setTm_get]; split
    · exact h (hs.progress m)
    · exact hs.progress x
  | _ => exact { hs with }

/-! ### The store -/

/-- What the invariant of the store depends on. -/
theorem State.StoreSound.congr {s t : State} (hs : s.StoreSound) (hts : t.ts = s.ts) (hlive : t.live = s.live)
    (hin : t.mp.inHand = s.mp.inHand) (hf : ∀ p : Fin 2, t.cp[p].fragmentsSound) : t.StoreSound where
  sound := hts ▸ hs.sound
  roomy := by rw [hts, hlive]; exact hs.roomy
  trigger := by rw [hts, hlive]; exact hs.trigger
  marks := by rw [hts, hin]; exact hs.marks
  fragments := hf

/-- R51, R52: an ordinary record that reaches the TS in a run leaves the store sound. -/
theorem State.StoreSound.enqueue {s : State} (hs : s.StoreSound) (hl : s.live = true) {w : Waiting} (hw : w.Ordinary) :
    (s.enqueue w).StoreSound where
  sound := hs.sound
  roomy := {
    capacity := hs.roomy.capacity
    reserve := fun _ => hs.roomy.reserve (.inl hl)
    sizes := fun x hx => (List.mem_append.1 hx).elim (hs.roomy.sizes x) fun h => List.mem_singleton.1 h ▸ hw.size
    quotas := hs.roomy.quotas
    running := fun _ x hx =>
      (List.mem_append.1 hx).elim (hs.roomy.running hl x) fun h => List.mem_singleton.1 h ▸ hw.running
    ended := fun h => absurd (hl.symm.trans h) Bool.noConfusion
    pair := fun ha => by
      obtain ⟨x, xs, he, hx⟩ := hs.roomy.pair ha
      exact ⟨x, xs ++ [w], by simp [he], hx⟩ }
  trigger := fun hm ht => by
    obtain ⟨n, h1, h2, h3⟩ := hs.trigger hm ht
    exact ⟨n, h1, h2, fun h _ ha => h3 h (.inl hl) ha⟩
  marks := by
    have := hs.marks
    simp [List.filter_append, hw.unawaited] at this ⊢
    exact this
  fragments := hs.fragments

/-- R51, R52, R53, R64, R68. -/
theorem Work.keeps_store {x : Scope} {s t : State} (h : Work x s t) (hs : s.StoreSound) : t.StoreSound := by
  cases h with
  | port m hq hi => exact hs.congr rfl rfl hi hs.fragments
  | run r h => exact hs.congr rfl h rfl hs.fragments
  | record w hl hw => exact hs.enqueue hl hw
  | text p d w hl hw =>
    have hc : (s.setCp p (s.cp[p].setFragment d none)).StoreSound := hs.congr rfl rfl rfl
      (State.setCp_all hs.fragments p (Cp.setFragment_sound (hs.fragments p) d none (by simp)))
    exact hc.enqueue hl (hw hs.fragments)
  | trigger fired => exact { hs with roomy := { hs.roomy with } }
  | store u t m hx hu hq h => exact h hs
  | console p c hf hq => exact hs.congr rfl rfl rfl (State.setCp_all hs.fragments p (hf (hs.fragments p)))
  | _ => exact hs.congr rfl rfl rfl hs.fragments

/-! ## Each invariant under any number of elementary changes -/

section
variable {x : Scope} {s t : State}

theorem Works.keeps {P : State → Prop} (hP : ∀ {s t}, Work x s t → P s → P t) (h : Works x s t) (hs : P s) :
    P t := by
  induction h with
  | refl => exact hs
  | tail _ h ih => exact hP h ih

theorem Works.keeps_fu (h : Works x s t) (hs : s.fu.Sound) : t.fu.Sound := h.keeps Work.keeps_fu hs
theorem Works.keeps_restsIdle (h : Works x s t) (hs : s.sc.restsIdle) : t.sc.restsIdle :=
  h.keeps (P := fun s => s.sc.restsIdle) Work.keeps_restsIdle hs
theorem Works.keeps_fits (h : Works x s t) (hs : s.Fits) : t.Fits := h.keeps Work.keeps_fits hs
theorem Works.keeps_store (h : Works x s t) (hs : s.StoreSound) : t.StoreSound := h.keeps Work.keeps_store hs
theorem Works.keeps_drivesSafe (hx : x.rails = false) (h : Works x s t) (hs : s.DrivesSafe) : t.DrivesSafe :=
  h.keeps (Work.keeps_drivesSafe hx) hs

theorem Works.keeps_evals (hx : x.evals = false) (h : Works x s t) : t.ste.evals = s.ste.evals :=
  h.keeps (P := fun u => u.ste.evals = s.ste.evals) (fun w e => (w.keeps_evals hx).trans e) rfl

theorem Works.grows (hx : x.takes = false) (h : Works x s t) : s.Grows t := by
  induction h with
  | refl => exact .refl s
  | tail _ h ih => exact ih.trans (h.grows hx)

/-- Work of an evaluation is work of a delivery, which may take events besides. -/
theorem Works.delivery (h : Works .evaluation s t) : Works .delivery s t := by
  refine ReflTransGen.mono (fun u v w => ?_) _ _ h
  cases w with
  | flags u h hf => exact .flags _ u h (.inl rfl)
  | port m hq hi => exact .port _ m hq hi
  | run r h => exact .run _ r h
  | steps e hp hl he hv => exact .steps _ e hp hl (.inl rfl) (.inl rfl)
  | record w hl hw => exact .record _ w hl hw
  | trigger fired => exact .trigger _ fired
  | text p d w hl hw => exact .text _ p d w hl hw
  | bank b l h => exact .bank _ b l h
  | channel c m => exact .channel _ c m
  | monitor m r => exact .monitor _ m r
  | code c hh hr => exact .code _ c hh hr
  | console p c hf hq => exact .console _ p c hf hq
  | matcher m t h => exact .matcher _ m t h
  | drive c d h => exact .drive _ c d h
  | scan c hf ht => exact .scan _ c hf ht
  | pins p => exact .pins _ p
  | lock l => exact .lock _ l
  | store u t m hx hu hq h => cases hx

theorem Works.outside (h : Works x s t) : t.pending = s.pending ∧ t.clock = s.clock ∧ t.choices = s.choices :=
  h.keeps (P := fun u => u.pending = s.pending ∧ u.clock = s.clock ∧ u.choices = s.choices)
    (fun w ⟨hp, hc, hn⟩ => ⟨w.outside.1.trans hp, w.outside.2.1.trans hc, w.outside.2.2.trans hn⟩) ⟨rfl, rfl, rfl⟩

theorem Works.live (h : Works x s t) : t.live = s.live := h.keeps (P := fun u => u.live = s.live)
  (fun w e => w.live.trans e) rfl

end

end Sys2Proof.Machine
end

section
/-! Each operation of chapters 5 to 10 is a chain of elementary changes. -/

namespace Sys2Proof.Machine

open Relation

section
variable {x : Scope} (s : State)

/-! ## Flags, events and records -/

theorem State.raise_works (f : Flag) : Works x s (s.raise f) :=
  .single (.flags _ _ (Fu.raise_sound _ f) (.inr (Fu.raise_keeps _ f)))

theorem State.raiseIf_works (c : Bool) (f : Flag) : Works x s (s.raiseIf c f) := by
  cases c
  · exact .refl
  · exact s.raise_works f

theorem State.handEvent_works (e : Event) : Works x s (s.handEvent e) :=
  .single (.steps _ _ rfl id (.inr rfl) (.inr (List.prefix_append _ _)))

theorem State.setEval_works (k : Fin 64) (v : StepEval) : Works .evaluation s (s.setEval k v) :=
  .single (.steps _ _ rfl id (.inl rfl) (.inr (List.prefix_refl _)))

/-- R52: a record handed over, of a kind that any source may hand over in a run. -/
theorem State.hand_works (src : RecSource) (r : Rec) (hu : r.units ≤ 9) (hc : ¬r.closesRun) :
    Works x s (s.hand src r) := by
  unfold State.hand
  split
  · rename_i hl; exact .single (.record _ _ hl ⟨hu, hc, rfl⟩)
  · exact .refl

/-- An operation done for each of several instances. -/
theorem Works.foldl {α : Type} {f : State → α → State} (h : ∀ s a, Works x s (f s a)) (l : List α) :
    Works x s (l.foldl f s) := by
  induction l generalizing s with
  | nil => exact .refl
  | cons a l ih => exact (h s a).trans (ih _)

/-! ## The code port (chapter 7) -/

/-- R99: the open CODE record given up. -/
theorem State.dropPending_works : Works x s (s.setCdp { s.cdp with pending := none }) :=
  .single (.code _ _ id fun _ _ _ hp => by cases hp)

theorem State.closeCode_works : Works x s (s.closeCode false) := by
  unfold State.closeCode
  split
  · exact .refl
  · exact (s.dropPending_works).trans (State.hand_works _ _ _ (by simp [Rec.units, RecBody.units]) (by simp [Rec.closesRun]))

end

/-- R98: the history after a capture stays in its room, each entry counting from 1 to 65,535. -/
theorem Cdp.historyAfter_sound (c : Cdp) (code : Byte) (h : c.historySound) :
    ({ c with history := c.historyAfter code } : Cdp).historySound := by
  obtain ⟨hl, hc⟩ := h
  unfold Cdp.historyAfter
  split
  · rename_i e es heq hf
    rw [heq] at hl hc
    refine ⟨hl, fun x hx => ?_⟩
    rcases List.mem_cons.1 hx with rfl | hx
    · simp only [Cdp.folds, heq, Bool.and_eq_true, decide_eq_true_eq] at hf
      have : e.count < 65535 := hf.2
      exact ⟨Nat.le_add_left 1 _, this⟩
    · exact hc x (List.mem_cons_of_mem _ hx)
  · refine ⟨by simp [Config.historyMax], fun x hx => ?_⟩
    rcases List.mem_cons.1 (List.mem_of_mem_take hx) with rfl | hx
    · exact ⟨le_rfl, (by decide : 1 ≤ 65535)⟩
    · exact hc x hx

/-- R97: a capture that folds adds to a head below the ceiling. -/
theorem Cdp.historyAfter_folds {c : Cdp} {code : Byte} (h : c.folds code = true) :
    ∃ e es, c.history = e :: es ∧ c.historyAfter code = { e with count := e.count + 1 } :: es ∧ e.count < 65535 := by
  unfold Cdp.historyAfter
  rw [h]
  unfold Cdp.folds at h
  cases hh : c.history with
  | nil => simp [hh] at h
  | cons e es =>
    simp only [hh, Bool.and_eq_true, decide_eq_true_eq] at h
    exact ⟨e, es, rfl, rfl, h.2⟩

section
variable {x : Scope} (s : State)

/-- R98: the history changes with no CODE record open. -/
theorem State.setHistory_works (c : Cdp) (hh : s.cdp.historySound → c.historySound) (hp : c.pending = none) :
    Works x s (s.setCdp c) :=
  .single (.code _ _ hh fun _ _ p h => by rw [State.setCdp_cdp, hp] at h; cases h)

/-- R99: a CODE record opens in a run with trace on. -/
theorem State.openPending_works (c : Cdp) (code : Byte) (t : Nat) (hc : c = { s.cdp with pending := some ⟨code, 1, t, t⟩ })
    (hl : s.live = true) (ht : s.cdp.settings.trace = true) : Works x s (s.setCdp c) := by
  subst hc
  refine .single (.code _ _ id fun hh _ p hp => ?_)
  cases hp
  refine ⟨hl, ht, le_rfl, (by decide : 1 ≤ 65535), fun e es he => ?_⟩
  have he' : s.cdp.history = e :: es := he
  exact (hh.2 e (by rw [he']; exact List.mem_cons_self)).1

/-- R99: the close of a CODE record leaves the settings and the run state. -/
theorem State.closeCode_settings (ending : Bool) : (s.closeCode ending).cdp.settings = s.cdp.settings := by
  unfold State.closeCode
  split
  · rfl
  · rw [State.handClose_eq]; rfl

/-- R97, R98, R99: what a capture makes of the history and of the open CODE record. -/
theorem State.recordCode_works (code : Byte) (c : Cdp)
    (hc : c = { s.cdp with history := s.cdp.historyAfter code, foldFrom := c.foldFrom }) :
    Works x s ((s.setCdp c).recordCode code (s.cdp.folds code)) := by
  have hsound : s.cdp.historySound → c.historySound := by
    intro h; rw [hc]; exact Cdp.historyAfter_sound s.cdp code h
  have hpend : c.pending = s.cdp.pending := by rw [hc]
  have hset : c.settings = s.cdp.settings := by rw [hc]
  unfold State.recordCode
  dsimp only
  split
  · rename_i hrun
    obtain ⟨hl, ht⟩ := Bool.and_eq_true_iff.1 hrun
    split
    · rename_i p hp hf
      obtain ⟨e, es, he, hafter, hlt⟩ := Cdp.historyAfter_folds hf
      refine .single (.code _ _ (fun h => ?_) fun _ hr q hq => ?_)
      · exact hsound h
      · cases hq
        obtain ⟨-, -, h1, -, hle⟩ := hr p (hpend.symm.trans hp)
        have hle := hle e es he
        refine ⟨hl, ht, Nat.le_add_left 1 _, show p.count + 1 ≤ 65535 by omega, fun x xs hx => ?_⟩
        rw [State.setCdp_cdp, hc, hafter] at hx
        cases hx
        exact Nat.succ_le_succ hle
    · have hclose : Works x s ((s.setCdp c).closeCode false) := by
        unfold State.closeCode
        split
        · rename_i hp; exact s.setHistory_works c hsound hp
        · refine .trans (s.setHistory_works { c with pending := none } hsound rfl) ?_
          exact State.hand_works _ _ _ (by simp [Rec.units, RecBody.units]) (by simp [Rec.closesRun])
      have hopen := hclose.trans (State.openPending_works (x := x) ((s.setCdp c).closeCode false) _ code
        (s.setCdp c).rc.timeBase rfl ((State.closeCode_boardFrame _ _).live.trans hl)
        ((congrArg CodeSettings.trace (State.closeCode_settings _ _)).trans ht))
      split
      · exact hopen.trans (State.closeCode_works _)
      · exact hopen
  · rename_i hrun
    refine .single (.code _ _ hsound fun _ hr p hp => ?_)
    obtain ⟨hl, ht, -⟩ := hr p (hpend ▸ hp)
    exact absurd (Bool.and_eq_true_iff.2 ⟨hl, (congrArg CodeSettings.trace hset).trans ht⟩) hrun

/-- R97 to R100: a captured code. -/
theorem State.capture_works (code : Byte) : Works x s (s.capture code) := by
  unfold State.capture
  split
  · exact .refl
  · exact (s.recordCode_works code _ rfl).trans ((State.handEvent_works _ _).trans (State.raise_works _ _))

/-- R96: the code port's settings, reference and timers change with no CODE record open, or with the record as it was. -/
theorem State.setCdp_works (c : Cdp) (hh : c.history = s.cdp.history) (hp : c.pending = s.cdp.pending)
    (ht : c.settings.trace = s.cdp.settings.trace) : Works x s (s.setCdp c) := by
  refine .single (.code _ _ (fun h => ?_) fun _ hr => ?_)
  · unfold Cdp.historySound at *; rw [hh]; exact h
  · intro p h
    rw [State.setCdp_cdp, hp] at h
    obtain ⟨h1, h2, h3⟩ := hr p h
    exact ⟨h1, ht.trans h2, by rw [State.setCdp_cdp, hh]; exact h3⟩

theorem State.sampleStb_works : Works x s s.sampleStb := by
  unfold State.sampleStb
  split
  · exact s.setCdp_works _ rfl rfl rfl
  · exact .refl

theorem State.blankStrobe_works : Works x s s.blankStrobe := s.setCdp_works _ rfl rfl rfl

theorem State.codeRailLoss_works : Works x s s.codeRailLoss :=
  .trans (s.setCdp_works { s.cdp with blanking := none, reference := none } rfl rfl rfl) (State.closeCode_works _)

/-! ## The console ports and the matchers (chapter 8) -/

/-- A console port changes outside its fragments and its transmit queue. -/
theorem State.setCp_works (p : Fin 2) (c : Cp) (hr : c.rxFragment = s.cp[p].rxFragment)
    (ht : c.txFragment = s.cp[p].txFragment) (hq : c.queue.length ≤ s.cp[p].queue.length) : Works x s (s.setCp p c) := by
  refine .single (.console _ _ _ (fun h => ?_) fun h => hq.trans h)
  unfold Cp.fragmentsSound at *
  rw [hr, ht]; exact h

/-- R54, R107: a TEXT record of at most 56 bytes is an ordinary record. -/
theorem textRecord_ordinary {f : Fragment} (p : Fin 2) (d : TextDir) (err brk : Bool) (src : RecSource) (reached : Nat)
    (h : f.bytes.length ≤ 56) :
    ({ record := { time := f.first, body := .text p d f.bytes err brk }, source := src, reached, endWork := false
       awaited := false } : Waiting).Ordinary := by
  refine ⟨?_, by simp [Rec.closesRun], rfl⟩
  simp only [Rec.units, RecBody.units, ceilDiv]
  omega

/-- R107: a sound fragment of a port. -/
theorem Cp.fragment_sound {c : Cp} (h : c.fragmentsSound) {d : TextDir} {f : Fragment} (hf : c.fragment d = some f) :
    f.sound := by
  cases d with
  | rx => exact h.1 f hf
  | tx => exact h.2 f hf

/-- R107: a fragment given up, outside a run. -/
theorem State.dropFragment_works (p : Fin 2) (d : TextDir) : Works x s (s.setCp p (s.cp[p].setFragment d none)) :=
  .single (.console _ _ _ (fun h => Cp.setFragment_sound h d none (by simp))
    (by unfold Cp.fitsTransmit; rw [Cp.setFragment_queue]; exact id))

/-- R107: a fragment of at most 56 bytes that is closed. -/
theorem State.closeText_works (p : Fin 2) (d : TextDir) (f : Fragment) (brk : Bool)
    (h : s.cp[p].fragmentsSound → f.bytes.length ≤ 56) :
    Works x s ((s.setCp p (s.cp[p].setFragment d none)).hand (.cp p d)
      { time := f.first, body := .text p d f.bytes f.error brk }) := by
  unfold State.hand
  split
  · rename_i hl
    exact .single (.text _ _ _ _ hl fun hf => textRecord_ordinary p d _ _ _ _ (h (hf p)))
  · exact s.dropFragment_works p d

theorem State.closeFragment_works (p : Fin 2) (d : TextDir) (brk : Bool) :
    Works x s (s.closeFragment false p d brk) := by
  unfold State.closeFragment
  split
  · exact .refl
  · rename_i f hf
    exact s.closeText_works p d f _ fun h => ((Cp.fragment_sound h hf).2).trans (by decide)

@[simp] theorem Cp.setFragment_fragment (c : Cp) (d : TextDir) (f : Option Fragment) :
    (c.setFragment d f).fragment d = f := by cases d <;> rfl

@[simp] theorem Cp.setFragment_setFragment (c : Cp) (d : TextDir) (f g : Option Fragment) :
    (c.setFragment d f).setFragment d g = c.setFragment d g := by cases d <;> rfl

/-- A port replaced twice. -/
@[simp] theorem State.setCp_setCp (p : Fin 2) (c c' : Cp) : (s.setCp p c).setCp p c' = s.setCp p c' := by
  simp [State.setCp]

/-- The port replaced reads as the new one. -/
@[simp] theorem State.setCp_get_self (p : Fin 2) (c : Cp) : (s.setCp p c).cp[p] = c := by
  rw [State.setCp_get, if_pos rfl]

/-- R107: a byte joins the open fragment, or opens one. -/
theorem Fragment.add_length (f : Option Fragment) (b : Byte) (t : Nat) (err : Bool) :
    (Fragment.add f b t err).bytes.length = (f.elim 0 fun f => f.bytes.length) + 1 := by
  cases f <;> simp [Fragment.add]

theorem State.addByte_works (p : Fin 2) (d : TextDir) (b : Byte) (t : Nat) (err : Bool) :
    Works x s (s.addByte p d b t err) := by
  unfold State.addByte
  split
  swap
  · exact .refl
  dsimp only
  generalize hf : Fragment.add (s.cp[p].fragment d) b t err = f
  have hlen : f.bytes.length = _ := hf ▸ Fragment.add_length (s.cp[p].fragment d) b t err
  have hle : s.cp[p].fragmentsSound → 1 ≤ f.bytes.length ∧ f.bytes.length ≤ 56 := fun h => by
    rw [hlen]
    cases hg : s.cp[p].fragment d with
    | none => simp
    | some g => have := (Cp.fragment_sound h hg).2; simp only [Option.elim_some]; omega
  split
  · simp only [State.closeFragment, State.setCp_get_self, Cp.setFragment_fragment, State.setCp_setCp,
      Cp.setFragment_setFragment, State.handClose, Bool.false_eq_true, if_false]
    exact s.closeText_works p d f _ fun h => (hle h).2
  · rename_i hopen
    simp only [not_or, Config.fragmentMax] at hopen
    refine .single (.console _ _ _ (fun h => Cp.setFragment_sound h d _ ?_)
      (by unfold Cp.fitsTransmit; rw [Cp.setFragment_queue]; exact id))
    intro g hg
    cases hg
    exact ⟨(hle h).1, by omega⟩

/-- R112: the search never finds a prefix longer than it looks for. -/
theorem longestPrefix_le (ci : Bool) (pattern taken : Bytes) (n : Nat) : longestPrefix ci pattern taken n ≤ n := by
  induction n with
  | zero => exact le_rfl
  | succ n ih => unfold longestPrefix; split <;> omega

/-- R112: the progress after a byte is 0, a hit, or below the pattern's length. -/
theorem Tm.advance_le {t : Tm} (b : Byte) (h : t.progressSound) (hn : t.advance b ≠ t.settings.pattern.length) :
    t.advance b = 0 ∨ t.advance b < t.settings.pattern.length := by
  have hle : t.advance b ≤ t.progress + 1 := longestPrefix_le _ _ _ _
  rcases h with h | h
  · rw [h] at hle
    rcases Nat.eq_zero_or_pos t.settings.pattern.length with hz | hz
    · -- an empty pattern ends no run of bytes
      left
      have hp : t.settings.pattern = [] := List.length_eq_zero_iff.1 hz
      simp [Tm.advance, h, hp, longestPrefix, runsEqual]
    · omega
  · omega

theorem State.matchByte_works (b : Byte) (t : Nat) (m : Fin 8) : Works x s (State.matchByte b t s m) := by
  unfold State.matchByte
  dsimp only
  split
  · have h0 : Works x s (s.setTm m s.tm[m].restart) := .single (.matcher _ _ _ fun _ => .inl rfl)
    exact h0.trans ((State.handEvent_works _ _).trans (State.raise_works _ _))
  · rename_i hn
    exact .single (.matcher _ _ _ fun h => Tm.advance_le b h hn)

theorem State.matchAll_works (p : Fin 2) (b : Byte) (t : Nat) : Works x s (s.matchAll p b t) := by
  unfold State.matchAll
  refine Works.foldl s (fun s m => ?_) _
  split
  · exact s.matchByte_works b t m
  · exact .refl

theorem State.restartMatchers_works (p : Fin 2) : Works x s (s.restartMatchers p) := by
  unfold State.restartMatchers
  refine Works.foldl s (fun s m => ?_) _
  split
  · exact .single (.matcher _ _ _ fun _ => .inl rfl)
  · exact .refl

theorem State.takeByte_works (p : Fin 2) (b : Byte) (t : Nat) (err : Bool) : Works x s (s.takeByte p b t err) := by
  unfold State.takeByte
  dsimp only
  split
  · exact (s.addByte_works p .rx b t err).trans (State.restartMatchers_works _ _)
  · exact (s.addByte_works p .rx b t err).trans (State.matchAll_works _ _ _ _)

theorem State.dropTransmit_works (p : Fin 2) : Works x s (s.dropTransmit p) :=
  .trans (s.setCp_works p s.cp[p].dropTransmit rfl rfl (Nat.zero_le _)) (State.raiseIf_works _ _ _)

theorem State.receiver_works (p : Fin 2) (st : RxState) : Works x s (s.receiver p st) :=
  s.setCp_works p _ rfl rfl le_rfl

theorem State.sampleRx_works (p : Fin 2) : Works x s (s.sampleRx p) := s.setCp_works p _ rfl rfl le_rfl

theorem State.portRailLoss_works (p : Fin 2) : Works x s (s.portRailLoss p) := by
  have hclose := (s.closeFragment_works (x := x) p .rx false).trans (State.closeFragment_works _ p .tx false)
  exact ((hclose.trans (State.receiver_works _ p .waitIdle)).trans (State.dropTransmit_works _ p)).trans
    (State.restartMatchers_works _ p)

/-- R109: the transmitter takes the oldest byte of its queue. -/
theorem Cp.transmit_frame (c : Cp) (clock : Nat) : (c.transmit clock).rxFragment = c.rxFragment ∧
    (c.transmit clock).txFragment = c.txFragment ∧ (c.transmit clock).queue.length ≤ c.queue.length := by
  unfold Cp.transmit
  split
  · rename_i hq; exact ⟨rfl, rfl, by simp [hq]⟩
  · exact ⟨rfl, rfl, le_rfl⟩

/-! ## Channels and monitors (chapter 6) -/

theorem State.sampleChannel_works (c : Fin 24) : Works x s (s.sampleChannel c) := by
  unfold State.sampleChannel
  refine Works.foldl s (fun s m => ?_) _
  split
  · exact .single (.monitor _ _ _)
  · exact .refl

theorem State.updateRm_works (m : Fin 4) (r : Rm) : Works x s (s.updateRm m r) := by
  have h0 : Works x s (s.setRm m r) := .single (.monitor _ _ _)
  unfold State.updateRm State.reportRate
  dsimp only
  split
  · exact h0
  · refine (h0.trans ((State.handEvent_works _ _).trans (State.raise_works _ _))).trans (State.hand_works _ _ _ ?_ ?_)
    · simp [Rec.units, RecBody.units]
    · simp [Rec.closesRun]

theorem State.acceptTransition_works (c : Fin 24) (p : Transition) : Works x s (s.acceptTransition c p) := by
  have h0 : Works x s (s.setMc c { s.mc[c] with level := p.level, pending := none }) := .single (.channel _ _ _)
  have h1 := h0.trans (State.handEvent_works _ { time := s.edgeTime c, body := .edge c (dirTo p.level) })
  unfold State.acceptTransition
  dsimp only
  split
  · exact h1.trans (State.hand_works _ _ _ (by simp [Rec.units, RecBody.units]) (by simp [Rec.closesRun]))
  · exact h1

/-! ## The drive channels (chapter 9) -/

theorem State.handDrive_works (c : Fin 8) (m : DriveMode) (w : DriveCause) : Works x s (s.handDrive c m w) :=
  State.hand_works _ _ _ (by simp [Rec.units, RecBody.units]) (by simp [Rec.closesRun])

/-- R117: a channel that is RELEASED is safe wherever its generator is sound. -/
theorem State.channelSafe_released (c : Fin 8) (d : Dc) (hm : d.mode = .released) (hg : d.generatorSound) :
    s.channelSafe c d := ⟨fun _ _ => hm, fun _ => hm, hg⟩

/-- R120, R121: the channel as it stands in a safe state is safe. -/
theorem State.DrivesSafe.channel {s : State} (h : s.DrivesSafe) (c : Fin 8) : s.channelSafe c s.dc[c] :=
  ⟨h.rails c, h.mask c, h.generators c⟩

/-- R117, R118, R119: an operation keeps a channel safe that is permitted, and not blocked where the operation drives. -/
theorem State.channelSafe_operate {s : State} {c : Fin 8} {d : Dc} (op : DriveOp) (hd : s.channelSafe c d)
    (hperm : s.permitMask.getLsbD c.val = true)
    (hrail : op.drives = false ∨ d.railGated = false ∨ s.lau[driveBank c].present = true) :
    s.channelSafe c (d.operate op) := by
  obtain ⟨hr, -, hg⟩ := hd
  refine ⟨fun hgate habs => ?_, fun hno => absurd (hperm.symm.trans hno) Bool.noConfusion, Dc.operate_sound d op hg⟩
  rw [(Dc.operate_settings d op).2.2.1] at hgate
  have hrel := hr hgate habs
  rw [Dc.operate_mode]
  have hop : op.drives = false := by
    rcases hrail with h | h | h
    · exact h
    · exact absurd (h.symm.trans hgate) Bool.noConfusion
    · exact absurd (h.symm.trans habs) Bool.noConfusion
  cases op with
  | release => rfl
  | stopPulse => exact hrel
  | low | high | startPulse => cases hop

/-- R117, R119: an operation on a permitted channel, not blocked where it drives. -/
theorem State.driveOperate_works (c : Fin 8) (op : DriveOp) (w : DriveCause)
    (h : s.DrivesSafe → s.channelSafe c (s.dc[c].operate op)) : Works x s (s.driveOperate c op w) := by
  have h0 : Works x s (s.setDc c (s.dc[c].operate op)) := .single (.drive _ _ _ h)
  unfold State.driveOperate
  dsimp only
  split
  · exact h0.trans (State.handDrive_works _ _ _ _)
  · exact h0

theorem State.forceRelease_works (c : Fin 8) : Works x s (s.forceRelease c) := by
  unfold State.forceRelease
  split
  · have h0 : Works x s (s.setDc c (s.dc[c].operate .release)) := .single (.drive _ _ _ fun hs =>
      s.channelSafe_released c _ (Dc.operate_mode _ _) (Dc.operate_sound _ _ (hs.generators c)))
    exact (h0.trans (State.handDrive_works _ _ _ _)).trans (State.raise_works _ _)
  · exact .refl

/-! ## The Scan Controller (chapter 10) -/

/-- R127, R131: the SC changes but for its active job and its TAP state. -/
theorem State.setSc_works (c : Sc) (hj : c.job = s.sc.job) (ht : c.tap = s.sc.tap)
    (hq : s.sc.queue.length ≤ 16 → c.queue.length ≤ 16) (hr : s.sc.results.length ≤ 16 → c.results.length ≤ 16) :
    Works x s (s.setSc c) :=
  .single (.scan _ _ (fun h => ⟨hq h.1, hr h.2⟩) fun h => by unfold Sc.restsIdle at *; rw [hj, ht]; exact h)

/-- R124: a job becomes active, or an active one goes on. -/
theorem State.setJob_works (c : Sc) (a : Active) (hj : c.job = some a) (hq : c.queue.length ≤ s.sc.queue.length)
    (hr : c.results = s.sc.results) : Works x s (s.setSc c) :=
  .single (.scan _ _ (fun h => ⟨hq.trans h.1, by rw [hr]; exact h.2⟩) fun _ h => by rw [hj] at h; cases h)

theorem State.completeJob_works (j : Job) (r : ScanResult) : Works x s (s.completeJob j r) := by
  have h0 : Works x s (s.setSc (s.sc.addResult r)) :=
    s.setSc_works _ rfl rfl id fun _ => by simp [Sc.addResult, Config.scanQueueMax]
  have h1 := h0.trans (State.hand_works _ .sc
    { time := s.rc.timeBase, body := .scan r.cls r.outcome r.reason r.inserted r.capture r.captureLen }
    (by simp [Rec.units, RecBody.units]) (by simp [Rec.closesRun]))
  unfold State.completeJob
  dsimp only
  refine .trans ?_ (State.raise_works _ _)
  split
  · split
    · exact h1.trans (State.handEvent_works _ _)
    · exact h1
  · exact h1

theorem State.activateNext_works (n : Nat) : Works x s (s.activateNext n) := by
  induction n generalizing s with
  | zero => exact .refl
  | succ n ih =>
    unfold State.activateNext
    dsimp only
    split
    · rename_i j js hj hq
      split
      · exact s.setJob_works { s.sc with queue := js, job := some (j.activate { s.sc with queue := js } s.clock) } _ rfl
          (by simp [hq]) rfl
      · have h0 : Works x s (s.setSc { s.sc with queue := js }) :=
          s.setSc_works _ rfl rfl (fun h => by simp [hq] at h ⊢; omega) id
        exact (h0.trans (State.completeJob_works _ _ _)).trans (ih _)
    · exact .refl

theorem State.scanGo_works : Works x s s.scanGo := s.activateNext_works _

/-- R127: a step job joins the queue. -/
theorem insertStep_length (j : Job) (q : List Job) : (insertStep j q).length = q.length + 1 := by
  have := congrArg List.length (List.takeWhile_append_dropWhile (p := Job.isStep) (l := q))
  simp only [insertStep, List.length_append, List.length_cons] at *
  omega

theorem State.submitStep_works (t : Fin 8) : Works x s (s.submitStep t) := by
  unfold State.submitStep
  split
  · exact .refl
  · rename_i body _
    dsimp only
    split
    · exact State.completeJob_works _ _ _
    · rename_i hlt
      have hlt' : s.sc.queue.length < 16 := Nat.lt_of_not_le hlt
      have hlen := insertStep_length { cls := .step t, body, current := true } s.sc.queue
      exact .trans (s.setSc_works { s.sc with queue := insertStep { cls := .step t, body, current := true } s.sc.queue }
        rfl rfl (fun _ => by rw [hlen]; omega) id) (State.scanGo_works _)

/-- R128: the active job ends with the TAP state Run-Test/Idle or UNKNOWN. -/
theorem State.endJob_works (a : Active) (o : ScanOutcome) (r : Option FaultReason) (tap : Option Tap)
    (h : tap = none ∨ tap = some .runTestIdle) : Works x s (s.endJob a o r tap) := by
  have h0 : Works x s (s.setSc { s.sc with job := none, tap }) := .single (.scan _ _ id fun _ _ => h)
  exact (h0.trans (State.completeJob_works _ _ _)).trans (State.scanGo_works _)

theorem State.operationEnd_works (a : Active) : Works x s (s.operationEnd a) := by
  unfold State.operationEnd
  dsimp only
  split
  · exact State.endJob_works _ _ _ _ _ (.inl rfl)
  · split
    · exact State.endJob_works _ _ _ _ _ (.inr rfl)
    · split
      · exact s.setJob_works _ _ rfl le_rfl rfl
      · exact State.endJob_works _ _ _ _ _ (.inr rfl)

theorem State.cancelJobs_works (js : List Job) : Works x s (s.cancelJobs js) :=
  Works.foldl s (fun s j => s.completeJob_works j _) js

theorem State.cancelWhere_works (p : Job → Bool) : Works x s (s.cancelWhere p) := by
  have hq : (s.sc.queue.filter fun j => !p j).length ≤ s.sc.queue.length := List.length_filter_le _ _
  have h0 : Works x s (s.setSc ({ s.sc with queue := s.sc.queue.filter (fun j => !p j) }.markActive p)) :=
    .single (.scan _ _ (fun h => ⟨hq.trans h.1, h.2⟩) fun h hj => h (by
      cases hc : s.sc.job with
      | none => rfl
      | some a => simp [Sc.markActive, hc] at hj))
  exact h0.trans (State.cancelJobs_works _ _)

theorem State.scanRailLoss_works : Works x s s.scanRailLoss := by
  unfold State.scanRailLoss
  split
  · exact State.endJob_works _ _ _ _ _ (.inl rfl)
  · have h0 : Works x s (s.setSc { s.sc with tap := none }) := .single (.scan _ _ id fun _ _ => .inl rfl)
    exact h0.trans (State.scanGo_works _)

/-! ## Thresholds and rails (chapter 5) -/

theorem State.resampleBank_works (b : Fin 4) : Works x s (s.resampleBank b) :=
  .trans (Works.foldl s State.sampleRx_works _) (Works.foldl _ State.sampleChannel_works _)

theorem State.blankBank_works (b : Fin 4) : Works x s (s.blankBank b) :=
  Works.foldl s (fun s c => .single (.channel s c _)) _

theorem State.thresholdMoved_works (b : Fin 4) : Works x s (s.thresholdMoved b) := by
  unfold State.thresholdMoved
  dsimp only
  split
  · exact (s.blankBank_works b).trans (State.blankStrobe_works _)
  · exact s.blankBank_works b

theorem State.railLost_works (b : Fin 4) : Works x s (s.railLost b) := by
  have h1 : Works x s (s.loseChannels b) := Works.foldl s (fun s c => .single (.channel s c _)) _
  have h2 := h1.trans (Works.foldl (f := fun (s : State) (m : Fin 4) => s.setRm m s.rm[m].railLoss) _
    (fun s m => .single (.monitor s m _)) ((s.loseChannels b).bankMonitors b))
  have h3 := h2.trans (Works.foldl _ State.forceRelease_works (bankDrives b))
  have h4 := h3.trans (Works.foldl _ State.portRailLoss_works (bankPorts b))
  unfold State.railLost
  dsimp only
  split
  · exact (h4.trans (State.codeRailLoss_works _)).trans (State.scanRailLoss_works _)
  · exact h4

theorem State.railCame_works (b : Fin 4) : Works x s (s.railCame b) := by
  have h2 := (s.blankBank_works (x := x) b).trans (Works.foldl
    (f := fun (s : State) (m : Fin 4) => s.setRm m (s.rm[m].railReturn (s.rawMc s.rm[m].settings.channel))) _
    (fun s m => .single (.monitor s m _)) ((s.blankBank b).bankMonitors b))
  have h3 := h2.trans (Works.foldl
    (f := fun (s : State) (p : Fin 2) => s.setCp p (s.cp[p].beginWait (s.readRx p) s.clock)) _
    (fun s p => s.setCp_works p _ rfl rfl le_rfl) (bankPorts b))
  unfold State.railCame
  dsimp only
  split
  · exact h3.trans (State.blankStrobe_works _)
  · exact h3

theorem State.setBank_works (b : Fin 4) (threshold : Nat) (present : Bool) : Works .bank s (s.setBank b threshold present) := by
  have h0 : Works .bank s (s.setLau b { s.lau[b] with threshold, present }) := .single (.bank _ _ _ (.inl rfl))
  have h1 : Works .bank s (if s.lau[b].threshold ≠ threshold then
      (s.setLau b { s.lau[b] with threshold, present }).resampleBank b
      else s.setLau b { s.lau[b] with threshold, present }) := by
    split
    · exact h0.trans (State.resampleBank_works _ b)
    · exact h0
  unfold State.setBank
  dsimp only
  split
  · split
    · exact h1.trans (State.thresholdMoved_works _ b)
    · exact h1
  · split
    · exact ((h1.trans (State.handEvent_works _ _)).trans (State.raise_works _ _)).trans (State.railCame_works _ b)
    · exact ((h1.trans (State.handEvent_works _ _)).trans (State.raise_works _ _)).trans (State.railLost_works _ b)

/-- A LAU changes with its rail state as it was. -/
theorem State.setLau_works (b : Fin 4) (l : Lau) (h : l.present = s.lau[b].present) : Works x s (s.setLau b l) :=
  .single (.bank _ _ _ (.inr h))

theorem State.handLevel_works (b : Fin 4) (code : Nat) (changed : Bool) : Works x s (s.handLevel b code changed) := by
  unfold State.handLevel
  split
  · exact State.hand_works _ _ _ (by simp [Rec.units, RecBody.units]) (by simp [Rec.closesRun])
  · exact .refl

theorem State.beginAcq_works (b : Fin 4) (k : AcqKind) : Works x s (s.beginAcq b k) := s.setLau_works b _ rfl

theorem State.startInterval_works (b : Fin 4) : Works x s (s.startInterval b) := s.setLau_works b _ rfl

/-- R73, R75, R80: the end of an acquisition, once its bank has taken what it sets. -/
theorem State.endAcq_works (b : Fin 4) (a : Acq) : Works .bank s (s.endAcq b a) := by
  have h1 : Works .bank s (s.setLau b { s.lau[b] with lastCode := a.result, acq := none }) := s.setLau_works b _ rfl
  have key : ∀ u : State, Works .bank s u →
      Works .bank s (if s.lau[b].trackWaiting = true then u.beginAcq b .track else u) := fun u h => by
    split
    · exact h.trans (State.beginAcq_works _ _ _)
    · exact h
  unfold State.endAcq
  dsimp only
  refine key _ (.trans (.trans ?_ (State.handLevel_works _ _ _ _)) (State.raiseIf_works _ _ _))
  split
  · exact h1.trans (State.setBank_works _ _ _ _)
  · exact h1

end

end Sys2Proof.Machine
end

section
/-! The evaluation of steps and the deliveries of events are chains of elementary changes (chapter 3), in a run: a step's DRIVE
action is an operation on a channel that the active plan names, which R28 and R29 keep permitted. -/

namespace Sys2Proof.Machine

open Relation

section
variable {s : State}

/-- R63: a firing of the trigger. -/
theorem State.fireTrigger_works {x : Scope} (s : State) (src : TrigSource) : Works x s (s.fireTrigger src) := by
  unfold State.fireTrigger
  split
  · rename_i h
    have hl : s.live = true := by
      simp only [State.triggerTakes, Bool.and_eq_true] at h; exact h.1.2
    refine .trans (.single (.trigger s true)) (.single (.record (s.setTs { s.ts with fired := true }) _ hl ⟨?_, ?_, rfl⟩))
    · simp [Rec.units, RecBody.units]
    · simp [Rec.closesRun]
  · exact .refl

theorem State.setRefused_works (s : State) (k : Fin 64) : Works .evaluation s (s.setRefused k) := by
  unfold State.setRefused
  split
  · exact .refl
  · exact State.setEval_works _ _ _

/-- R23: an action of a step of the active plan, in a run. -/
theorem State.act_works (hl : s.live = true) {k : Fin 64} {e : StepEntry} (hk : s.ste.active[k] = some e) {a : Action}
    (ha : a ∈ e.actions) : Works .evaluation s (State.act k s a) := by
  cases a with
  | drive c op =>
    unfold State.act
    dsimp only
    rcases s.stepClaim_cases c op with ⟨-, -, -, h⟩ | ⟨hrail, h⟩
    · rw [h]; exact (s.raise_works _).trans (State.setRefused_works _ k)
    · rw [h]
      exact s.driveOperate_works c op .step fun hs =>
        State.channelSafe_operate op (hs.channel c) (hs.plan hl k e hk c op ha) hrail
  | scan t => exact s.submitStep_works t
  | mark code => exact State.hand_works _ _ _ (by simp [Rec.units, RecBody.units]) (by simp [Rec.closesRun])
  | trigger => exact s.fireTrigger_works _
  | endRun => exact .single (.steps _ _ rfl id (.inl rfl) (.inr (List.prefix_refl _)))

theorem State.acts_works (hl : s.live = true) {k : Fin 64} {e : StepEntry} (hk : s.ste.active[k] = some e)
    (l : List Action) (h : ∀ a ∈ l, a ∈ e.actions) : Works .evaluation s (l.foldl (State.act k) s) := by
  induction l generalizing s with
  | nil => exact .refl
  | cons a l ih =>
    have hf := State.act_stepFrame s k a
    exact (State.act_works hl hk (h a List.mem_cons_self)).trans
      (ih (hf.live.trans hl) (by rw [hf.plan]; exact hk) fun x hx => h x (List.mem_cons_of_mem _ hx))

/-- R46: a resolution of a step of the active plan. -/
theorem State.resolveStep_works (hl : s.live = true) {k : Fin 64} {e : StepEntry} (hk : s.ste.active[k] = some e)
    (v : StepEval) (st : StepState) (time : Nat) : Works .evaluation s (s.resolveStep k e v st time) := by
  have h2 : Works .evaluation s ((s.setEval k { v with state := st, resolution := some time }).setSte
      ((s.setEval k { v with state := st, resolution := some time }).ste.note k e st)) :=
    (s.setEval_works k _).trans (.single (.steps _ _ rfl id (.inl rfl) (.inr (List.prefix_refl _))))
  have h3 := h2.trans (State.acts_works
    (s := (s.setEval k { v with state := st, resolution := some time }).setSte
      ((s.setEval k { v with state := st, resolution := some time }).ste.note k e st)) hl hk e.actions fun _ => id)
  have h4 : ∀ u : State, Works .evaluation s u → Works .evaluation s (match u.ste.evals[k] with
      | none => u
      | some v' => u.hand .run (stepRecord k e v')) := fun u hu => by
    split
    · exact hu
    · exact hu.trans (State.hand_works _ _ _ (by simp [stepRecord, Rec.units, RecBody.units])
        (by simp [stepRecord, Rec.closesRun]))
  unfold State.resolveStep
  dsimp only
  refine .trans (h4 _ ?_) (State.raiseIf_works _ _ _)
  split
  · exact h3
  · exact h2

theorem skipOne_works (time : Nat) (acc : State × List (Fin 64)) (j : Fin 64) (hl : acc.1.live = true) :
    Works .evaluation acc.1 (skipOne time acc j).1 := by
  unfold skipOne
  split
  · rename_i e v hi
    split
    · split
      · exact State.resolveStep_works hl ((Ste.inState_iff _ _ _ _ _).1 hi).1 _ _ _
      · exact .refl
    · exact .refl
  · exact .refl

/-- R45: a chain of failures. -/
theorem State.skipChain_works (hl : s.live = true) (k : Fin 64) (time : Nat) : Works .evaluation s (s.skipChain k time) := by
  have key : ∀ (l : List (Fin 64)) (acc : State × List (Fin 64)), acc.1.live = true →
      Works .evaluation acc.1 (l.foldl (skipOne time) acc).1 := fun l => by
    induction l with
    | nil => exact fun _ _ => .refl
    | cons j l ih =>
      exact fun acc h => (skipOne_works time acc j h).trans (ih _ ((skipOne_stepFrame time acc j).live.trans h))
  exact key _ (s, [k]) hl

/-- R43: a step's opening writes its evaluation record and nothing else. -/
theorem State.openStep_eq (s : State) (j : Fin 64) (e : StepEntry) (v : StepEval) (anchor : Nat) :
    ∃ w, (s.openStep j e v anchor).1 = s.setEval j w := by
  unfold State.openStep
  dsimp only
  split
  · exact ⟨_, rfl⟩
  · by_cases h : e.kind = .check <;> simp only [h, if_true, if_false] <;> split <;> exact ⟨_, rfl⟩

theorem State.openStep_works (s : State) (j : Fin 64) (e : StepEntry) (v : StepEval) (anchor : Nat) :
    Works .evaluation s (s.openStep j e v anchor).1 := by
  obtain ⟨w, h⟩ := s.openStep_eq j e v anchor
  rw [h]; exact s.setEval_works j w

/-- R44: what follows from a step's opening: it stays open, or resolves. -/
theorem State.openThen_works (hl : s.live = true) (j : Fin 64) (e : StepEntry) (v : StepEval) (anchor : Nat)
    (f : StepState → Nat → State → State) (hf : ∀ st t u, u.live = true → Works .evaluation u (f st t u)) :
    Works .evaluation s (match s.openStep j e v anchor with
      | (s', some (st, t)) => f st t s'
      | (s', none) => s') := by
  have h := State.openStep_works s j e v anchor
  have hl' := (State.openStep_stepFrame s j e v anchor).live.trans hl
  split
  · rename_i heq; rw [heq] at h hl'; exact h.trans (hf _ _ _ hl')
  · rename_i heq; rw [heq] at h; exact h

/-- An operation done for each of several instances in a run, which it leaves a run. -/
theorem Works.foldl_live {α : Type} {f : State → α → State} (h : ∀ s a, s.live = true → Works .evaluation s (f s a))
    (hl : s.live = true) (l : List α) : Works .evaluation s (l.foldl f s) := by
  induction l generalizing s with
  | nil => exact .refl
  | cons a l ih =>
    have hw := h s a hl
    exact hw.trans (ih (hw.live.trans hl))

/-- R46: a resolution with all that follows from it. -/
theorem State.resolve_works (n : Nat) (k : Fin 64) (st : StepState) (time : Nat) (hl : s.live = true) :
    Works .evaluation s (State.resolve n k st time s) := by
  induction n generalizing k st time s with
  | zero => exact .refl
  | succ n ih =>
    unfold State.resolve
    split
    · exact .refl
    · rename_i e v hi
      have hr := State.resolveStep_works hl ((Ste.inState_iff _ _ _ _ _).1 hi).1 v st time
      have hl' := hr.live.trans hl
      dsimp only
      split
      · refine hr.trans (Works.foldl_live (fun u j hu => ?_) hl' _)
        split
        · split
          · exact State.openThen_works hu j _ _ time (State.resolve n j) fun st t u hu => ih j st t hu
          · exact .refl
        · exact .refl
      · exact hr.trans (State.skipChain_works hl' _ _)

/-- R44: the steps anchored to START open. -/
theorem State.openStarts_works (hl : s.live = true) (anchor : Nat) : Works .evaluation s (s.openStarts anchor) := by
  unfold State.openStarts
  refine Works.foldl_live (fun u j hu => ?_) hl _
  split
  · split
    · exact State.openThen_works hu j _ _ anchor (State.resolve chainDepth j) fun st t u hu => State.resolve_works _ j st t hu
    · exact .refl
  · exact .refl

/-- R32: an event offered to a step. -/
theorem offerTo_works (x : Event) (hl : s.live = true) (j : Fin 64) : Works .evaluation s (offerTo x s j) := by
  unfold offerTo
  split
  · exact .refl
  · split
    · split
      · exact (s.setEval_works j _).trans (State.resolve_works _ _ _ _ hl)
      · exact s.setEval_works j _
    · exact .refl

/-- R37: a step's decision. -/
theorem decideStep_works (hl : s.live = true) (j : Fin 64) : Works .evaluation s (decideStep s j) := by
  unfold decideStep
  split
  · exact .refl
  · split
    · exact (s.setEval_works j _).trans (State.resolve_works _ _ _ _ hl)
    · exact .refl

/-- R49: the close of a pass. -/
theorem State.closePass_works (s : State) : Works .evaluation s s.closePass :=
  .trans (.single (.run s { s.rc with endRequests := s.rc.endRequests ++ s.ste.endCause.toList } rfl))
    (.single (.steps _ { s.ste with pass := Pass.none } rfl id (.inl rfl) (.inr (List.prefix_refl _))))

/-- R33: an event joins the look-back list. -/
theorem State.append_works (s : State) (x : Event) : Works .evaluation s (s.setSte (s.ste.append x)) := by
  obtain ⟨heq, hlt, hfull⟩ := Ste.append_spec s.ste x
  refine .single (.steps _ _ (by rw [heq]) (fun h => ?_) (.inl rfl) (.inr (by rw [heq])))
  unfold Ste.fitsLookback at *
  by_cases hl : s.ste.lookback.length < 64
  · rw [(hlt hl).1]; simpa using hl
  · rcases hq : s.ste.lookback with _ | ⟨y, ys⟩
    · simp [hq] at hl
    · rw [(hfull y ys hq (by omega)).1]
      simp [hq] at h ⊢
      omega

/-- R10: the work at start. -/
theorem State.startRun_works (hl : s.live = true) (time : Nat) : Works .evaluation s (s.startRun time) := by
  have h1 : Works .evaluation s (s.setRc (s.rc.started time)) := .single (.run _ _ hl.symm)
  have h2 := h1.trans (State.hand_works _ .run { time, body := .runStarted (s.setRc (s.rc.started time)).rc.active.source }
    (by simp [Rec.units, RecBody.units]) (by simp [Rec.closesRun]))
  have h3 := h2.trans (State.raise_works _ .runStart)
  have h4 := (h3.trans (State.openStarts_works ((Works.live h3).trans hl) time)).trans (State.closePass_works _)
  unfold State.startRun
  dsimp only
  split
  · exact h4.trans (State.fireTrigger_works _ _)
  · exact h4

/-- R32: one delivery. -/
theorem State.deliver_works (s : State) (x : Event) : Works .evaluation s (s.deliver x) := by
  unfold State.deliver
  split
  · exact .refl
  · exact .refl
  · rename_i h
    have hl : s.live = true := s.live_iff.2 (.inl h)
    dsimp only
    split
    · exact (s.append_works x).trans (State.startRun_works (s := s.setSte (s.ste.append x)) hl _)
    · exact s.append_works x
  · rename_i h
    have hl : s.live = true := s.live_iff.2 (.inr h)
    unfold State.deliverRunning
    exact ((s.append_works x).trans (Works.foldl_live (fun u j hu => offerTo_works x hu j) (by exact hl) _)).trans
      (State.closePass_works _)

theorem State.deliverNext_works (s : State) : Works .delivery s s.deliverNext := by
  unfold State.deliverNext
  split
  · exact .refl
  · rename_i rest _
    exact .trans (.single (.steps s { s.ste with events := rest } rfl id (.inl rfl) (.inl rfl)))
      (Works.delivery (State.deliver_works _ _))

theorem State.deliverFirst_works (n : Nat) (s : State) : Works .delivery s (s.deliverFirst n) := by
  induction n generalizing s with
  | zero => exact .refl
  | succ n ih => exact (State.deliverNext_works s).trans (ih _)

theorem State.settle_works (s : State) : Works .delivery s s.settle := State.deliverFirst_works _ s

/-- R37: the pass of decision times reached. -/
theorem State.decideAll_works (hl : s.live = true) : Works .evaluation s s.decideAll :=
  .trans (Works.foldl_live (fun _ j hu => decideStep_works hu j) hl _) (State.closePass_works _)

end

end Sys2Proof.Machine
end

section
/-! The take of a waiting record, and the requests that touch the store, keep the store's invariant (chapter 4). -/

namespace Sys2Proof.Machine

open Relation

/-- What the take of one record may change: the records, the counts and the state of the TS, and the flags. -/
structure TakeFrame (s t : State) : Prop where
  eq : t = { s with fu := t.fu, ts := { t.ts with
    staged := s.ts.staged, active := s.ts.active, input := s.ts.input, admitted := s.ts.admitted } }
  flags : s.fu.Sound → t.fu.Sound

theorem TakeFrame.trans {s t u : State} (h : TakeFrame s t) (k : TakeFrame t u) : TakeFrame s u :=
  ⟨by
    have e := k.eq
    rw [h.eq] at e
    simpa using e, fun hs => k.flags (h.flags hs)⟩

theorem TakeFrame.staged {s t : State} (h : TakeFrame s t) : t.ts.staged = s.ts.staged := by rw [h.eq]
theorem TakeFrame.active {s t : State} (h : TakeFrame s t) : t.ts.active = s.ts.active := by rw [h.eq]
theorem TakeFrame.input {s t : State} (h : TakeFrame s t) : t.ts.input = s.ts.input := by rw [h.eq]
theorem TakeFrame.admitted {s t : State} (h : TakeFrame s t) : t.ts.admitted = s.ts.admitted := by rw [h.eq]
theorem TakeFrame.live {s t : State} (h : TakeFrame s t) : t.live = s.live := by rw [h.eq]; rfl
theorem TakeFrame.mp {s t : State} (h : TakeFrame s t) : t.mp = s.mp := by rw [h.eq]
theorem TakeFrame.cp {s t : State} (h : TakeFrame s t) : t.cp = s.cp := by rw [h.eq]

section
variable (s : State)

theorem State.raise_takeFrame (f : Flag) : TakeFrame s (s.raise f) := ⟨rfl, Fu.raise_sound _ f⟩

theorem State.accept_takeFrame (before : Nat) (r : Rec) : TakeFrame s (s.accept before r) := by
  refine ⟨by rw [State.accept_eq], fun h => ?_⟩
  rw [State.accept_eq]
  exact (s.raiseIf_works (x := .plain) _ _).keeps_fu h

theorem State.lose_takeFrame : TakeFrame s s.lose := ⟨rfl, id⟩

theorem State.evict_takeFrame (size limit : Nat) : TakeFrame s (s.evict size limit) := ⟨rfl, id⟩

theorem State.stopStore_takeFrame : TakeFrame s s.stopStore := ⟨rfl, Fu.raise_sound _ .storeStop⟩

theorem State.setPost_takeFrame (n : Nat) : TakeFrame s (s.setTs { s.ts with post := n }) := ⟨rfl, id⟩

theorem State.takeRing_takeFrame (r : Rec) : TakeFrame s (s.takeRing r) :=
  (s.evict_takeFrame _ _).trans (State.accept_takeFrame _ _ _)

theorem State.takeTrig_takeFrame (r : Rec) : TakeFrame s (s.takeTrig r) :=
  (s.takeRing_takeFrame r).trans ⟨rfl, Fu.raise_sound _ .trigger⟩

theorem State.takeStop_takeFrame (r : Rec) : TakeFrame s (s.takeStop r) := by
  unfold State.takeStop
  split
  · exact s.lose_takeFrame
  · split
    · exact s.accept_takeFrame _ _
    · exact s.lose_takeFrame.trans (State.stopStore_takeFrame _)

theorem State.takeStream_takeFrame (r : Rec) : TakeFrame s (s.takeStream r) := by
  unfold State.takeStream
  split
  · exact s.accept_takeFrame _ _
  · exact s.lose_takeFrame.trans (State.raise_takeFrame _ _)

theorem State.takeWindow_takeFrame (r : Rec) : TakeFrame s (s.takeWindow r) := by
  unfold State.takeWindow
  split
  · exact s.lose_takeFrame
  · have h : TakeFrame s _ := ((s.evict_takeFrame r.units (s.ts.trigSeq.getD 0)).trans
      (State.accept_takeFrame _ s.ts.occupancy r)).trans (State.setPost_takeFrame _
        (((s.evict r.units (s.ts.trigSeq.getD 0)).accept s.ts.occupancy r).ts.post + r.units))
    dsimp only
    split
    · exact h.trans (State.stopStore_takeFrame _)
    · exact h
  · exact s.takeRing_takeFrame r

theorem State.takeOrdinary_takeFrame (r : Rec) : TakeFrame s (s.takeOrdinary r) := by
  unfold State.takeOrdinary
  split
  · exact s.takeStop_takeFrame r
  · exact s.takeRing_takeFrame r
  · exact s.takeStream_takeFrame r
  · exact s.takeWindow_takeFrame r

theorem State.takeRecord_takeFrame (r : Rec) : TakeFrame s (s.takeRecord r) := by
  unfold State.takeRecord
  split
  · exact s.accept_takeFrame _ _
  · exact s.takeTrig_takeFrame r
  · exact s.takeOrdinary_takeFrame r

end

/-! ## A store with records to take -/

/-- R53: the retained sequence numbers are below the next one. -/
theorem Ts.Sound.seq_lt {t : Ts} (h : t.Sound) {r : Stored} (hr : r ∈ t.records) : r.seq < t.nextSeq := by
  obtain ⟨-, hlen, hseq⟩ := h
  obtain ⟨i, hi, rfl⟩ := List.getElem_of_mem hr
  rw [hseq i hi]
  omega

/-- R64: the units of the records after number `n`. -/
def Ts.unitsAfter (t : Ts) (n : Nat) : Nat := unitsOf (t.records.filter fun r => decide (n < r.seq))

/-- R51, R64: the invariant of a store that has records to take, but for its input: there is room for RUN ENDED, and in WINDOW
the accepted TRIG record is retained, with P the units after it. -/
structure Ts.Holding (t : Ts) : Prop where
  sound : t.Sound
  room : t.occupancy ≤ 32765
  quota : 16 ≤ t.active.quota ∧ t.active.quota ≤ 32000
  trigger : t.active.mode = .window → t.state = .triggered ∨ t.state = .stopped →
    ∃ n, t.trigSeq = some n ∧ (∃ r ∈ t.records, r.seq = n ∧ r.record.isTrigger) ∧
      (t.state = .triggered → t.post < t.active.quota ∧ t.post = t.unitsAfter n)

/-- The store has no trigger position to keep: another mode than WINDOW, or before the trigger. -/
def Ts.untriggered (t : Ts) : Prop := t.active.mode = .window → ¬(t.state = .triggered ∨ t.state = .stopped)

section
variable {s : State} {r : Rec}

/-- R51: an acceptance for which there is room, with no trigger position to keep. -/
theorem State.accept_holding (h : s.ts.Holding) (before : Nat) (hu : s.ts.untriggered) (hr : s.ts.occupancy + r.units ≤ 32765) :
    (s.accept before r).ts.Holding := by
  have hs := s.accept_sound before r h.sound
  rw [State.accept_eq] at *
  exact ⟨hs, hr, h.quota, fun hm ht => absurd ht (hu hm)⟩

/-- R60: the RING rule makes room for any record that may wait. -/
theorem State.evict_room (h : s.ts.Sound) (hr : r.units ≤ 9) :
    (s.evict r.units s.ts.nextSeq).ts.occupancy + r.units ≤ 32762 := by
  obtain ⟨gone, hrec, hocc, -, -, hfit⟩ := evictFrom_spec r.units s.ts.nextSeq s.ts.records s.ts.occupancy h.1
  show (evictFrom r.units s.ts.nextSeq s.ts.records s.ts.occupancy).2 + r.units ≤ 32762
  rw [hocc]
  rcases hfit with hfit | hfit
  · exact hfit
  · cases hk : (evictFrom r.units s.ts.nextSeq s.ts.records s.ts.occupancy).1 with
    | nil => simp only [unitsOf_nil]; omega
    | cons x xs =>
      have hx : x ∈ s.ts.records := by rw [hrec, hk]; simp
      have := h.seq_lt hx
      have := hfit x (by rw [hk]; rfl)
      omega

/-- R60: a record taken by the RING rule, with no trigger position to keep. -/
theorem State.takeRing_holding (h : s.ts.Holding) (hu : s.ts.untriggered) (hr : r.units ≤ 9) : (s.takeRing r).ts.Holding := by
  have hroom := s.evict_room h.sound hr
  refine State.accept_holding ⟨s.evict_sound _ _ h.sound, by omega, h.quota, fun hm ht => absurd ht (hu hm)⟩ _ hu (by omega)

/-- R52: a loss keeps what a store holds. -/
theorem State.lose_holding (h : s.ts.Holding) : s.lose.ts.Holding := ⟨h.sound, h.room, h.quota, h.trigger⟩

/-- R59, R64: a store that stops keeps what it holds. -/
theorem State.stopStore_holding (h : s.ts.Holding) (ht : s.ts.active.mode = .window → s.ts.state = .triggered) :
    s.stopStore.ts.Holding := by
  refine ⟨h.sound, h.room, h.quota, fun hm _ => ?_⟩
  obtain ⟨n, hn, hrec, -⟩ := h.trigger hm (.inl (ht hm))
  exact ⟨n, hn, hrec, fun hst => by cases hst⟩

/-- R64: eviction below the trigger position keeps the TRIG record and what follows it, and makes room for any record that may
wait. -/
theorem State.evict_triggered (h : s.ts.Holding) (hm : s.ts.active.mode = .window) (ht : s.ts.state = .triggered)
    {n : Nat} (hn : s.ts.trigSeq = some n) (hr : r.units ≤ 9) : (s.evict r.units n).ts.Holding ∧
      (s.evict r.units n).ts.occupancy + r.units ≤ 32765 := by
  obtain ⟨gone, hrec, hocc, -, hlim, hfit⟩ := evictFrom_spec r.units n s.ts.records s.ts.occupancy h.sound.1
  have hsound := s.evict_sound r.units n h.sound
  have hasc := hsound.ascending
  obtain ⟨m, hm', ⟨x, hx, hxn, hxt⟩, hpost⟩ := h.trigger hm (.inl ht)
  obtain rfl : n = m := Option.some.inj (hn.symm.trans hm')
  obtain ⟨hlt, hpost⟩ := hpost ht
  have hkept : (s.evict r.units n).ts.records = (evictFrom r.units n s.ts.records s.ts.occupancy).1 := rfl
  have hocc' : (s.evict r.units n).ts.occupancy = unitsOf (s.evict r.units n).ts.records := hocc
  rw [← hkept] at hrec hfit
  generalize hkeq : (s.evict r.units n).ts.records = kept at *
  have hxk : x ∈ kept := by
    rw [hrec] at hx
    exact (List.mem_append.1 hx).resolve_left fun hg => absurd (hlim x hg) (by omega)
  have hafter : s.ts.unitsAfter n = unitsOf (kept.filter fun r => decide (n < r.seq)) := by
    have hgone : gone.filter (fun r => decide (n < r.seq)) = [] := by
      simp only [List.filter_eq_nil_iff, decide_eq_true_eq]
      exact fun y hy => by have := hlim y hy; omega
    rw [Ts.unitsAfter, hrec, List.filter_append, hgone, List.nil_append]
  have hroom : unitsOf kept + r.units ≤ 32765 := by
    rcases hfit with hfit | hfit
    · simp only [Config.ordinaryCeiling] at hfit; omega
    · cases kept with
      | nil => simp at hxk
      | cons y ys =>
        obtain ⟨hy, -⟩ := List.pairwise_cons.1 hasc
        have hny := hfit y rfl
        obtain rfl : x = y := (List.mem_cons.1 hxk).resolve_right fun hys => by have := hy x hys; omega
        have hys : ys.filter (fun r => decide (n < r.seq)) = ys := by
          simp only [List.filter_eq_self, decide_eq_true_eq]
          exact fun z hz => by have := hy z hz; omega
        obtain ⟨src, hsrc⟩ := hxt
        have hx2 : x.record.units = 2 := by simp [Rec.units, hsrc, RecBody.units]
        rw [List.filter_cons_of_neg (by simp [hxn]), hys] at hafter
        have := h.quota.2
        simp only [unitsOf_cons]
        omega
  refine ⟨⟨hsound, by rw [hocc']; omega, h.quota, fun _ _ => ⟨n, hn, ⟨x, by rw [hkeq]; exact hxk, hxn, hxt⟩, fun _ =>
    ⟨hlt, ?_⟩⟩⟩, by rw [hocc']; exact hroom⟩
  rw [Ts.unitsAfter, hkeq, ← hafter]
  exact hpost

/-- R64: an acceptance after the trigger adds the record's size to P. -/
theorem State.acceptAfter_holding (h : s.ts.Holding) (before : Nat) {n : Nat} (hn : s.ts.trigSeq = some n)
    (hrec : ∃ r ∈ s.ts.records, r.seq = n ∧ r.record.isTrigger) (hpost : s.ts.post = s.ts.unitsAfter n)
    (hroom : s.ts.occupancy + r.units ≤ 32765) (hq : s.ts.post + r.units < s.ts.active.quota) :
    ((s.accept before r).setTs { (s.accept before r).ts with post := (s.accept before r).ts.post + r.units }).ts.Holding := by
  have hs := s.accept_sound before r h.sound
  obtain ⟨x, hx, hxn, hxt⟩ := hrec
  have hlt := h.sound.seq_lt hx
  rw [State.accept_eq] at *
  refine ⟨hs, hroom, h.quota, fun _ _ => ⟨n, hn, ⟨x, List.mem_append_left _ hx, hxn, hxt⟩, fun _ => ⟨hq, ?_⟩⟩⟩
  have hnew : n < s.ts.nextSeq := hxn ▸ hlt
  show s.ts.post + r.units = _
  simp only [Ts.unitsAfter, State.setTs_ts, List.filter_append, unitsOf_append, hpost]
  simp [hnew]

/-- R64: a record taken after the trigger. -/
theorem State.takeWindow_holding (h : s.ts.Holding) (hm : s.ts.active.mode = .window) (hr : r.units ≤ 9) :
    (s.takeWindow r).ts.Holding := by
  unfold State.takeWindow
  split
  · exact State.lose_holding h
  · rename_i ht
    obtain ⟨n, hn, hrec, hpost⟩ := h.trigger hm (.inl ht)
    obtain ⟨he, hroom⟩ := State.evict_triggered h hm ht hn hr
    rw [hn, Option.getD_some]
    obtain ⟨m, hm', hrec', hpost'⟩ := he.trigger hm (.inl ht)
    obtain rfl : n = m := Option.some.inj (hn.symm.trans hm')
    have hs := State.accept_sound _ s.ts.occupancy r he.sound
    dsimp only
    split
    · obtain ⟨x, hx, hxt⟩ := hrec'
      rw [State.accept_eq] at hs
      rw [State.accept_eq]
      exact ⟨hs, hroom, h.quota, fun _ _ => ⟨n, hn, ⟨x, List.mem_append_left _ hx, hxt⟩, fun hst => by cases hst⟩⟩
    · rename_i hq
      exact State.acceptAfter_holding he s.ts.occupancy hn hrec' (hpost' ht).2 hroom (by
        rw [State.accept_eq] at hq; exact Nat.lt_of_not_le hq)
  · rename_i hns hnt
    exact State.takeRing_holding h (fun _ hst => hst.elim hnt hns) hr

/-- R59, R60, R61, R64: an ordinary record taken under the active mode. -/
theorem State.takeOrdinary_holding (h : s.ts.Holding) (hr : r.units ≤ 9) : (s.takeOrdinary r).ts.Holding := by
  have other : ∀ m, s.ts.active.mode = m → m ≠ .window → s.ts.untriggered := fun m hm hw hm' => absurd (hm.symm.trans hm') hw
  have fits : s.ts.fits r.units = true → s.ts.occupancy + r.units ≤ 32765 := fun hf => by
    have : s.ts.occupancy + r.units ≤ 32762 := of_decide_eq_true hf
    omega
  unfold State.takeOrdinary
  split
  · rename_i hm
    unfold State.takeStop
    split
    · exact State.lose_holding h
    · split
      · rename_i hf
        exact State.accept_holding h _ (other _ hm (by decide)) (fits hf)
      · exact State.stopStore_holding (State.lose_holding h) fun hm' => absurd (hm.symm.trans hm') (by decide)
  · rename_i hm
    exact State.takeRing_holding h (other _ hm (by decide)) hr
  · rename_i hm
    unfold State.takeStream
    split
    · rename_i hf
      exact State.accept_holding h _ (other _ hm (by decide)) (fits hf)
    · exact State.lose_holding h
  · rename_i hm
    exact State.takeWindow_holding h hm hr

/-- R63: the TRIG record taken. -/
theorem State.takeTrig_holding (h : s.ts.Holding) (ht : r.isTrigger) : (s.takeTrig r).ts.Holding := by
  obtain ⟨src, hsrc⟩ := ht
  have hr : r.units = 2 := by simp [Rec.units, hsrc, RecBody.units]
  have hroom := s.evict_room (r := r) h.sound (by omega)
  have hs := s.takeRing_sound r h.sound
  have hev := s.evict_sound r.units s.ts.nextSeq h.sound
  have hq : 0 < s.ts.active.quota := by have := h.quota.1; omega
  unfold State.takeTrig
  unfold State.takeRing at *
  rw [State.accept_eq] at *
  refine ⟨hs, by show _ + _ ≤ _; omega, h.quota, fun _ _ => ⟨s.ts.nextSeq, rfl,
    ⟨⟨s.ts.nextSeq, r⟩, List.mem_append_right _ (List.mem_singleton.2 rfl), rfl, src, hsrc⟩, fun _ => ⟨hq, ?_⟩⟩⟩
  have hnone : ∀ x ∈ (s.evict r.units s.ts.nextSeq).ts.records, ¬s.ts.nextSeq < x.seq := fun x hx => by
    have : x.seq < s.ts.nextSeq := hev.seq_lt hx
    omega
  show 0 = _
  simp only [Ts.unitsAfter, State.raise_ts, State.setTs_ts, List.filter_append, unitsOf_append]
  rw [List.filter_eq_nil_iff.2 (by simpa using hnone)]
  simp [State.evict]

/-- R51, R59 to R64: a record other than RUN ENDED taken by its kind. -/
theorem State.takeRecord_holding (h : s.ts.Holding) (hr : r.units ≤ 9) (hn : ¬r.closesRun) : (s.takeRecord r).ts.Holding := by
  unfold State.takeRecord
  split
  · rename_i hb; exact absurd ⟨_, _, _, _, hb⟩ hn
  · rename_i hb; exact State.takeTrig_holding h ⟨_, hb⟩
  · exact State.takeOrdinary_holding h hr

/-! ## The take of a waiting record -/

/-- R51, R64: the store that has records to take, and no record admitted with a GAP, holds what it should. -/
theorem State.StoreSound.holding (hs : s.StoreSound) (hin : s.ts.input ≠ []) (ha : s.ts.admitted = false) :
    s.ts.Holding where
  sound := hs.sound
  room := hs.roomy.reserve (.inr hin)
  quota := ⟨hs.roomy.quotas.1, hs.roomy.quotas.2.1⟩
  trigger := fun hm ht => by
    obtain ⟨n, hn, hrec, hpost⟩ := hs.trigger hm ht
    exact ⟨n, hn, hrec, fun hst => hpost hst (.inr hin) ha⟩

/-- R52: RUN ENDED is taken last. -/
theorem State.StoreSound.taken_ended (hs : s.StoreSound) {k : Nat} {w : Waiting} (hmay : s.ts.mayTake s.clock k = true)
    (hk : s.ts.input[k]? = some w) (hc : w.record.closesRun) : s.live = false ∧ s.ts.input = [w] ∧ k = 0 := by
  have hw : w ∈ s.ts.input := List.mem_of_getElem? hk
  have hl : s.live = false := Bool.eq_false_iff.2 fun hl => hs.roomy.running hl w hw hc
  obtain ⟨before, x, hin, hx, hbefore⟩ := hs.roomy.ended hl (List.ne_nil_of_mem hw)
  have hk' : k = before.length := by
    rw [hin] at hk
    rcases Nat.lt_trichotomy k before.length with h | h | h
    · rw [List.getElem?_append_left h] at hk
      exact absurd hc (hbefore w (List.mem_of_getElem? hk))
    · exact h
    · rw [List.getElem?_eq_none (by simp; omega)] at hk; cases hk
  have hnil : before = [] := by
    by_contra hne
    obtain ⟨y, ys, rfl⟩ := List.exists_cons_of_ne_nil hne
    cases ha : s.ts.admitted with
    | true =>
      obtain ⟨-, -, hz⟩ := (Ts.mayTake_admitted ha).1 hmay
      simp only [List.length_cons] at hk'; omega
    | false =>
      obtain ⟨-, w', hw', hpass, -⟩ := Ts.mayTake_spec ha hmay
      obtain rfl : w' = w := Option.some.inj (hw'.symm.trans hk)
      have hy := hpass y (by rw [hin, hk']; simp)
      obtain ⟨src, c, v, ff, hb⟩ := hc
      simp [Waiting.mayPass, RecBody.isTrig, RecBody.isEnded, hb] at hy
  subst hnil
  refine ⟨hl, ?_, by simpa using hk'⟩
  rw [hk', hin] at hk
  simp at hk
  rw [hin, hk]; rfl

/-- R52: the records left after a take, while the run or its closing record is still to come. -/
theorem State.StoreSound.left_ended (hs : s.StoreSound) {k : Nat} {w : Waiting} (hk : s.ts.input[k]? = some w)
    (hc : ¬w.record.closesRun) (hl : s.live = false) : ∃ before x, s.ts.input.eraseIdx k = before ++ [x] ∧
      x.record.closesRun ∧ ∀ e ∈ before, ¬e.record.closesRun := by
  have hw : w ∈ s.ts.input := List.mem_of_getElem? hk
  obtain ⟨before, x, hin, hx, hbefore⟩ := hs.roomy.ended hl (List.ne_nil_of_mem hw)
  have hlt : k < before.length := by
    rw [hin] at hk
    by_contra hge
    rw [List.getElem?_append_right (by omega)] at hk
    have hwx : w ∈ [x] := List.mem_of_getElem? hk
    exact hc (List.mem_singleton.1 hwx ▸ hx)
  refine ⟨before.eraseIdx k, x, ?_, hx, fun e he => hbefore e (List.mem_of_mem_eraseIdx he)⟩
  rw [hin, List.eraseIdx_append_of_lt_length hlt]

/-- The number of waiting records awaited, as the record at `k` leaves. -/
theorem awaited_eraseIdx {l : List Waiting} {k : Nat} {w : Waiting} (hk : l[k]? = some w) :
    (l.filter Waiting.awaited).length = ((l.eraseIdx k).filter Waiting.awaited).length + if w.awaited then 1 else 0 := by
  induction l generalizing k with
  | nil => simp at hk
  | cons x xs ih =>
    cases k with
    | zero =>
      obtain rfl : x = w := by simpa using hk
      cases h : x.awaited <;> simp [h]
    | succ k =>
      have := ih (k := k) (by simpa using hk)
      cases h : x.awaited <;> simp [h, this]; omega

/-- R52: a store sound but for the record at `k`, which has been taken. -/
theorem State.StoreSound.taken (hs : s.StoreSound) {k : Nat} {w : Waiting} (hmay : s.ts.mayTake s.clock k = true)
    (hk : s.ts.input[k]? = some w) {f : Fu} {u : Ts} {m : Mp} (hin : u.input = s.ts.input.eraseIdx k)
    (hact : u.active = s.ts.active) (hst : u.staged = s.ts.staged) (hadm : u.admitted = false) (hsound : u.Sound)
    (hcap : u.occupancy ≤ 32768) (hres : s.live = true ∨ u.input ≠ [] → u.occupancy ≤ 32765)
    (htrig : u.triggerKept s.live) (hm : m.inHand = if w.awaited then none else s.mp.inHand) :
    { s with fu := f, ts := u, mp := m }.StoreSound where
  sound := hsound
  roomy := {
    capacity := hcap
    reserve := hres
    sizes := fun x hx => hs.roomy.sizes x (List.mem_of_mem_eraseIdx (hin ▸ hx))
    quotas := by
      have := hs.roomy.quotas
      rw [← hact, ← hst] at this
      exact this
    running := fun hl x hx => hs.roomy.running hl x (List.mem_of_mem_eraseIdx (hin ▸ hx))
    ended := fun hl hne => by
      by_cases hc : w.record.closesRun
      · obtain ⟨-, hw, rfl⟩ := hs.taken_ended hmay hk hc
        rw [hw] at hin
        exact absurd hin hne
      · obtain ⟨before, x, h⟩ := hs.left_ended hk hc hl
        exact ⟨before, x, hin ▸ h⟩
    pair := fun ha => by simp [hadm] at ha }
  trigger := htrig
  marks := by
    have hcount := awaited_eraseIdx hk
    rw [hs.marks] at hcount
    show (u.input.filter Waiting.awaited).length = if m.inHand.isSome then 1 else 0
    rw [hin, hm]
    cases hw : w.awaited <;> cases hi : s.mp.inHand <;>
      simp only [hw, hi, Option.isSome_some, Option.isSome_none, if_true, if_false, Bool.false_eq_true] at hcount ⊢ <;> omega
  fragments := hs.fragments

/-- R51, R61, R62: the GAP accepted ahead of a record. -/
theorem State.StoreSound.takeGap (hs : s.StoreSound) {k : Nat} {w : Waiting} (hmay : s.ts.mayTake s.clock k = true)
    (hk : s.ts.input[k]? = some w) (hgap : s.ts.gapDue w) : (s.takeGap k w).StoreSound := by
  have hw : w ∈ s.ts.input := List.mem_of_getElem? hk
  have hsound := s.takeGap_sound k w hs.sound
  obtain ⟨hadm, -, hroom⟩ := hgap
  have hgu : s.ts.gapRecord.units = 3 := rfl
  have hocc : s.ts.occupancy + 3 ≤ 32765 := hroom.elim (fun h => h.2) fun h => by have := h.2.2.2; omega
  have hpair : w.record.closesRun ∨ (¬w.record.isTrigger ∧ s.ts.active.mode = .stream ∧
      s.ts.occupancy + 3 + w.record.units ≤ 32765) := by
    rcases hroom with h | ⟨-, ht, hm, hle⟩
    · exact .inl h.1
    · exact .inr ⟨ht, hm, by omega⟩
  have heq : ∃ lost gap, s.takeGap k w = { s with
      fu := (s.takeGap k w).fu
      ts := { s.ts with
        records := s.ts.records ++ [{ seq := s.ts.nextSeq, record := s.ts.gapRecord }], occupancy := s.ts.occupancy + 3
        nextSeq := s.ts.nextSeq + 1, lost := lost, gapStart := gap, input := w :: s.ts.input.eraseIdx k
        admitted := true, nextTake := s.clock + 1 } } := by
    unfold State.takeGap
    rw [State.accept_eq]
    dsimp only
    split <;> exact ⟨_, _, rfl⟩
  obtain ⟨lost, gap, heq⟩ := heq
  rw [heq] at hsound ⊢
  refine ⟨hsound, ⟨show s.ts.occupancy + 3 ≤ 32768 by omega, fun _ => hocc, ?_, hs.roomy.quotas, ?_, ?_, ?_⟩, ?_, ?_,
    hs.fragments⟩
  · exact fun x hx => hs.roomy.sizes x ((List.mem_cons.1 hx).elim (· ▸ hw) List.mem_of_mem_eraseIdx)
  · exact fun hl x hx => hs.roomy.running hl x ((List.mem_cons.1 hx).elim (· ▸ hw) List.mem_of_mem_eraseIdx)
  · intro hl _
    by_cases hc : w.record.closesRun
    · obtain ⟨-, hin, rfl⟩ := hs.taken_ended hmay hk hc
      exact ⟨[], w, by simp [hin], hc, by simp⟩
    · obtain ⟨before, x, hin, hx, hb⟩ := hs.left_ended hk hc hl
      exact ⟨w :: before, x, by simp [hin], hx, List.forall_mem_cons.2 ⟨hc, hb⟩⟩
  · exact fun _ => ⟨w, _, rfl, hpair⟩
  · intro hm ht
    obtain ⟨n, hn, ⟨x, hx, hxn⟩, -⟩ := hs.trigger hm ht
    exact ⟨n, hn, ⟨x, List.mem_append_left _ hx, hxn⟩, fun _ _ ha => by cases ha⟩
  · have hcount := awaited_eraseIdx hk
    rw [hs.marks] at hcount
    cases hwa : w.awaited <;> simp [hwa] at hcount ⊢ <;> omega

/-- R68: the answer to the MARK request in hand changes the MP, which has none in hand afterwards. -/
theorem State.answerMark_eq (s : State) (accepted : Bool) (seq : Nat) : ∃ m, s.answerMark accepted seq = { s with mp := m } ∧
    m.inHand = none ∧ m.queue = s.mp.queue ∧ m.reception = s.mp.reception := by
  unfold State.answerMark
  split
  · rename_i h; exact ⟨s.mp, rfl, h, rfl, rfl⟩
  · exact ⟨_, rfl, rfl, rfl, rfl⟩

/-- R52: a waiting record taken, with no GAP due: it leaves the input, and is taken by its kind, or as admitted with its GAP. -/
def State.takenRecord (s : State) (k : Nat) (w : Waiting) : State :=
  let s1 := s.setTs { s.ts with input := s.ts.input.eraseIdx k }
  if s.ts.admitted then s1.takeAdmitted w.record else s1.takeRecord w.record

/-- R52: a waiting record taken changes the TS and the flags. -/
theorem State.takenRecord_frame (s : State) (k : Nat) (w : Waiting) :
    s.takenRecord k w = { s with fu := (s.takenRecord k w).fu, ts := (s.takenRecord k w).ts } ∧
      (s.fu.Sound → (s.takenRecord k w).fu.Sound) ∧ (s.takenRecord k w).ts.input = s.ts.input.eraseIdx k ∧
      (s.takenRecord k w).ts.active = s.ts.active ∧ (s.takenRecord k w).ts.staged = s.ts.staged ∧
      (s.takenRecord k w).ts.admitted = false := by
  unfold State.takenRecord
  cases ha : s.ts.admitted with
  | true =>
    have hf := State.accept_takeFrame (s.setTs { s.ts with input := s.ts.input.eraseIdx k }) s.ts.occupancy w.record
    refine ⟨?_, hf.flags, hf.input, hf.active, hf.staged, rfl⟩
    simp only [State.takeAdmitted, State.accept_eq]; rfl
  | false =>
    have hf := State.takeRecord_takeFrame (s.setTs { s.ts with input := s.ts.input.eraseIdx k }) w.record
    exact ⟨by have := hf.eq; simp only [Bool.false_eq_true, if_false]; rw [this]; rfl, hf.flags, hf.input, hf.active,
      hf.staged, hf.admitted.trans ha⟩

/-- R51, R52: what the take of a record leaves of the store. -/
theorem State.StoreSound.takenRecord (hs : s.StoreSound) {k : Nat} {w : Waiting} (hmay : s.ts.mayTake s.clock k = true)
    (hk : s.ts.input[k]? = some w) : (s.takenRecord k w).ts.Sound ∧ (s.takenRecord k w).ts.occupancy ≤ 32768 ∧
      (s.live = true ∨ (s.takenRecord k w).ts.input ≠ [] → (s.takenRecord k w).ts.occupancy ≤ 32765) ∧
      (s.takenRecord k w).ts.triggerKept s.live := by
  have hw : w ∈ s.ts.input := List.mem_of_getElem? hk
  have hne : s.ts.input ≠ [] := List.ne_nil_of_mem hw
  have hocc := hs.roomy.reserve (.inr hne)
  have hsize := hs.roomy.sizes w hw
  obtain ⟨-, -, hinput, -⟩ := s.takenRecord_frame k w
  generalize hs1 : s.setTs { s.ts with input := s.ts.input.eraseIdx k } = s1
  generalize hu : s.takenRecord k w = u at *
  unfold State.takenRecord at hu
  simp only [hs1] at hu
  have h1sound : s1.ts.Sound := by rw [← hs1]; exact hs.sound
  -- with RUN ENDED taken nothing is left to take
  have hlast : w.record.closesRun → s.live = false ∧ s.ts.input.eraseIdx k = [] := fun hc => by
    obtain ⟨hl, hin, rfl⟩ := hs.taken_ended hmay hk hc
    exact ⟨hl, by rw [hin]; rfl⟩
  have hunits : w.record.closesRun → w.record.units = 3 := by
    rintro ⟨_, _, _, _, h⟩; simp [Rec.units, h, RecBody.units]
  -- RUN ENDED, or a record admitted with its GAP, is accepted as it comes
  have accepted : w.record.closesRun ∨ (¬w.record.isTrigger ∧ s.ts.active.mode = .stream ∧
        s.ts.occupancy + w.record.units ≤ 32765) → s.ts.occupancy + w.record.units ≤ 32768 ∧
      (s.live = true ∨ s.ts.input.eraseIdx k ≠ [] → s.ts.occupancy + w.record.units ≤ 32765) ∧
      ∀ t : Ts, t.active = s.ts.active → t.state = s.ts.state → t.trigSeq = s.ts.trigSeq → t.records =
        s.ts.records ++ [{ seq := s.ts.nextSeq, record := w.record }] → t.input = s.ts.input.eraseIdx k →
        t.triggerKept s.live := fun h => by
    refine ⟨?_, ?_, fun t ha hst htr hrec hin hm ht => ?_⟩
    · rcases h with hc | ⟨-, -, hle⟩
      · have := hunits hc; omega
      · omega
    · rintro hor
      rcases h with hc | ⟨-, -, hle⟩
      · obtain ⟨hl, hnil⟩ := hlast hc
        rcases hor with hor | hor
        · exact absurd (hor.symm.trans hl) (by decide)
        · exact absurd hnil hor
      · exact hle
    · rw [ha] at hm
      rw [hst] at ht
      obtain ⟨n, hn, ⟨x, hx, hxn⟩, -⟩ := hs.trigger hm ht
      refine ⟨n, htr.trans hn, ⟨x, by rw [hrec]; exact List.mem_append_left _ hx, hxn⟩, fun _ hor _ => ?_⟩
      rcases h with hc | ⟨-, hstream, -⟩
      · obtain ⟨hl, hnil⟩ := hlast hc
        rcases hor with hor | hor
        · exact absurd (hor.symm.trans hl) (by decide)
        · exact absurd (hin.trans hnil) hor
      · rw [hm] at hstream; cases hstream
  cases ha : s.ts.admitted with
  | true =>
    obtain ⟨-, -, rfl⟩ := (Ts.mayTake_admitted ha).1 hmay
    obtain ⟨w', ws, hin, hpair⟩ := hs.roomy.pair ha
    obtain rfl : w' = w := by rw [hin] at hk; simpa using hk
    obtain ⟨hcap, hres, htrig⟩ := accepted hpair
    have hsound := s1.takeAdmitted_sound w'.record h1sound
    simp only [ha, if_true] at hu
    subst hu
    unfold State.takeAdmitted at *
    rw [State.accept_eq] at *
    subst hs1
    exact ⟨hsound, hcap, hres, htrig _ rfl rfl rfl rfl rfl⟩
  | false =>
    simp only [ha, Bool.false_eq_true, if_false] at hu
    subst hu
    by_cases hc : w.record.closesRun
    · obtain ⟨hcap, hres, htrig⟩ := accepted (.inl hc)
      have hsound := s1.accept_sound s1.ts.occupancy w.record h1sound
      have htake : s1.takeRecord w.record = s1.accept s1.ts.occupancy w.record := by
        obtain ⟨_, _, _, _, hb⟩ := hc
        simp only [State.takeRecord, hb]
      rw [htake] at *
      rw [State.accept_eq] at *
      subst hs1
      exact ⟨hsound, hcap, hres, htrig _ rfl rfl rfl rfl rfl⟩
    · have hh : s1.ts.Holding := by
        have := hs.holding hne ha
        subst hs1
        exact ⟨this.sound, this.room, this.quota, this.trigger⟩
      have := State.takeRecord_holding hh hsize hc
      refine ⟨this.sound, this.room.trans (by decide), fun _ => this.room, fun hm ht => ?_⟩
      obtain ⟨n, hn, hrec, hpost⟩ := this.trigger hm ht
      exact ⟨n, hn, hrec, fun hst _ _ => hpost hst⟩

/-- R52: the take of a waiting record. -/
theorem State.takeWaiting_works {k : Nat} (hmay : s.ts.mayTake s.clock k = true) :
    Works .plain s (s.takeWaiting k) := by
  cases hk : s.ts.input[k]? with
  | none => simp only [State.takeWaiting, hk]; exact .refl
  | some w =>
    obtain ⟨hgap, hno⟩ := s.takeWaiting_cases k w hk
    by_cases hg : s.ts.gapDue w
    · rw [hgap hg]
      have hflags : s.fu.Sound → (s.takeGap k w).fu.Sound := (s.accept_takeFrame s.ts.occupancy s.ts.gapRecord).flags
      have heq : s.takeGap k w = { s with fu := (s.takeGap k w).fu, ts := (s.takeGap k w).ts, mp := s.mp } := by
        unfold State.takeGap; rw [State.accept_eq]; rfl
      rw [heq]
      exact .single (.store _ _ _ _ rfl hflags id fun hs => heq ▸ hs.takeGap hmay hk hg)
    · obtain ⟨heq, hflags, hin, hact, hst, hadm⟩ := s.takenRecord_frame k w
      have hv : ∀ n, (s.takenRecord k w).setTs { (s.takenRecord k w).ts with nextTake := n } =
          { s with fu := (s.takenRecord k w).fu, ts := { (s.takenRecord k w).ts with nextTake := n }, mp := s.mp } :=
            fun n => by
        rw [heq]; rfl
      have key : ∀ n m, m.queue = s.mp.queue → m.reception = s.mp.reception →
          m.inHand = (if w.awaited then none else s.mp.inHand) → Works .plain s { s with
            fu := (s.takenRecord k w).fu, ts := { (s.takenRecord k w).ts with nextTake := n }, mp := m } :=
        fun n m hq hr hm => .single (.store _ _ _ _ rfl hflags (fun h => by unfold Mp.fitsQueue at *; rw [hq, hr]; exact h)
          fun hs => by
            obtain ⟨hsound, hcap, hres, htrig⟩ := hs.takenRecord hmay hk
            exact hs.taken hmay hk hin hact hst hadm hsound hcap hres htrig hm)
      rw [hno hg]
      change Works .plain s (if w.awaited = true then s.beside (((s.takenRecord k w).setTs { (s.takenRecord k w).ts with
          nextTake := s.clock + ((s.takenRecord k w).ts.nextSeq - s.ts.nextSeq) }).answerMark
            ((s.takenRecord k w).ts.nextSeq != s.ts.nextSeq) ((s.takenRecord k w).ts.nextSeq - 1))
        else (s.takenRecord k w).setTs { (s.takenRecord k w).ts with
          nextTake := s.clock + ((s.takenRecord k w).ts.nextSeq - s.ts.nextSeq) })
      rw [hv]
      split
      · rename_i ha
        obtain ⟨m, hm, hnone, hq, hr⟩ := State.answerMark_eq { s with
          fu := (s.takenRecord k w).fu, mp := s.mp, ts := { (s.takenRecord k w).ts with
            nextTake := s.clock + ((s.takenRecord k w).ts.nextSeq - s.ts.nextSeq) } }
          ((s.takenRecord k w).ts.nextSeq != s.ts.nextSeq) ((s.takenRecord k w).ts.nextSeq - 1)
        rw [hm]
        obtain ⟨b, hb⟩ := State.beside_eq s { s with
          fu := (s.takenRecord k w).fu, mp := m, ts := { (s.takenRecord k w).ts with
            nextTake := s.clock + ((s.takenRecord k w).ts.nextSeq - s.ts.nextSeq) } }
        rw [hb]
        exact key _ _ hq hr (by rw [if_pos ha]; exact hnone)
      · rename_i ha
        exact key _ _ rfl rfl (by rw [if_neg ha])

end

end Sys2Proof.Machine
end

section
/-! Every command but the resets, ARM, the ends of a run and PERMIT_SET is a chain of elementary changes: the scope of its
work, and its work, command by command. -/

namespace Sys2Proof.Machine

open Relation

section
variable {x : Scope} (s : State)

/-! ## Requests (R133, R134) -/

/-- R134: the head entry leaves the queue. -/
theorem Mp.pop_fits {m : Mp} (h : m.fitsQueue) : m.pop.fitsQueue := by
  unfold Mp.fitsQueue Mp.pop at *
  simp only [List.length_tail] at *
  omega

theorem State.pop_works : Works x s { s with mp := s.mp.pop } := .single (.port _ _ Mp.pop_fits rfl)

theorem State.reply_works (r : Reply) : Works x s (s.reply r) := .single (.port _ _ id rfl)

theorem State.beside_works (t : State) : Works x t (s.beside t) := by
  obtain ⟨m, hm⟩ := s.beside_eq t
  rw [hm]; exact .single (.port _ _ id rfl)

/-- R134: a request taken is its owner's work, with the work of the MP before and after it. -/
theorem takeRequest_works {c : Instr} {k t : Byte} {owner : State → Answer}
    (h : ∀ u : State, Works x u (owner u).state) : Works x s (takeRequest c k t owner s) := by
  unfold takeRequest
  split
  · refine (s.pop_works.trans ?_).trans (State.beside_works s _)
    split
    · exact (h _).trans (State.reply_works _ _)
    · exact State.reply_works _ _
  · exact .refl

theorem State.answerEntry_works (c : Instr) (e : Entry) : Works x s (s.answerEntry c e) := by
  unfold State.answerEntry
  split
  · exact s.pop_works.trans (State.reply_works _ _)
  · exact .refl

/-! ## Frames and the link (R133, R134, R138) -/

/-- R134: the bytes of the stream leave the request in hand. -/
theorem Mp.receive_inHand {m m' : Mp} (bytes : Bytes) (h : m.receive bytes = some m') : m'.inHand = m.inHand := by
  have hbyte : ∀ (m : Mp) (b : Byte), (m.takeByte b).inHand = m.inHand := fun m b => by
    unfold Mp.takeByte
    dsimp only
    split
    · rfl
    · split
      · rfl
      · split
        · rfl
        · split <;> rfl
  induction bytes generalizing m with
  | nil => cases h; rfl
  | cons b bs ih =>
    simp only [Mp.receive] at h
    split at h
    · exact (ih h).trans (hbyte m b)
    · cases h

theorem State.receive_works {m : Mp} (bytes : OutBytes) (h : s.mp.receive bytes.bytes = some m) :
    Works x s { s with mp := m.endTransfer bytes.ends } := by
  have hq : (m.endTransfer bytes.ends).queue = m.queue ∧ (m.endTransfer bytes.ends).reception = m.reception ∧
      (m.endTransfer bytes.ends).inHand = m.inHand := by
    unfold Mp.endTransfer; split <;> exact ⟨rfl, rfl, rfl⟩
  obtain ⟨hq, hr, hi⟩ := hq
  refine .single (.port _ _ (fun hf => ?_) (hi.trans (Mp.receive_inHand _ h)))
  have := Mp.receive_fits _ hf h
  unfold Mp.fitsQueue at *
  rw [hq, hr]; exact this

/-- R68: a record that is awaited no more is the same record. -/
theorem Waiting.unawaited_eq (w : Waiting) : w.unawaited.record = w.record ∧ w.unawaited.awaited = false := ⟨rfl, rfl⟩

/-- R138: a link reset. -/
theorem State.linkReset_works (detach : Bool) : Works .plain s { s with
    mp := s.mp.linkReset detach
    fu := { s.fu with slot := 0 }
    ts := { s.ts with input := s.ts.input.map Waiting.unawaited } } := by
  refine .single (.store _ _ _ _ rfl (fun _ => by simp [Fu.Sound]) (fun _ => by simp [Mp.fitsQueue, Mp.linkReset]) fun hs => ?_)
  refine ⟨hs.sound, ⟨hs.roomy.capacity, fun h => hs.roomy.reserve (h.imp_right fun hne he => hne (by simp [he])), ?_,
    hs.roomy.quotas, ?_, ?_, ?_⟩, ?_, ?_, hs.fragments⟩
  · intro w hw
    obtain ⟨v, hv, rfl⟩ := List.mem_map.1 hw
    exact hs.roomy.sizes v hv
  · intro hl w hw
    obtain ⟨v, hv, rfl⟩ := List.mem_map.1 hw
    exact hs.roomy.running hl v hv
  · intro hl hne
    obtain ⟨before, w, hin, hw, hb⟩ := hs.roomy.ended hl fun he => hne (by simp [he])
    refine ⟨before.map Waiting.unawaited, w.unawaited, by simp [hin], hw, fun e he => ?_⟩
    obtain ⟨v, hv, rfl⟩ := List.mem_map.1 he
    exact hb v hv
  · intro ha
    obtain ⟨w, ws, hin, h⟩ := hs.roomy.pair ha
    exact ⟨w.unawaited, ws.map Waiting.unawaited, by simp [hin], h⟩
  · intro hm ht
    obtain ⟨n, h1, h2, h3⟩ := hs.trigger hm ht
    exact ⟨n, h1, h2, fun hst hor ha => h3 hst (hor.imp_right fun hne he => hne (by simp [he])) ha⟩
  · simp [Mp.linkReset, List.filter_map, Waiting.unawaited, Function.comp_def]

theorem execReplySend_works {t : State} (h : execReplySend s = .next t) : Works x s t := by
  unfold execReplySend at h
  split at h <;> cases h
  · exact .single (.port _ _ id rfl)
  · exact .refl

theorem execNoticeSend_works {t : State} (h : execNoticeSend s = .next t) : Works x s t := by
  cases h
  split
  · exact .trans (.single (.flags s { s.fu with slot := 0 } (fun _ => by simp [Fu.Sound]) (.inr (.refl _))))
      (.single (.port _ _ id rfl))
  · exact .refl

/-! ## The flags (R136, R137) -/

/-- R137: the slot is sound where each of its flags is set and enabled. -/
theorem Fu.sound_iff (u : Fu) : u.Sound ↔
    ∀ n, u.slot.getLsbD n = true → u.flags.getLsbD n = true ∧ u.enables.getLsbD n = true := by
  unfold Fu.Sound
  constructor
  · intro h n hs
    have hn : n < 15 := BitVec.lt_of_getLsbD hs
    have := congrArg (fun b : BitVec 15 => b.getLsbD n) h
    simpa [hs, hn] using this
  · intro h
    refine BitVec.eq_of_getLsbD_eq fun n hn => ?_
    cases hs : u.slot.getLsbD n
    · simp [hs]
    · obtain ⟨h1, h2⟩ := h n hs
      simp [hs, hn, h1, h2]

theorem Fu.enable_sound (u : Fu) (m : BitVec 15) (h : u.Sound) : (u.enable m).Sound := by
  rw [Fu.sound_iff] at *
  intro n hn
  simp only [Fu.enable, BitVec.getLsbD_and, BitVec.getLsbD_or, BitVec.getLsbD_not, Bool.and_eq_true, Bool.or_eq_true] at hn ⊢
  exact ⟨hn.1.elim (fun hs => (h n hs).1) (·.2), hn.2⟩

theorem Fu.clear_sound (u : Fu) (m : BitVec 15) (h : u.Sound) : (u.clear m).Sound := by
  rw [Fu.sound_iff] at *
  intro n hn
  simp only [Fu.clear, BitVec.getLsbD_and, Bool.and_eq_true] at hn ⊢
  exact ⟨⟨(h n hn.1).1, hn.2⟩, (h n hn.1).2⟩

theorem flagsEnableOwner_works (mask : BitVec 16) : Works .plain s (flagsEnableOwner mask s).state := by
  unfold flagsEnableOwner
  split
  · exact .refl
  · exact .single (.flags _ _ (Fu.enable_sound _ _) (.inl rfl))

theorem flagsClearOwner_works (mask : BitVec 16) : Works .plain s (flagsClearOwner mask s).state := by
  unfold flagsClearOwner
  split
  · exact .refl
  · exact .single (.flags _ _ (Fu.clear_sound _ _) (.inl rfl))

/-! ## The run, the plan and the evaluation of steps (chapters 1 to 3) -/

theorem runsetPutOwner_works (b : Bytes) : Works x s (runsetPutOwner b s).state := by
  unfold runsetPutOwner
  split
  · exact .refl
  · exact .single (.run _ _ rfl)

theorem runsetGetOwner_works (copy : Byte) : Works x s (runsetGetOwner copy s).state := by
  unfold runsetGetOwner; split <;> exact .refl

theorem startOwner_works : Works .evaluation s (startOwner s).state := by
  unfold startOwner
  split
  · rename_i h
    simp only [State.mayStart, Bool.and_eq_true, beq_iff_eq] at h
    dsimp only [okay]
    exact State.startRun_works (s.live_iff.2 (.inl h.1)) s.rc.timeBase
  · exact .refl

theorem planPutOwner_works (entry used : Byte) (b : Bytes) : Works x s (planPutOwner entry used b s).state := by
  unfold planPutOwner
  split
  · exact .single (.steps _ _ rfl id (.inr rfl) (.inr (List.prefix_refl _)))
  · exact .refl

theorem planGetOwner_works (entry copy : Byte) : Works x s (planGetOwner entry copy s).state := by
  unfold planGetOwner; split <;> exact .refl

theorem State.takeEvent_works (k : Nat) : Works .delivery s (match s.ste.deliverable k with
    | none => s
    | some e => (s.setSte { s.ste with events := s.ste.events.eraseIdx k }).deliver e) := by
  split
  · exact .refl
  · exact .trans (.single (.steps s { s.ste with events := s.ste.events.eraseIdx k } rfl id (.inr rfl) (.inl rfl)))
      (Works.delivery (State.deliver_works _ _))

theorem State.takeDecisions_works : Works .evaluation s (if s.decisionsDue then s.decideAll else s) := by
  split
  · rename_i h
    refine State.decideAll_works (s.live_iff.2 (.inr ?_))
    exact (s.decisionsDue_iff.1 h).1
  · exact .refl

/-! ## The Trace Store (chapter 4) -/

/-- R56: the settings that STORE_SET stages have their quota in range. -/
theorem StoreSettings.dec_quota {b : Bytes} {r : StoreSettings} (h : StoreSettings.dec b = some r) :
    16 ≤ r.quota ∧ r.quota ≤ 32000 := by
  unfold StoreSettings.dec at h
  cases hm : StoreMode.dec (byteAt b 0) with
  | none => simp [hm] at h
  | some m =>
    simp only [hm, Option.bind_eq_bind, Option.bind_some, Option.some.injEq] at h
    subst h
    simp only [clamp]
    omega

theorem storeSetOwner_works (b : Bytes) : Works .plain s (storeSetOwner b s).state := by
  unfold storeSetOwner
  split
  · exact .refl
  · rename_i r hr
    have hq := StoreSettings.dec_quota hr
    refine .single (.store s s.fu { s.ts with staged := r } s.mp rfl id id fun hs => ?_)
    exact { hs with roomy := { hs.roomy with quotas := ⟨hs.roomy.quotas.1, hs.roomy.quotas.2.1, hq⟩ } }

theorem fetchOwner_works (start max : Nat) : Works x s (fetchOwner start max s).state := by
  unfold fetchOwner
  split
  · exact .refl
  · split <;> exact .refl

/-- R67: a release in STREAM. -/
theorem State.StoreSound.keptAbove {s : State} (hs : s.StoreSound) (hm : s.ts.active.mode = .stream) (n : Nat) :
    (s.setTs (s.ts.keptAbove n)).StoreSound := by
  obtain ⟨gone, happ, -, -, -⟩ := releaseUpTo_spec n s.ts.records s.ts.occupancy hs.sound.1
  have hrel := releaseUpTo_of_sound hs.sound n
  rw [hrel] at happ
  have hsound := Ts.suffix_sound s.ts gone _ hs.sound happ
  have hle : (s.ts.keptAbove n).occupancy ≤ s.ts.occupancy := by
    have hocc : s.ts.occupancy = unitsOf s.ts.records := hs.sound.1
    rw [hocc, happ, unitsOf_append]
    exact Nat.le_add_left _ _
  exact {
    sound := hsound
    roomy := { hs.roomy with
      capacity := hle.trans hs.roomy.capacity
      reserve := fun h => hle.trans (hs.roomy.reserve h)
      pair := fun ha => by
        obtain ⟨w, ws, hin, h⟩ := hs.roomy.pair ha
        exact ⟨w, ws, hin, h.imp_right fun ⟨h1, h2, h3⟩ => ⟨h1, h2, (Nat.add_le_add_right hle _).trans h3⟩⟩ }
    trigger := fun hw => absurd (hm.symm.trans hw) (by decide)
    marks := hs.marks
    fragments := hs.fragments }

theorem releaseOwner_works (n : Nat) : Works .plain s (releaseOwner n s).state := by
  by_cases hm : s.ts.active.mode = .stream
  · have heq : (releaseOwner n s).state = s.setTs { s.ts with
        records := (releaseUpTo n s.ts.records s.ts.occupancy).1
        occupancy := (releaseUpTo n s.ts.records s.ts.occupancy).2 } := by simp only [releaseOwner, hm, if_true]; rfl
    rw [heq]
    refine .single (.store s s.fu _ s.mp rfl id id fun hs => ?_)
    rw [releaseUpTo_of_sound hs.sound n]
    exact hs.keptAbove hm n
  · rw [releaseOwner_refused hm]; exact .refl

/-- R68: a MARK request in a run. -/
theorem State.mark_works {tag : Byte} {label : Bytes} (hnone : s.mp.inHand = none) (hl : s.live = true) :
    Works .plain s ({ s with mp := { s.mp.pop with inHand := some (0x25, tag) } }.enqueue (s.stationMark label)) := by
  refine .single (.store s s.fu { s.ts with input := s.ts.input ++ [s.stationMark label] }
    { s.mp.pop with inHand := some (0x25, tag) } rfl id Mp.pop_fits fun hs => ?_)
  refine ⟨hs.sound, ⟨hs.roomy.capacity, fun _ => hs.roomy.reserve (.inl hl), ?_, hs.roomy.quotas, ?_,
    fun h => absurd (hl.symm.trans h) (by decide), ?_⟩, ?_, ?_, hs.fragments⟩
  · exact fun w hw => (List.mem_append.1 hw).elim (hs.roomy.sizes w) fun h => by
      rw [List.mem_singleton.1 h]; simp [State.stationMark, Rec.units, RecBody.units]
  · exact fun _ w hw => (List.mem_append.1 hw).elim (hs.roomy.running hl w) fun h => by
      rw [List.mem_singleton.1 h]; simp [State.stationMark, Rec.closesRun]
  · intro ha
    obtain ⟨w, ws, hin, h⟩ := hs.roomy.pair ha
    exact ⟨w, ws ++ [s.stationMark label], by simp [hin], h⟩
  · intro hm ht
    obtain ⟨n, h1, h2, h3⟩ := hs.trigger hm ht
    exact ⟨n, h1, h2, fun hst _ ha => h3 hst (.inl hl) ha⟩
  · have hm := hs.marks
    rw [hnone] at hm
    simp only [Option.isSome_none, Bool.false_eq_true, if_false] at hm
    simp [List.filter_append, hm, State.stationMark]

theorem execMark_works {tag : Byte} {label : Bytes} {t : State} (h : execMark tag label s = .next t) : Works .plain s t := by
  cases h
  dsimp only
  split
  · rename_i h
    obtain ⟨⟨htake, -⟩, hl⟩ := by simpa only [Bool.and_eq_true] using h
    exact s.mark_works (Mp.canTake_inHand htake).1 hl
  · exact takeRequest_works s fun _ => .refl

end

end Sys2Proof.Machine
end

section
/-! The work of the commands of chapters 5 to 10. -/

namespace Sys2Proof.Machine

open Relation

section
variable {x : Scope} (s : State)

/-! ## The banks (chapter 5) -/

theorem bankSetOwner_works (bank : Byte) (b : Bytes) : Works .bank s (bankSetOwner bank b s).state := by
  unfold bankSetOwner
  split
  · rename_i c r _ _
    have h0 : Works .bank s (s.setLau c { s.lau[c] with settings := r, acq := none, trackWaiting := false }) :=
      s.setLau_works c _ rfl
    unfold State.bankSet
    dsimp only [okay]
    split
    · exact (h0.trans (State.startInterval_works _ _)).trans (State.beginAcq_works _ _ _)
    · exact h0.trans (State.setBank_works _ _ _ _)
  · exact .refl

theorem acquireOwner_works (bank : Byte) : Works x s (acquireOwner bank s).state := by
  unfold acquireOwner
  split
  · exact .refl
  · split
    · exact .refl
    · unfold State.acquire
      dsimp only [okay]
      refine .trans ?_ (State.beginAcq_works _ _ _)
      split
      · exact State.startInterval_works _ _
      · exact .refl

theorem bankQueryOwner_works (bank : Byte) : Works x s (bankQueryOwner bank s).state := by
  unfold bankQueryOwner; split <;> exact .refl

theorem State.intervalStart_works (b : Fin 4) : Works x s (s.intervalStart b) := by
  unfold State.intervalStart
  dsimp only
  split
  · exact (s.startInterval_works b).trans (State.setLau_works _ _ _ rfl)
  · exact (s.startInterval_works b).trans (State.beginAcq_works _ _ _)

theorem execAcquisitionEnd_works {b : Fin 4} {t : State} (h : execAcquisitionEnd b s = .next t) : Works .bank s t := by
  cases h
  split
  · split
    · exact s.endAcq_works b _
    · exact .refl
  · exact .refl

/-! ## The channels and monitors (chapter 6) -/

theorem chanSetOwner_works (channel : Byte) (b : Bytes) : Works x s (chanSetOwner channel b s).state := by
  unfold chanSetOwner
  split
  · split
    · exact .refl
    · exact .single (.channel _ _ _)
  · exact .refl

theorem rateSetOwner_works (monitor : Byte) (b : Bytes) : Works x s (rateSetOwner monitor b s).state := by
  unfold rateSetOwner
  split
  · split
    · exact .refl
    · exact .single (.monitor _ _ _)
  · exact .refl

theorem rateQueryOwner_works (monitor : Byte) : Works x s (rateQueryOwner monitor s).state := by
  unfold rateQueryOwner; split <;> exact .refl

theorem State.watchChannel_works (c : Fin 24) : Works x s (s.watchChannel c) := by
  unfold State.watchChannel
  split
  · exact .single (.channel _ _ _)
  · exact .refl

theorem State.pinMoved_works (pin : Pin) : Works x s (s.pinMoved pin) := by
  cases pin with
  | mc c => exact (s.watchChannel_works c).trans (State.sampleChannel_works _ c)
  | stb => exact s.sampleStb_works
  | rx p => exact s.sampleRx_works p
  | data _ => exact .refl
  | tdo => exact .refl
  | ref _ => exact .refl

theorem execRawInputChange_works {pin : Pin} {mv : Nat} {t : State} (h : execRawInputChange pin mv s = .next t) :
    Works x s t := by
  cases h
  exact .trans (.single (.pins s (s.pins.put pin mv))) (State.pinMoved_works _ _)

theorem execTransitionAccepted_works {c : Fin 24} {t : State} (h : execTransitionAccepted c s = .next t) :
    Works x s t := by
  cases h
  split
  · split
    · exact s.acceptTransition_works c _
    · exact .refl
  · exact .refl

/-! ## The code port (chapter 7) -/

theorem codeSetOwner_works (b : Bytes) : Works x s (codeSetOwner b s).state := by
  unfold codeSetOwner
  split
  · exact .refl
  · rename_i r _
    split
    · exact .refl
    · rename_i hl
      -- outside a run no CODE record is open
      have h0 : Works x s (s.setCdp { s.cdp with settings := r, foldFrom := none }) := .single (.code _ _ id fun _ hr p hp =>
        absurd (hr p hp).1 hl)
      exact h0.trans (State.setCdp_works _ _ rfl rfl rfl)

theorem State.codeHistory_works (clear : Bool) : Works x s (s.codeHistory clear).state := by
  unfold State.codeHistory
  dsimp only [okay]
  split
  · refine .single (.code _ _ (fun _ => ⟨Nat.zero_le _, fun e he => by cases he⟩) fun _ hr p hp => ?_)
    obtain ⟨h1, h2, h3, h4, -⟩ := hr p hp
    exact ⟨h1, h2, h3, h4, fun e es he => by cases he⟩
  · exact .refl

theorem codeHistoryOwner_works (option : Byte) : Works x s (codeHistoryOwner option s).state := by
  unfold codeHistoryOwner
  split
  · exact .refl
  · exact s.codeHistory_works _

theorem execStrobeEdge_works {t : State} (h : execStrobeEdge s = .next t) : Works x s t := by
  cases h
  split
  · exact (s.setCdp_works { s.cdp with reference := some s.readStb } rfl rfl rfl).trans (State.capture_works _ _)
  · exact .refl

theorem execStrobeBlankingEnd_works {t : State} (h : execStrobeBlankingEnd s = .next t) : Works x s t := by
  cases h
  split
  · exact (s.setCdp_works { s.cdp with blanking := none } rfl rfl rfl).trans (State.setCdp_works _ _ rfl rfl rfl)
  · exact .refl

theorem execFoldTimerExpiry_works {t : State} (h : execFoldTimerExpiry s = .next t) : Works x s t := by
  cases h
  split
  · exact (s.setCdp_works { s.cdp with foldFrom := none } rfl rfl rfl).trans (State.closeCode_works _)
  · exact .refl

/-! ## The console ports and the matchers (chapter 8) -/

theorem State.consSet_works (p : Fin 2) (r : ConsSettings) : Works x s (s.consSet p r) := by
  have h := (s.dropTransmit_works (x := x) p).trans (State.restartMatchers_works _ p)
  unfold State.consSet
  dsimp only
  generalize (s.dropTransmit p).restartMatchers p = u at *
  exact h.trans (u.setCp_works p _ rfl rfl le_rfl)

theorem consSetOwner_works (port : Byte) (b : Bytes) : Works x s (consSetOwner port b s).state := by
  unfold consSetOwner
  split
  · split
    · exact .refl
    · exact s.consSet_works _ _
  · exact .refl

theorem consSendOwner_works (port : Byte) (b : Bytes) : Works x s (consSendOwner port b s).state := by
  unfold consSendOwner
  split
  · exact .refl
  · rename_i p _
    split
    · exact .refl
    · split
      · exact .refl
      · split
        · exact .refl
        · split
          · exact .refl
          · rename_i hroom
            obtain ⟨hr, ht, hq⟩ := Cp.transmit_frame { s.cp[p] with queue := s.cp[p].queue ++ b } s.clock
            refine .single (.console s p _ (fun h => ?_) fun _ => hq.trans ?_)
            · unfold Cp.fragmentsSound at *
              rw [hr, ht]; exact h
            · simp only [List.length_append]
              exact Nat.le_of_not_lt hroom

theorem consQueryOwner_works (port : Byte) : Works x s (consQueryOwner port s).state := by
  unfold consQueryOwner; split <;> exact .refl

theorem matchSetOwner_works (matcher : Byte) (b : Bytes) : Works x s (matchSetOwner matcher b s).state := by
  unfold matchSetOwner
  split
  · split
    · exact .refl
    · exact .single (.matcher _ _ _ fun _ => .inl rfl)
  · exact .refl

theorem matchQueryOwner_works (matcher : Byte) : Works x s (matchQueryOwner matcher s).state := by
  unfold matchQueryOwner; split <;> exact .refl

theorem State.startByte_works (p : Fin 2) : Works x s (s.startByte p) :=
  (s.receiver_works p .receiving).trans (State.setCp_works _ _ _ rfl rfl le_rfl)

theorem State.arrival_works (p : Fin 2) : Works x s (s.arrival p) := by
  unfold State.arrival
  dsimp only
  split
  · exact s.setCp_works p _ rfl rfl le_rfl
  · exact (s.receiver_works p _).trans (State.takeByte_works _ _ _ _ _)

theorem State.heldTaken_works (p : Fin 2) : Works x s (s.heldTaken p) := by
  unfold State.heldTaken
  dsimp only
  split
  · exact (s.receiver_works p _).trans (State.takeByte_works _ _ _ _ _)
  · exact (s.receiver_works p _).trans (State.restartMatchers_works _ _)

theorem State.takeBreak_works (p : Fin 2) : Works x s (s.takeBreak p) :=
  ((s.receiver_works p _).trans (State.closeFragment_works _ p .rx true)).trans (State.restartMatchers_works _ _)

theorem State.sendTime_works (p : Fin 2) (f : InFlight) : Works x s (s.sendTime p f) := by
  have h0 : Works x s (s.setCp p { s.cp[p] with inFlight := some { f with complete := true } }) :=
    s.setCp_works p _ rfl rfl le_rfl
  unfold State.sendTime
  dsimp only
  split
  · exact h0.trans (State.addByte_works _ _ _ _ _ _)
  · exact h0

theorem execByteSendTime_works {p : Fin 2} {t : State} (h : execByteSendTime p s = .next t) : Works x s t := by
  cases h
  split
  · split
    · exact s.sendTime_works p _
    · exact .refl
  · exact .refl

theorem State.nextByte_works (p : Fin 2) : Works x s (s.setCp p ({ s.cp[p] with inFlight := none }.transmit s.clock)) := by
  obtain ⟨hr, ht, hq⟩ := Cp.transmit_frame { s.cp[p] with inFlight := none } s.clock
  exact s.setCp_works p _ hr ht hq

/-- A command of the part that acts where its condition holds. -/
theorem State.ifDue_works {c : Bool} {t : State} (h : Works x s t) : Works x s (if c then t else s) := by
  split
  · exact h
  · exact .refl

/-! ## The drive channels (chapter 9) -/

/-- A drive channel replaced twice. -/
@[simp] theorem State.setDc_setDc (c : Fin 8) (d d' : Dc) : (s.setDc c d).setDc c d' = s.setDc c d' := by
  simp [State.setDc]

/-- The drive channel replaced reads as the new one. -/
@[simp] theorem State.setDc_get_self (c : Fin 8) (d : Dc) : (s.setDc c d).dc[c] = d := by
  rw [State.setDc_get, if_pos rfl]

/-- R118, R120: the channel after a settings part that does not gate it on an ABSENT rail. -/
theorem State.channelSafe_apply {s : State} (hs : s.DrivesSafe) (c : Fin 8) (r : DrivePart)
    (h : s.driveBlocked c r.railGated = false ∨ s.dc[c].mode = .released) : s.channelSafe c (s.dc[c].apply r) := by
  refine ⟨fun hg ha => ?_, hs.mask c, hs.generators c⟩
  rcases h with h | h
  · have hg : r.railGated = true := hg
    simp [State.driveBlocked, hg, ha, -Fin.getElem_fin] at h
  · exact h

/-- R118, R120: the settings part, with the forced release of a channel that it gates while the rail is ABSENT. -/
theorem State.applyPart_works (c : Fin 8) (part : Option DrivePart) : Works x s (s.applyPart c part) := by
  unfold State.applyPart
  split
  · exact .refl
  · rename_i r
    dsimp only
    cases hb : s.driveBlocked c r.railGated with
    | false =>
      exact .single (.drive _ _ _ fun hs => State.channelSafe_apply hs c r (.inl hb))
    | true =>
      simp only [if_true]
      have hgate : r.railGated = true := by simp only [State.driveBlocked, Bool.and_eq_true] at hb; exact hb.1
      by_cases hm : s.dc[c].mode = .released
      · rw [State.forceRelease_of_idle _ _ (.inr (by rw [State.setDc_get_self]; exact hm))]
        exact .single (.drive _ _ _ fun hs => State.channelSafe_apply hs c r (.inr hm))
      · rw [State.forceRelease_of_driving _ _ (by rw [State.setDc_get_self]; exact hgate)
          (by rw [State.setDc_get_self]; exact hm), State.setDc_get_self, State.setDc_setDc]
        have h0 : Works x s (s.setDc c ((s.dc[c].apply r).operate .release)) := .single (.drive _ _ _ fun hs =>
          s.channelSafe_released c _ (Dc.operate_mode _ _) (Dc.operate_sound _ _ (hs.generators c)))
        exact (h0.trans (State.handDrive_works _ _ _ _)).trans (State.raise_works _ _)

/-- R118: a settings part sets the rail gating, and leaves the permit mask and the rails. -/
theorem State.applyPart_frame (c : Fin 8) (part : Option DrivePart) :
    (s.applyPart c part).permitMask = s.permitMask ∧ (s.applyPart c part).lau = s.lau ∧
      (s.applyPart c part).dc[c].railGated = s.dc[c].gatedAfter part := by
  unfold State.applyPart
  cases part with
  | none => exact ⟨rfl, rfl, rfl⟩
  | some r =>
    dsimp only
    split
    · refine ⟨by rw [State.forceRelease_eq]; rfl, by rw [State.forceRelease_eq]; rfl, ?_⟩
      unfold State.forceRelease
      split
      · show (State.handDrive _ _ _ _).dc[c].railGated = _
        rw [State.handDrive_eq]
        simp only [State.setDc_get_self]
        rw [(Dc.operate_settings _ _).2.2.1]
        rfl
      · rw [State.setDc_get_self]; rfl
    · exact ⟨rfl, rfl, by rw [State.setDc_get_self]; rfl⟩

theorem driveSetOwner_works (channel : Byte) (op : Option DriveOp) (part : Bytes) :
    Works x s (driveSetOwner channel op part s).state := by
  unfold driveSetOwner
  split
  · rename_i c r _ _
    split
    · exact .refl
    · rename_i hperm
      split
      · exact .refl
      · rename_i hblock
        obtain ⟨hmask, hlau, hgate⟩ := s.applyPart_frame c r
        unfold State.driveSet
        dsimp only [okay]
        split
        · exact s.applyPart_works c r
        · rename_i o
          refine (s.applyPart_works c r).trans (State.driveOperate_works _ c o .station fun hs =>
            State.channelSafe_operate o (hs.channel c) ?_ ?_)
          · rw [hmask]; simpa using hperm
          · rw [hlau, hgate]
            simp only [Option.any_some, State.driveBlocked, Bool.and_eq_true, not_and, Bool.not_eq_true'] at hblock
            cases ho : o.drives
            · exact .inl rfl
            · cases hg : s.dc[c].gatedAfter r
              · exact .inr (.inl rfl)
              · exact .inr (.inr (by simpa using hblock ho hg))
  · exact .refl

theorem driveSetByByte_works (channel op : Byte) (part : Bytes) : Works x s (driveSetByByte channel op part s).state := by
  unfold driveSetByByte
  split
  · exact driveSetOwner_works s _ _ _
  · exact .refl

theorem driveQueryOwner_works (channel : Byte) : Works x s (driveQueryOwner channel s).state := by
  unfold driveQueryOwner; split <;> exact .refl

theorem State.activateLevel_works (c : Fin 8) :
    Works x s (if s.dc[c].activeDue then s.setDc c { s.dc[c] with activeLevel := true } else s) := by
  split
  · rename_i h
    refine .single (.drive _ _ _ fun hs => ⟨hs.rails c, hs.mask c, (hs.generators c).1, fun hr => ?_⟩)
    have hrun : s.dc[c].running = true := by
      simp only [Dc.activeDue, Bool.and_eq_true] at h
      exact h.1.1.1
    exact absurd (hrun.symm.trans hr) (by decide)
  · exact .refl

/-- R116: the end of a period keeps the mode and the settings of the channel, and its generator sound. -/
theorem State.periodEnd_works (c : Fin 8) : Works x s (if s.dc[c].periodDue then s.endPeriod c else s) := by
  split
  · rename_i h
    have hrun : s.dc[c].running = true := by
      simp only [Dc.periodDue, Bool.and_eq_true] at h
      exact h.1
    have h0 : Works x s (s.setDc c s.dc[c].periodEnd) := by
      refine .single (.drive _ _ _ fun hs => ?_)
      have hm : s.dc[c].mode = .pulse := (hs.generators c).1 hrun
      have hmode : s.dc[c].periodEnd.mode = s.dc[c].mode := by
        unfold Dc.periodEnd; split
        · exact hm.symm
        · rfl
      have hgate : s.dc[c].periodEnd.railGated = s.dc[c].railGated := by unfold Dc.periodEnd; split <;> rfl
      refine ⟨fun hg ha => hmode.trans (hs.rails c (hgate ▸ hg) ha), fun hp => hmode.trans (hs.mask c hp), ?_⟩
      unfold Dc.periodEnd
      split
      · exact ⟨fun _ => rfl, fun hr => by cases hr⟩
      · exact ⟨fun hr => (by cases hr), fun _ => ⟨rfl, rfl⟩⟩
    unfold State.endPeriod
    dsimp only
    split
    · exact h0
    · exact h0.trans (State.handDrive_works _ _ _ _)
  · exact .refl

/-! ## The Scan Controller (chapter 10) -/

theorem scanConfigOwner_works (b : Bytes) : Works x s (scanConfigOwner b s).state := by
  unfold scanConfigOwner
  split
  · exact .refl
  · exact s.setSc_works _ rfl rfl id id

theorem templatePutOwner_works (template used : Byte) (b : Bytes) : Works x s (templatePutOwner template used b s).state := by
  unfold templatePutOwner
  split
  · exact s.setSc_works _ rfl rfl id id
  · exact .refl

theorem templateGetOwner_works (template copy : Byte) : Works x s (templateGetOwner template copy s).state := by
  unfold templateGetOwner; split <;> exact .refl

theorem scanSubmitOwner_works (job : Byte) (b : Bytes) : Works x s (scanSubmitOwner job b s).state := by
  unfold scanSubmitOwner
  split
  · exact .refl
  · split
    · exact .refl
    · rename_i j _ hroom
      have hlt : s.sc.queue.length < 16 := Nat.lt_of_not_le hroom
      unfold State.submitHost
      dsimp only [okay]
      exact .trans (s.setSc_works { s.sc with queue := s.sc.queue ++ [{ cls := .host job, body := j, current := false }] }
        rfl rfl (fun _ => by simp; omega) id) (State.scanGo_works _)

theorem scanCancelOwner_works (job : Byte) : Works x s (scanCancelOwner job s).state := by
  unfold scanCancelOwner
  split
  · exact .refl
  · exact s.cancelWhere_works _

theorem scanResultOwner_works (cls number : Byte) : Works x s (scanResultOwner cls number s).state := by
  unfold scanResultOwner
  split
  · exact .refl
  · split <;> exact .refl

theorem execOperationEnd_works {t : State} (h : execOperationEnd s = .next t) : Works x s t := by
  cases h
  split
  · split
    · exact s.operationEnd_works _
    · exact .refl
  · exact .refl

end

end Sys2Proof.Machine
end

section
/-! The work of every command, by its scope. -/

namespace Sys2Proof.Machine

open Relation

/-- The scope of a command's work; none for the resets, ARM, the ends of a run and PERMIT_SET, which are more than elementary
changes. -/
def scopeOf : Instr → Option Scope
  | .por | .pinReset | .softReset | .arm _ | .abort _ | .permitSet .. | .armTimeout | .limitExpiry | .endRequest => none
  | .start _ | .decisionTime => some .evaluation
  | .eventDelivery _ | .codeHistoryClear _ => some .delivery
  | .bankSet .. | .acquisitionEnd _ => some .bank
  | _ => some .plain

/-- What a command of a scope does is a chain of elementary changes of that scope. -/
theorem exec_works {c : Instr} {x : Scope} {s t : State} (hc : scopeOf c = some x) (h : exec c s = .next t) :
    Works x s t := by
  cases c with
  | por | pinReset | softReset | arm | abort | permitSet | armTimeout | limitExpiry | endRequest => cases hc
  | linkReset detach => cases hc; cases h; exact s.linkReset_works detach
  | frameReceive bytes =>
    cases hc; cases h
    split
    · exact .refl
    · rename_i hm; exact s.receive_works bytes hm
  | errorEntry bytes =>
    cases hc; cases h
    split
    · exact .refl
    · rename_i hm
      split
      · exact s.receive_works bytes hm
      · exact .refl
  | unknownKind k tag b => cases hc; cases h; exact s.answerEntry_works _ _
  | malformed e => cases hc; cases h; exact s.answerEntry_works _ _
  | replySend => cases hc; exact execReplySend_works s h
  | noticeSend => cases hc; exact execNoticeSend_works s h
  | identify tag => cases hc; cases h; exact takeRequest_works s fun _ => .refl
  | resetProbe tag => cases hc; cases h; exact takeRequest_works s fun _ => .single (.port _ _ id rfl)
  | flagsQuery tag => cases hc; cases h; exact takeRequest_works s fun _ => .refl
  | flagsEnable tag mask => cases hc; cases h; exact takeRequest_works s fun u => flagsEnableOwner_works u mask
  | flagsClear tag mask => cases hc; cases h; exact takeRequest_works s fun u => flagsClearOwner_works u mask
  | runsetPut tag b => cases hc; cases h; exact takeRequest_works s fun u => runsetPutOwner_works u b
  | runsetGet tag copy => cases hc; cases h; exact takeRequest_works s fun u => runsetGetOwner_works u copy
  | start tag => cases hc; cases h; exact takeRequest_works s startOwner_works
  | runQuery tag => cases hc; cases h; exact takeRequest_works s fun _ => .refl
  | planPut tag entry used b => cases hc; cases h; exact takeRequest_works s fun u => planPutOwner_works u entry used b
  | planGet tag entry copy => cases hc; cases h; exact takeRequest_works s fun u => planGetOwner_works u entry copy
  | planWipe tag =>
    cases hc; cases h; exact takeRequest_works s fun _ => .single (.steps _ _ rfl id (.inr rfl) (.inr (List.prefix_refl _)))
  | storeSet tag b => cases hc; cases h; exact takeRequest_works s fun u => storeSetOwner_works u b
  | storeQuery tag => cases hc; cases h; exact takeRequest_works s fun _ => .refl
  | fetch tag start max => cases hc; cases h; exact takeRequest_works s fun u => fetchOwner_works u _ _
  | release tag seq => cases hc; cases h; exact takeRequest_works s fun u => releaseOwner_works u _
  | trigger tag => cases hc; cases h; exact takeRequest_works s fun u => u.fireTrigger_works _
  | mark tag label => cases hc; exact execMark_works s h
  | bankSet tag bank b => cases hc; cases h; exact takeRequest_works s fun u => bankSetOwner_works u bank b
  | acquire tag bank => cases hc; cases h; exact takeRequest_works s fun u => acquireOwner_works u bank
  | bankQuery tag bank => cases hc; cases h; exact takeRequest_works s fun u => bankQueryOwner_works u bank
  | chanSet tag channel b => cases hc; cases h; exact takeRequest_works s fun u => chanSetOwner_works u channel b
  | chanQuery tag => cases hc; cases h; exact takeRequest_works s fun _ => .refl
  | rateSet tag monitor b => cases hc; cases h; exact takeRequest_works s fun u => rateSetOwner_works u monitor b
  | rateQuery tag monitor => cases hc; cases h; exact takeRequest_works s fun u => rateQueryOwner_works u monitor
  | codeSet tag b => cases hc; cases h; exact takeRequest_works s fun u => codeSetOwner_works u b
  | codeHistory tag option => cases hc; cases h; exact takeRequest_works s fun u => codeHistoryOwner_works u option
  | codeHistoryClear tag =>
    cases hc; cases h
    exact takeRequest_works s fun u => u.settle_works.trans (State.codeHistory_works _ _)
  | consSet tag port b => cases hc; cases h; exact takeRequest_works s fun u => consSetOwner_works u port b
  | consSend tag port b => cases hc; cases h; exact takeRequest_works s fun u => consSendOwner_works u port b
  | consQuery tag port => cases hc; cases h; exact takeRequest_works s fun u => consQueryOwner_works u port
  | matchSet tag matcher b => cases hc; cases h; exact takeRequest_works s fun u => matchSetOwner_works u matcher b
  | matchQuery tag matcher => cases hc; cases h; exact takeRequest_works s fun u => matchQueryOwner_works u matcher
  | driveSetNone tag channel op part =>
    cases hc; cases h; exact takeRequest_works s fun u => driveSetByByte_works u channel op part
  | driveSetRelease tag channel part | driveSetLow tag channel part | driveSetHigh tag channel part
  | driveSetStartPulse tag channel part | driveSetStopPulse tag channel part =>
    cases hc; cases h; exact takeRequest_works s fun u => driveSetOwner_works u channel _ part
  | driveQuery tag channel => cases hc; cases h; exact takeRequest_works s fun u => driveQueryOwner_works u channel
  | permitLock tag => cases hc; cases h; exact takeRequest_works s fun _ => .single (.lock _ _)
  | scanConfig tag b => cases hc; cases h; exact takeRequest_works s fun u => scanConfigOwner_works u b
  | templatePut tag template used b =>
    cases hc; cases h; exact takeRequest_works s fun u => templatePutOwner_works u template used b
  | templateGet tag template copy =>
    cases hc; cases h; exact takeRequest_works s fun u => templateGetOwner_works u template copy
  | scanSubmit tag job b => cases hc; cases h; exact takeRequest_works s fun u => scanSubmitOwner_works u job b
  | scanCancel tag job => cases hc; cases h; exact takeRequest_works s fun u => scanCancelOwner_works u job
  | scanResult tag cls number => cases hc; cases h; exact takeRequest_works s fun u => scanResultOwner_works u cls number
  | scanQuery tag => cases hc; cases h; exact takeRequest_works s fun _ => .refl
  | eventDelivery k => cases hc; cases h; exact s.takeEvent_works k
  | decisionTime => cases hc; cases h; exact s.takeDecisions_works
  | recordTake k =>
    cases hc; cases h
    split
    · rename_i hmay; exact State.takeWaiting_works hmay
    · exact .refl
  | intervalStart b => cases hc; cases h; exact s.ifDue_works (s.intervalStart_works b)
  | acquisitionEnd b => cases hc; exact execAcquisitionEnd_works s h
  | rawInputChange pin mv => cases hc; exact execRawInputChange_works s h
  | transitionAccepted c => cases hc; exact execTransitionAccepted_works s h
  | blankingEnd c => cases hc; cases h; exact s.ifDue_works (.single (.channel _ _ _))
  | tachFallingEdge m => cases hc; cases h; exact s.ifDue_works (s.updateRm_works m _)
  | stallExpiry m => cases hc; cases h; exact s.ifDue_works (s.updateRm_works m _)
  | gateEnd m => cases hc; cases h; exact s.ifDue_works (s.updateRm_works m _)
  | strobeEdge => cases hc; exact execStrobeEdge_works s h
  | strobeBlankingEnd => cases hc; exact execStrobeBlankingEnd_works s h
  | foldTimerExpiry => cases hc; exact execFoldTimerExpiry_works s h
  | waitIdleExpiry p => cases hc; cases h; exact s.ifDue_works (s.receiver_works p _)
  | startEdge p => cases hc; cases h; exact s.ifDue_works (s.startByte_works p)
  | startBitGlitch p => cases hc; cases h; exact s.ifDue_works (s.receiver_works p _)
  | byteArrival p => cases hc; cases h; exact s.ifDue_works (s.arrival_works p)
  | heldFrameTaken p => cases hc; cases h; exact s.ifDue_works (s.heldTaken_works p)
  | breakSeen p => cases hc; cases h; exact s.ifDue_works (s.takeBreak_works p)
  | waitHighRecovery p => cases hc; cases h; exact s.ifDue_works (s.receiver_works p _)
  | idleGapExpiry p d => cases hc; cases h; exact s.ifDue_works (s.closeFragment_works p d _)
  | byteSendTime p => cases hc; exact execByteSendTime_works s h
  | byteSent p => cases hc; cases h; exact s.ifDue_works (s.nextByte_works p)
  | generatorActiveLevel c => cases hc; cases h; exact s.activateLevel_works c
  | periodEnd c => cases hc; cases h; exact s.periodEnd_works c
  | operationEnd => cases hc; exact execOperationEnd_works s h

end Sys2Proof.Machine
end

section
/-! The commands that are more than elementary changes keep the invariants too: the resets, ARM, the ends of a run, PERMIT_SET,
a bank's rail, and the tick. -/

namespace Sys2Proof.Machine

open Relation

/-! ## The invariants together -/

/-- The invariants of the part, kept from one state to the next. -/
structure Keeps (s t : State) : Prop where
  notices : s.fu.Sound → t.fu.Sound
  tap : s.sc.restsIdle → t.sc.restsIdle
  fits : s.Fits → t.Fits
  store : s.StoreSound → t.StoreSound
  drives : s.DrivesSafe → t.DrivesSafe

theorem Keeps.refl (s : State) : Keeps s s := ⟨id, id, id, id, id⟩

theorem Keeps.trans {s t u : State} (h : Keeps s t) (k : Keeps t u) : Keeps s u :=
  ⟨k.notices ∘ h.notices, k.tap ∘ h.tap, k.fits ∘ h.fits, k.store ∘ h.store, k.drives ∘ h.drives⟩

/-- No invariant is about the queue of waiting commands or the count of free choices. -/
theorem Keeps.free (s : State) (pending : List Instr) (choices : Nat) : Keeps s { s with pending, choices } where
  notices := id
  tap := id
  fits h := { h with }
  store h := h.congr rfl rfl rfl h.fragments
  drives h := h.congr rfl (fun _ => rfl) rfl rfl rfl

/-- Work that moves no rail keeps the invariants. -/
theorem Works.keepsAll {x : Scope} (hx : x.rails = false) {s t : State} (h : Works x s t) : Keeps s t :=
  ⟨h.keeps_fu, h.keeps_restsIdle, h.keeps_fits, h.keeps_store, h.keeps_drivesSafe hx⟩

/-- A bank's work keeps the invariants where it keeps the drives safe. -/
theorem Works.keepsBank {s t : State} (h : Works .bank s t) (hd : s.DrivesSafe → t.DrivesSafe) : Keeps s t :=
  ⟨h.keeps_fu, h.keeps_restsIdle, h.keeps_fits, h.keeps_store, hd⟩

/-! ## The resets (R138) -/

@[simp] theorem State.reset_dc (c : Fin 8) : State.reset.dc[c] = Dc.reset := by simp [State.reset]
@[simp] theorem State.reset_cp (p : Fin 2) : State.reset.cp[p] = Cp.reset := by simp [State.reset]
@[simp] theorem State.reset_tm (m : Fin 8) : State.reset.tm[m] = Tm.reset := by simp [State.reset]

/-- The store after reset: nothing stored, nothing waiting (R70). -/
theorem State.reset_storeSound : State.reset.StoreSound where
  sound := ⟨rfl, le_rfl, fun i h => absurd h (Nat.not_lt_zero i)⟩
  roomy := {
    capacity := Nat.zero_le _
    reserve := fun _ => Nat.zero_le _
    sizes := fun w hw => by cases hw
    quotas := by simp [State.reset, Ts.reset, StoreSettings.reset]
    running := fun _ w hw => by cases hw
    ended := fun _ h => absurd rfl h
    pair := fun h => by cases h }
  trigger := fun h => by cases h
  marks := rfl
  fragments := fun p => by
    rw [State.reset_cp]
    exact ⟨fun f hf => (by cases hf), fun f hf => (by cases hf)⟩

/-- Every list is empty after reset. -/
theorem State.reset_fits : State.reset.Fits where
  requests := Nat.zero_le _
  lookback := Nat.zero_le _
  history := ⟨Nat.zero_le _, fun e he => by cases he⟩
  codeRecord := fun p hp => by cases hp
  scans := ⟨Nat.zero_le _, Nat.zero_le _⟩
  transmit := fun p => by rw [State.reset_cp]; exact Nat.zero_le _
  fragments := State.reset_storeSound.fragments
  progress := fun m => by rw [State.reset_tm]; exact .inl rfl

/-- Channels that are all RELEASED outside a run are safe. -/
theorem State.DrivesSafe.of_reset {s : State} (hdc : ∀ c : Fin 8, s.dc[c] = Dc.reset) (hl : s.live = false) :
    s.DrivesSafe where
  rails := fun c _ _ => by rw [hdc]; rfl
  mask := fun c _ => by rw [hdc]; rfl
  plan := fun h => absurd (h.symm.trans hl) (by decide)
  generators := fun c => by rw [hdc]; exact ⟨fun h => (by cases h), fun _ => ⟨rfl, rfl⟩⟩

/-- The state after a POR or a pin reset meets every invariant. -/
theorem State.keeps_hardReset (s u : State) : Keeps u s.hardReset where
  notices := fun _ => by simp [Fu.Sound, State.hardReset, State.reset, Fu.reset]
  tap := fun _ _ => .inl rfl
  fits := fun _ => { State.reset_fits with }
  store := fun _ => { State.reset_storeSound with }
  drives := fun _ => .of_reset State.reset_dc rfl

/-- R138: a soft reset is a hard reset but for the permit mask and its lock, and what the MP keeps. -/
theorem State.keeps_softReset (s u : State) : Keeps u s.softReset where
  notices := fun _ => by simp [Fu.Sound, State.softReset, State.hardReset, State.reset, Fu.reset]
  tap := fun _ _ => .inl rfl
  fits := fun _ => { State.reset_fits with requests := Nat.zero_le _ }
  store := fun _ => { State.reset_storeSound with marks := rfl }
  drives := fun _ => .of_reset State.reset_dc rfl

/-! ## PERMIT_SET (R121) -/

/-- A release of a channel that is RELEASED already, with its generator at rest, is a release again. -/
theorem Dc.operate_release_twice (d : Dc) : (d.operate .release).operate .release = d.operate .release := rfl

/-- R121: the channels that a list of revocations releases. -/
theorem State.revokes_get (s : State) (l : List (Fin 8)) (c : Fin 8) :
    (l.foldl State.revoke s).dc[c] = if c ∈ l then s.dc[c].operate .release else s.dc[c] := by
  induction l generalizing s with
  | nil => simp
  | cons d l ih =>
    have hd : (s.revoke d).dc[c] = if d = c then s.dc[d].operate .release else s.dc[c] := by
      unfold State.revoke
      rw [State.raiseIf_dc, State.setDc_get]
    rw [List.foldl_cons, ih, hd]
    by_cases h : d = c
    · subst h; simp [Dc.operate_release_twice, -Fin.getElem_fin]
    · simp [h, Ne.symm h, -Fin.getElem_fin]

theorem State.revoke_works {x : Scope} (s : State) (c : Fin 8) : Works x s (s.revoke c) :=
  .trans (.single (.drive s c _ fun hs => s.channelSafe_released c _ (Dc.operate_mode _ _)
    (Dc.operate_sound _ _ (hs.generators c)))) (State.raiseIf_works _ _ _)

/-- R121: the channels that a new mask removes. -/
def State.removed (s : State) (mask : Byte) : List (Fin 8) :=
  (List.finRange 8).filter fun c => s.permitMask.getLsbD c.val && !mask.getLsbD c.val

theorem State.permit_eq (s : State) (mask : Byte) :
    s.permit mask = (s.removed mask).foldl State.revoke { s with permitMask := mask } := rfl

theorem State.mem_removed (s : State) (mask : Byte) (c : Fin 8) :
    c ∈ s.removed mask ↔ s.permitMask.getLsbD c.val = true ∧ mask.getLsbD c.val = false := by
  simp [State.removed]

/-- R121: a new mask outside a run. -/
theorem State.keeps_permit (s : State) (mask : Byte) (hl : s.live = false) : Keeps s (s.permit mask) := by
  have hw : Works .plain { s with permitMask := mask } (s.permit mask) := Works.foldl _ State.revoke_works _
  refine ⟨fun h => hw.keeps_fu h, fun h => hw.keeps_restsIdle h, fun h => hw.keeps_fits { h with },
    fun h => hw.keeps_store { h with }, fun h => ?_⟩
  have hdc : ∀ c : Fin 8, (s.permit mask).dc[c] = if c ∈ s.removed mask then s.dc[c].operate .release else s.dc[c] :=
    fun c => State.revokes_get _ _ c
  have hmask : (s.permit mask).permitMask = mask ∧ (s.permit mask).lau = s.lau := by
    have : ∀ (l : List (Fin 8)) (u : State), (l.foldl State.revoke u).permitMask = u.permitMask ∧
        (l.foldl State.revoke u).lau = u.lau := fun l => by
      induction l with
      | nil => exact fun u => ⟨rfl, rfl⟩
      | cons c l ih =>
        intro u
        obtain ⟨h1, h2⟩ := ih (u.revoke c)
        exact ⟨h1.trans (by unfold State.revoke; rw [State.raiseIf_permitMask]; rfl),
          h2.trans (by unfold State.revoke; rw [State.raiseIf_lau]; rfl)⟩
    exact this _ _
  refine ⟨fun c hg ha => ?_, fun c hm => ?_, fun hp => ?_, fun c => ?_⟩
  · rw [hdc] at hg ⊢
    split
    · exact Dc.operate_mode _ _
    · rename_i hc
      rw [if_neg hc] at hg
      exact h.rails c hg (hmask.2 ▸ ha)
  · rw [hdc]
    split
    · exact Dc.operate_mode _ _
    · rename_i hc
      rw [hmask.1] at hm
      rw [State.mem_removed] at hc
      refine h.mask c (Bool.eq_false_iff.2 fun ht => hc ⟨ht, hm⟩)
  · exact absurd (hp.symm.trans (hw.live.trans hl)) (by decide)
  · rw [hdc]
    split
    · exact Dc.operate_sound _ _ (h.generators c)
    · exact h.generators c

end Sys2Proof.Machine
end

section
/-! ARM and the ends of a run keep the invariants. -/

namespace Sys2Proof.Machine

open Relation

/-! ## Requests whose owner is more than elementary changes -/

/-- R134: a request taken keeps the invariants where its owner does, with no request in hand. -/
theorem takeRequest_keeps {c : Instr} {k t : Byte} {owner : State → Answer} {s : State}
    (h : ∀ u : State, u.mp.inHand = none → Keeps u (owner u).state) : Keeps s (takeRequest c k t owner s) := by
  unfold takeRequest
  split
  · rename_i htake
    have hpop : Keeps s { s with mp := s.mp.pop } := (s.pop_works (x := .plain)).keepsAll rfl
    refine (hpop.trans ?_).trans ((State.beside_works (x := .plain) s _).keepsAll rfl)
    split
    · exact (h { s with mp := s.mp.pop } (Mp.canTake_inHand htake).1).trans ((State.reply_works (x := .plain) _ _).keepsAll rfl)
    · exact (State.reply_works (x := .plain) _ _).keepsAll rfl
  · exact .refl s

/-! ## ARM (R6) -/

/-- R6: the state that an accepted ARM loads, before its record. -/
def State.loaded (s : State) : State :=
  { s with rc := s.rc.armed, ste := s.ste.armed, ts := s.ts.armed s.ts.staged, sc := s.sc.armed }

theorem State.armRun_eq (s : State) :
    s.armRun = s.loaded.hand .run { time := 0, body := .runArmed s.loaded.rc.active.source } := rfl

theorem State.loaded_store {s : State} (h : s.StoreSound) (hin : s.mp.inHand = none) : s.loaded.StoreSound where
  sound := ⟨rfl, le_rfl, fun i h => absurd h (Nat.not_lt_zero i)⟩
  roomy := {
    capacity := Nat.zero_le _
    reserve := fun _ => Nat.zero_le _
    sizes := fun w hw => by cases hw
    quotas := ⟨h.roomy.quotas.2.2.1, h.roomy.quotas.2.2.2, h.roomy.quotas.2.2⟩
    running := fun _ w hw => by cases hw
    ended := fun _ h => absurd rfl h
    pair := fun h => by cases h }
  trigger := fun _ h => h.elim (fun h => by cases h) fun h => by cases h
  marks := by
    show 0 = if s.mp.inHand.isSome then 1 else 0
    rw [hin]; rfl
  fragments := h.fragments

/-- R6: an accepted ARM outside a run, of a plan that passes. -/
theorem State.keeps_armRun {s : State} (hl : s.live = false) (hv : s.validate = none) (hin : s.mp.inHand = none) :
    Keeps s s.armRun := by
  rw [State.armRun_eq]
  refine Keeps.trans ?_ ((State.hand_works (x := .plain) _ _ _ (by simp [Rec.units, RecBody.units])
    (by simp [Rec.closesRun])).keepsAll rfl)
  refine ⟨id, fun h hj => h ?_, fun h => ?_, fun h => State.loaded_store h hin, fun h => ?_⟩
  · simpa [State.loaded, Sc.armed, Sc.clearMarks] using hj
  · refine { h with lookback := Nat.zero_le _, codeRecord := fun p hp => ?_, scans := ⟨?_, h.scans.2⟩ }
    · exact absurd ((h.codeRecord p hp).1.symm.trans hl) (by decide)
    · simpa [State.loaded, Sc.armed, Sc.clearMarks] using h.scans.1
  · exact ⟨h.rails, h.mask, fun _ k e hk c op ha => State.validate_permits s hv k e hk c op ha, h.generators⟩

theorem armOwner_keeps (s : State) (hin : s.mp.inHand = none) : Keeps s (armOwner s).state := by
  unfold armOwner
  split
  · exact .refl s
  · rename_i hl
    split
    · exact .refl s
    · rename_i hv
      exact State.keeps_armRun (by simpa using hl) hv hin

/-! ## The end work (R15) -/

/-- R15: what steps 1 and 2 of the end work may change, with the records they leave behind those that wait: ordinary ones,
where the fragments are sound. -/
structure Closing (s t : State) : Prop where
  eq : t = { s with
    ste := { s.ste with evals := t.ste.evals, order := t.ste.order }, ts := { s.ts with input := t.ts.input }
    cdp := { s.cdp with pending := t.cdp.pending }, cp := t.cp }
  records : ∃ l, t.ts.input = s.ts.input ++ l ∧ ((∀ p : Fin 2, s.cp[p].fragmentsSound) → ∀ w ∈ l, w.Ordinary)
  queues : ∀ p : Fin 2, t.cp[p].queue = s.cp[p].queue
  fragments : (∀ p : Fin 2, s.cp[p].fragmentsSound) → ∀ p : Fin 2, t.cp[p].fragmentsSound

theorem Closing.refl (s : State) : Closing s s := ⟨rfl, ⟨[], by simp⟩, fun _ => rfl, id⟩

theorem Closing.trans {s t u : State} (h : Closing s t) (k : Closing t u) : Closing s u := by
  obtain ⟨l, hl, hlo⟩ := h.records
  obtain ⟨m, hm, hmo⟩ := k.records
  refine ⟨?_, ⟨l ++ m, by rw [hm, hl, List.append_assoc], fun hf w hw => ?_⟩, fun p => (k.queues p).trans (h.queues p),
    fun hf => k.fragments (h.fragments hf)⟩
  · have e := k.eq
    rw [h.eq] at e
    simpa using e
  · exact (List.mem_append.1 hw).elim (hlo hf w) (hmo (h.fragments hf) w)

theorem State.cancelStep_closing (s : State) (k : Fin 64) : Closing s (cancelStep s k) := by
  unfold cancelStep
  split
  · split
    · exact .refl s
    · refine ⟨rfl, ⟨_, rfl, fun _ w hw => ?_⟩, fun _ => rfl, id⟩
      rw [List.mem_singleton.1 hw]
      exact ⟨by simp [stepRecord, Rec.units, RecBody.units], by simp [stepRecord, Rec.closesRun], rfl⟩
  · exact .refl s

theorem State.cancelSteps_closing (s : State) : Closing s s.cancelSteps := by
  unfold State.cancelSteps
  generalize List.finRange 64 = l
  induction l generalizing s with
  | nil => exact .refl s
  | cons k l ih => exact (s.cancelStep_closing k).trans (ih _)

theorem State.closeCode_closing (s : State) : Closing s (s.closeCode true) := by
  unfold State.closeCode
  split
  · exact .refl s
  · refine ⟨rfl, ⟨_, rfl, fun _ w hw => ?_⟩, fun _ => rfl, id⟩
    rw [List.mem_singleton.1 hw]
    exact ⟨by simp [Rec.units, RecBody.units], by simp [Rec.closesRun], rfl⟩

theorem State.closeFragment_closing (s : State) (p : Fin 2) (d : TextDir) (brk : Bool) :
    Closing s (s.closeFragment true p d brk) := by
  unfold State.closeFragment
  split
  · exact .refl s
  · rename_i f hf
    refine ⟨rfl, ⟨_, rfl, fun hs w hw => ?_⟩, fun q => ?_, fun hs q => ?_⟩
    · rw [List.mem_singleton.1 hw]
      have h := textRecord_ordinary p d f.error (f.brk || brk) (.cp p d) s.clock
        ((Cp.fragment_sound (hs p) hf).2.trans (by decide))
      exact ⟨h.size, h.running, rfl⟩
    · show (s.setCp p _).cp[q].queue = _
      rw [State.setCp_get]; split
      · subst q; exact Cp.setFragment_queue _ _ _
      · rfl
    · exact State.setCp_all (P := Cp.fragmentsSound) hs p (Cp.setFragment_sound (hs p) d none (by simp)) q

theorem State.closeSources_closing (s : State) : Closing s s.closeSources :=
  ((((s.closeCode_closing).trans (State.closeFragment_closing _ 0 .rx false)).trans
    (State.closeFragment_closing _ 0 .tx false)).trans (State.closeFragment_closing _ 1 .rx false)).trans
    (State.closeFragment_closing _ 1 .tx false)

/-- R99: the close of the open CODE record leaves none open. -/
theorem State.closeCode_pending (s : State) (ending : Bool) : (s.closeCode ending).cdp.pending = none := by
  unfold State.closeCode
  split
  · assumption
  · rw [State.handClose_eq]; rfl

/-- R107: the close of a fragment leaves the code port. -/
theorem State.closeFragment_cdp (s : State) (ending : Bool) (p : Fin 2) (d : TextDir) (brk : Bool) :
    (s.closeFragment ending p d brk).cdp = s.cdp := by
  unfold State.closeFragment
  split
  · rfl
  · rw [State.handClose_eq]; rfl

theorem State.closeSources_pending (s : State) : s.closeSources.cdp.pending = none := by
  unfold State.closeSources
  dsimp only
  rw [State.closeFragment_cdp, State.closeFragment_cdp, State.closeFragment_cdp, State.closeFragment_cdp]
  exact s.closeCode_pending true

/-- R15: the end work before the step jobs are cancelled. -/
def State.closed (s : State) (cause : EndCause) : State :=
  ((s.setRc { s.rc with runState := .ended }).cancelSteps.closeSources).closeRun cause

theorem State.endRun_eq (s : State) (cause : EndCause) : s.endRun cause = (s.closed cause).cancelWhere Job.isStep := rfl

/-- R15, R62: RUN ENDED waits behind every record of the run and of the end work. -/
theorem State.StoreSound.ended {s : State} (hs : s.StoreSound) (hl : s.live = true) {t : State}
    {l : List Waiting} {w : Waiting} (hlo : ∀ x ∈ l, x.Ordinary) (hw : w.record.closesRun) (hsize : w.record.units ≤ 9)
    (hwa : w.awaited = false) (hts : t.ts = { s.ts with input := s.ts.input ++ l ++ [w] }) (hlive : t.live = false)
    (hin : t.mp.inHand = s.mp.inHand) (hf : ∀ p : Fin 2, t.cp[p].fragmentsSound) : t.StoreSound := by
  have hrun : ∀ e ∈ s.ts.input ++ l, ¬e.record.closesRun := fun e he =>
    (List.mem_append.1 he).elim (hs.roomy.running hl e) fun h => (hlo e h).running
  refine ⟨hts ▸ hs.sound, ?_, ?_, ?_, hf⟩
  · rw [hts, hlive]
    refine ⟨hs.roomy.capacity, fun _ => hs.roomy.reserve (.inl hl), fun x hx => ?_, hs.roomy.quotas,
      fun h => absurd h (by decide), fun _ _ => ⟨s.ts.input ++ l, w, rfl, hw, hrun⟩, fun ha => ?_⟩
    · rcases List.mem_append.1 hx with hx | hx
      · exact (List.mem_append.1 hx).elim (hs.roomy.sizes x) fun h => (hlo x h).size
      · exact List.mem_singleton.1 hx ▸ hsize
    · obtain ⟨x, xs, he, hx⟩ := hs.roomy.pair ha
      exact ⟨x, xs ++ l ++ [w], by simp [he], hx⟩
  · rw [hts, hlive]
    intro hm ht
    obtain ⟨n, h1, h2, h3⟩ := hs.trigger hm ht
    exact ⟨n, h1, h2, fun h _ ha => h3 h (.inl hl) ha⟩
  · have hnone : l.filter Waiting.awaited = [] := List.filter_eq_nil_iff.2 fun x hx => by simp [(hlo x hx).unawaited]
    rw [hts, hin]
    simpa [List.filter_append, hnone, hwa] using hs.marks

/-- R15: the end of a run keeps the invariants. -/
theorem State.keeps_endRun {s : State} (hl : s.live = true) (cause : EndCause) : Keeps s (s.endRun cause) := by
  rw [State.endRun_eq]
  refine Keeps.trans ?_ ((State.cancelWhere_works (x := .plain) _ _).keepsAll rfl)
  have hc := (State.cancelSteps_closing (s.setRc { s.rc with runState := .ended })).trans (State.closeSources_closing _)
  have hp := State.closeSources_pending (s.setRc { s.rc with runState := .ended }).cancelSteps
  unfold State.closed
  generalize (s.setRc { s.rc with runState := .ended }).cancelSteps.closeSources = u at hc hp
  obtain ⟨l, hin, hlo⟩ := hc.records
  have heq := hc.eq
  have hfu : (u.closeRun cause).fu = s.fu.raise .runEnd := by rw [heq]; rfl
  have hsc : (u.closeRun cause).sc = s.sc := by rw [heq]; rfl
  have hlive : (u.closeRun cause).live = false := by
    show u.live = false
    rw [heq]; rfl
  refine ⟨fun h => hfu ▸ Fu.raise_sound _ _ h, fun h => hsc ▸ h, fun h => ?_, fun h => ?_, fun h => ?_⟩
  · refine ⟨?_, ?_, ?_, fun p h => (by cases hp.symm.trans h), hsc ▸ h.scans, fun p => ?_, hc.fragments h.fragments, ?_⟩
    · show u.mp.fitsQueue; rw [heq]; exact h.requests
    · show u.ste.fitsLookback; rw [heq]; exact h.lookback
    · show u.cdp.historySound; rw [heq]; exact h.history
    · have := h.transmit p
      unfold Cp.fitsTransmit at *
      exact (hc.queues p) ▸ this
    · show ∀ m : Fin 8, u.tm[m].progressSound; rw [heq]; exact h.progress
  · obtain ⟨w, hw, hwe, hwu, hwa⟩ : ∃ w : Waiting, (u.closeRun cause).ts = { u.ts with input := u.ts.input ++ [w] } ∧
        w.record.closesRun ∧ w.record.units ≤ 9 ∧ w.awaited = false :=
      ⟨_, rfl, ⟨_, _, _, _, rfl⟩, by simp [Rec.units, RecBody.units], rfl⟩
    refine h.ended hl (hlo h.fragments) hwe hwu hwa ?_ hlive ?_ (hc.fragments h.fragments)
    · rw [hw, hin, heq]; rfl
    · show u.mp.inHand = _; rw [heq]; rfl
  · have hd : u.dc = s.dc ∧ u.lau = s.lau ∧ u.permitMask = s.permitMask := by rw [heq]; exact ⟨rfl, rfl, rfl⟩
    obtain ⟨hdc, hlau, hmask⟩ := hd
    refine ⟨fun c => ?_, fun c => ?_, fun h => absurd (h.symm.trans hlive) (by decide), fun c => ?_⟩
    · show u.dc[c].railGated = true → u.lau[driveBank c].present = false → u.dc[c].mode = .released
      rw [hdc, hlau]; exact h.rails c
    · show u.permitMask.getLsbD c.val = false → u.dc[c].mode = .released
      rw [hdc, hmask]; exact h.mask c
    · show u.dc[c].generatorSound
      rw [hdc]; exact h.generators c

/-! ## An end with a pass in hand (R15, R47) -/

/-- R15, R47: a pass in hand at the end leaves some of the records of the whole pass, in their order, behind all that waited
before it. -/
theorem State.endedInPass_input {s w : State} (h : s.ts.input <+: w.ts.input) (k : Nat) : ∃ l l' fired,
    w.ts.input = s.ts.input ++ l ∧ l'.Sublist l ∧
      s.endedInPass w k = w.setTs { w.ts with input := s.ts.input ++ l', fired } := by
  obtain ⟨l, hl⟩ := h
  refine ⟨l, l.take k ++ (l.drop k).filter Waiting.ofPass, (s.endedInPass w k).ts.fired, hl.symm, ?_, ?_⟩
  · conv_rhs => rw [← List.take_append_drop k l]
    exact (List.Sublist.refl _).append List.filter_sublist
  · simp only [State.endedInPass, ← hl, List.take_length_add_append, List.drop_length_add_append, List.append_assoc,
      State.setTs_ts]

theorem State.keeps_endedInPass {s w : State} (hw : Works .delivery s w) (hf : DeliverFrame s w) (hl : s.live = true)
    (k : Nat) :
    Keeps s (s.endedInPass w k) := by
  have hall := hw.keepsAll rfl
  obtain ⟨l, l', fired, hin, hsub, heq⟩ := State.endedInPass_input hf.behind k
  rw [heq]
  refine ⟨hall.notices, hall.tap, fun h => { hall.fits h with }, fun h => ?_, fun h =>
    (hall.drives h).congr rfl (fun _ => rfl) rfl rfl rfl⟩
  have ht := hall.store h
  have hlw : w.live = true := hw.live.trans hl
  have hmem : ∀ x ∈ s.ts.input ++ l', x ∈ w.ts.input := fun x hx => by
    rw [hin]
    exact List.mem_append.2 ((List.mem_append.1 hx).imp_right fun h => hsub.subset h)
  -- no record of the pass is awaited: those that waited before it are all that are
  have hnone : l.filter Waiting.awaited = [] := by
    have h1 := h.marks
    have h2 := ht.marks
    rw [hin, hf.mp, List.filter_append, List.length_append, h1] at h2
    exact List.length_eq_zero_iff.1 (by omega)
  have hnone' : l'.filter Waiting.awaited = [] :=
    List.filter_eq_nil_iff.2 fun x hx => List.filter_eq_nil_iff.1 hnone x (hsub.subset hx)
  refine ⟨ht.sound, ⟨ht.roomy.capacity, fun _ => ht.roomy.reserve (.inl hlw), fun x hx => ht.roomy.sizes x (hmem x hx),
    ht.roomy.quotas, fun _ x hx => ht.roomy.running hlw x (hmem x hx), fun h => absurd (hlw.symm.trans h) (by decide),
    fun ha => ?_⟩, fun hm hst => ?_, ?_, ht.fragments⟩
  · obtain ⟨hadm, hmode, hocc⟩ : w.ts.admitted = s.ts.admitted ∧ w.ts.active.mode = s.ts.active.mode ∧
        w.ts.occupancy = s.ts.occupancy := by rw [hf.eq]; exact ⟨rfl, rfl, rfl⟩
    obtain ⟨x, xs, hx, hp⟩ := h.roomy.pair (hadm.symm.trans ha)
    refine ⟨x, xs ++ l', by simp [hx], ?_⟩
    show _ ∨ _ ∧ w.ts.active.mode = .stream ∧ w.ts.occupancy + _ ≤ _
    rw [hmode, hocc]; exact hp
  · obtain ⟨n, h1, h2, h3⟩ := ht.trigger hm hst
    exact ⟨n, h1, h2, fun h _ ha => h3 h (.inl hlw) ha⟩
  · show ((s.ts.input ++ l').filter Waiting.awaited).length = if w.mp.inHand.isSome then 1 else 0
    rw [List.filter_append, hnone', hf.mp]
    simpa using h.marks

/-- R84, R100, R112: what comes before the end work of a run. -/
theorem State.keeps_settleEnd (c : Nat) {s : State} (hl : s.live = true) : Keeps s (s.settleEnd c) := by
  have hsettle := s.settle_works.keepsAll rfl
  unfold State.settleEnd
  dsimp only
  split
  · rename_i h
    have hl' : s.settle.live = true := (s.settle_frame).live.trans hl
    exact hsettle.trans (State.keeps_endedInPass (Works.delivery (State.decideAll_works hl')) (State.decideAll_frame _) hl' _)
  · split
    · rename_i hn
      have hfirst := (State.deliverFirst_works (s.ste.events.length - 1) s)
      have hl' : (s.deliverFirst (s.ste.events.length - 1)).live = true := (State.deliverFirst_frame _ s).live.trans hl
      have hs : s.settle = (s.deliverFirst (s.ste.events.length - 1)).deliverNext := by
        obtain ⟨n, hlen⟩ := Nat.exists_eq_succ_of_ne_zero hn.1
        rw [State.settle, hlen, Nat.succ_sub_one, ← State.deliverFirst_succ]
      rw [hs]
      exact (hfirst.keepsAll rfl).trans
        (State.keeps_endedInPass (State.deliverNext_works _) (State.deliverNext_frame _) hl' _)
    · exact hsettle

/-- R12, R13, R14, R15: an end of a run keeps the invariants. -/
theorem State.keeps_takeEnd {s : State} (hl : s.live = true) (cause : EndCause) : Keeps s (s.takeEnd cause) := by
  unfold State.takeEnd
  dsimp only
  have hl' := (State.settleEnd_frame (Config.choose s.choices) s).live.trans hl
  generalize hu : s.settleEnd (Config.choose s.choices) = u at hl'
  have hfree : Keeps u { u with choices := u.choices + 1 } := .free u u.pending (u.choices + 1)
  exact ((hu ▸ State.keeps_settleEnd _ hl).trans hfree).trans
    (State.keeps_endRun (s := { u with choices := u.choices + 1 }) hl' cause)

end Sys2Proof.Machine
end

section
/-! The drives stay safe as a bank's rail moves (R79, R120), the tick keeps the invariants, and so does every step. -/

namespace Sys2Proof.Machine

open Relation

/-! ## A rail moves (R79, R120) -/

/-- The drive channels and the banks stay as they were. -/
def State.DrivesKept (s t : State) : Prop := t.dc = s.dc ∧ t.lau = s.lau

theorem State.DrivesKept.trans {s t u : State} (h : s.DrivesKept t) (k : t.DrivesKept u) : s.DrivesKept u :=
  ⟨k.1.trans h.1, k.2.trans h.2⟩

theorem State.DrivesKept.foldl {α : Type} {f : State → α → State} (h : ∀ (s : State) a, s.DrivesKept (f s a)) (s : State)
    (l : List α) : s.DrivesKept (l.foldl f s) := by
  induction l generalizing s with
  | nil => exact ⟨rfl, rfl⟩
  | cons a l ih => exact (h s a).trans (ih _)

theorem State.sampleChannel_drivesKept (s : State) (c : Fin 24) : s.DrivesKept (s.sampleChannel c) :=
  State.DrivesKept.foldl (fun _ _ => by split <;> exact ⟨rfl, rfl⟩) s _

theorem State.resampleBank_drivesKept (s : State) (b : Fin 4) : s.DrivesKept (s.resampleBank b) :=
  (State.DrivesKept.foldl (f := State.sampleRx) (fun _ _ => ⟨rfl, rfl⟩) s _).trans
    (State.DrivesKept.foldl State.sampleChannel_drivesKept _ _)

theorem State.loseChannels_drivesKept (s : State) (b : Fin 4) : s.DrivesKept (s.loseChannels b) :=
  State.DrivesKept.foldl (f := fun (s : State) c => s.setMc c s.mc[c].railLoss) (fun _ _ => ⟨rfl, rfl⟩) s _

/-- R120: what a forced release of channel `c` makes of channel `d`. -/
theorem State.forceRelease_get (s : State) (c d : Fin 8) : (s.forceRelease c).dc[d] =
    if c = d ∧ s.dc[d].railGated = true ∧ s.dc[d].mode ≠ .released then s.dc[d].operate .release else s.dc[d] := by
  by_cases h : s.dc[c].railGated = true ∧ s.dc[c].mode ≠ .released
  · rw [State.forceRelease_of_driving s c h.1 h.2]
    show (State.handDrive _ _ _ _).dc[d] = _
    rw [State.handDrive_eq]
    show (s.setDc c _).dc[d] = _
    rw [State.setDc_get]
    by_cases hcd : c = d
    · subst hcd; rw [if_pos rfl, if_pos ⟨rfl, h⟩]
    · rw [if_neg hcd, if_neg fun hh => hcd hh.1]
  · have hidle : s.dc[c].railGated = false ∨ s.dc[c].mode = .released := by
      by_cases hg : s.dc[c].railGated = true
      · exact .inr (by_contra fun hm => h ⟨hg, hm⟩)
      · exact .inl (Bool.eq_false_iff.2 hg)
    rw [State.forceRelease_of_idle s c hidle, if_neg]
    rintro ⟨rfl, hd⟩
    exact h hd

/-- R120: what the forced releases of several channels make of channel `d`. -/
theorem State.forceReleases_get (s : State) (l : List (Fin 8)) (d : Fin 8) : (l.foldl State.forceRelease s).dc[d] =
    if d ∈ l ∧ s.dc[d].railGated = true ∧ s.dc[d].mode ≠ .released then s.dc[d].operate .release else s.dc[d] := by
  induction l generalizing s with
  | nil => simp
  | cons c l ih =>
    rw [List.foldl_cons, ih, State.forceRelease_get]
    by_cases hd : s.dc[d].railGated = true ∧ s.dc[d].mode ≠ .released
    · by_cases hc : c = d
      · simp only [hc, hd, if_true, List.mem_cons_self, ne_eq, not_false_eq_true, and_self,
          Dc.operate_mode, not_true_eq_false, and_false, if_false]
      · simp only [hc, hd, false_and, if_false, List.mem_cons, Ne.symm hc, false_or]
    · have hd' : ∀ p : Prop, ¬(p ∧ s.dc[d].railGated = true ∧ s.dc[d].mode ≠ .released) := fun p h => hd h.2
      simp only [hd', if_false]

/-- R120: forced releases leave the banks. -/
theorem State.forceReleases_lau (s : State) (l : List (Fin 8)) : (l.foldl State.forceRelease s).lau = s.lau := by
  induction l generalizing s with
  | nil => rfl
  | cons c l ih => rw [List.foldl_cons, ih, State.forceRelease_eq]

theorem mem_bankDrives (b : Fin 4) (c : Fin 8) : c ∈ bankDrives b ↔ driveBank c = b := by simp [bankDrives]

/-- R120: with every gated channel of a bank released its rail may be ABSENT. -/
theorem State.DrivesSafe.railLost {s : State} {b : Fin 4} (hs : s.DrivesSafe) {v : State} (hv : BoardFrame s v)
    (hdc : v.dc = s.dc) (hlau : ∀ a : Fin 4, a ≠ b → v.lau[a].present = s.lau[a].present) :
    ((bankDrives b).foldl State.forceRelease v).DrivesSafe := by
  have hframe := hv.trans (BoardFrame.foldl State.forceRelease State.forceRelease_boardFrame v (bankDrives b))
  have hget := fun d => State.forceReleases_get v (bankDrives b) d
  simp only [mem_bankDrives, hdc] at hget
  have hmode : ∀ d : Fin 8, s.dc[d].mode = .released → ((bankDrives b).foldl State.forceRelease v).dc[d].mode = .released :=
    fun d h => by
      rw [hget]; split
      · exact Dc.operate_mode _ _
      · exact h
  refine ⟨fun c hg ha => ?_, fun c hm => ?_, fun hl k e hk c op hop => ?_, fun c => ?_⟩
  · rw [State.forceReleases_lau] at ha
    by_cases hcb : driveBank c = b
    · rw [hget] at hg ⊢
      split
      · exact Dc.operate_mode _ _
      · rename_i hn
        rw [if_neg hn] at hg
        exact by_contra fun hm => hn ⟨hcb, hg, hm⟩
    · have hg' : s.dc[c].railGated = true := by
        rw [hget, if_neg fun h => hcb h.1] at hg; exact hg
      exact hmode c (hs.rails c hg' ((hlau _ hcb) ▸ ha))
  · exact hmode c (hs.mask c (hframe.permitMask ▸ hm))
  · rw [hframe.permitMask]
    exact hs.plan (hframe.live ▸ hl) k e (hframe.plan ▸ hk) c op hop
  · rw [hget]; split
    · exact Dc.operate_sound _ _ (hs.generators c)
    · exact hs.generators c

/-- R120: a bank that takes a threshold and a rail state leaves the drives safe. -/
theorem State.DrivesSafe.setBank {s : State} (hs : s.DrivesSafe) (b : Fin 4) (threshold : Nat) (present : Bool) :
    (s.setBank b threshold present).DrivesSafe := by
  have h0 : BoardFrame s (s.setLau b { s.lau[b] with threshold, present }) := ⟨rfl⟩
  have hlau : ∀ a : Fin 4, (s.setLau b { s.lau[b] with threshold, present }).lau[a].present =
      if b = a then present else s.lau[a].present := fun a => by rw [State.setLau_get]; split <;> rfl
  unfold State.setBank
  dsimp only
  generalize hu0 : s.setLau b { s.lau[b] with threshold, present } = u0 at *
  have hu0dc : u0.dc = s.dc := by rw [← hu0]; rfl
  have h1 : Works .plain u0 (if s.lau[b].threshold ≠ threshold then u0.resampleBank b else u0) ∧
      BoardFrame u0 (if s.lau[b].threshold ≠ threshold then u0.resampleBank b else u0) ∧
      u0.DrivesKept (if s.lau[b].threshold ≠ threshold then u0.resampleBank b else u0) := by
    split
    · exact ⟨u0.resampleBank_works b, u0.resampleBank_boardFrame b, u0.resampleBank_drivesKept b⟩
    · exact ⟨.refl, .refl u0, rfl, rfl⟩
  generalize (if s.lau[b].threshold ≠ threshold then u0.resampleBank b else u0) = u1 at h1
  obtain ⟨hw1, hf1, hk1⟩ := h1
  generalize ({ time := s.rc.timeBase, body := .rail b present (if present then none else s.bankLevels b) } : Event) = e
  -- where the rail state stays, or comes, it asks for nothing more
  have safe : (s.lau[b].present = true → present = true) → u0.DrivesSafe := fun hp => by
    refine ⟨fun c hg ha => ?_, fun c hm => ?_, fun hl k e hk => ?_, fun c => ?_⟩
    · rw [hu0dc] at hg ⊢
      refine hs.rails c hg (Bool.eq_false_iff.2 fun ht => ?_)
      rw [hlau] at ha
      split at ha
      · rename_i hb; subst hb; exact absurd ((hp ht).symm.trans ha) (by decide)
      · exact absurd (ht.symm.trans ha) (by decide)
    · rw [hu0dc]; exact hs.mask c (h0.permitMask ▸ hm)
    · rw [h0.permitMask]; exact hs.plan (h0.live ▸ hl) k e (h0.plan ▸ hk)
    · rw [hu0dc]; exact hs.generators c
  split
  · rename_i hsame
    have := hw1.keeps_drivesSafe rfl (safe fun h => hsame ▸ h)
    split
    · exact (u1.thresholdMoved_works (x := .plain) b).keeps_drivesSafe rfl this
    · exact this
  · rename_i hmoved
    have hev : ∀ e : Event, Works .plain u1 ((u1.handEvent e).raise .rail) := fun e =>
      (u1.handEvent_works e).trans (State.raise_works _ _)
    split
    · rename_i hp
      have := Works.keeps_drivesSafe (x := .plain) rfl (hw1.trans (hev e)) (safe fun _ => hp)
      exact (State.railCame_works (x := .plain) _ b).keeps_drivesSafe rfl this
    · -- before the forced releases of R120 the channels are as they were
      have hfe : ∀ e : Event, BoardFrame s ((u1.handEvent e).raise .rail) ∧
          u0.DrivesKept ((u1.handEvent e).raise .rail) := fun e => ⟨(h0.trans hf1).trans ⟨rfl⟩, hk1.trans ⟨rfl, rfl⟩⟩
      obtain ⟨hf2, hk2⟩ := hfe e
      generalize (u1.handEvent e).raise .rail = u2 at hf2 hk2
      unfold State.railLost
      dsimp only
      have hk3 := (hk2.trans (u2.loseChannels_drivesKept b)).trans (State.DrivesKept.foldl
        (f := fun (s : State) (m : Fin 4) => s.setRm m s.rm[m].railLoss) (fun _ _ => ⟨rfl, rfl⟩) _
        ((u2.loseChannels b).bankMonitors b))
      have hf3 := (hf2.trans (u2.loseChannels_boardFrame b)).trans (BoardFrame.foldl
        (fun (s : State) (m : Fin 4) => s.setRm m s.rm[m].railLoss) (fun _ _ => ⟨rfl⟩) _
        ((u2.loseChannels b).bankMonitors b))
      have h4 := hs.railLost (b := b) hf3 (hk3.1.trans hu0dc) fun a ha => by
        rw [hk3.2, hlau, if_neg (Ne.symm ha)]
      have h5 := (Works.foldl (x := .plain) _ State.portRailLoss_works (bankPorts b)).keeps_drivesSafe rfl h4
      split
      · exact Works.keeps_drivesSafe (x := .plain) rfl ((State.codeRailLoss_works _).trans (State.scanRailLoss_works _)) h5
      · exact h5

/-- R77: BANK_SET leaves the drives safe. -/
theorem State.DrivesSafe.bankSet {s : State} (hs : s.DrivesSafe) (b : Fin 4) (r : BankSettings) :
    (s.bankSet b r).DrivesSafe := by
  have h0 := (s.setLau_works (x := .plain) b { s.lau[b] with settings := r, acq := none, trackWaiting := false }
    rfl).keeps_drivesSafe rfl hs
  unfold State.bankSet
  dsimp only
  split
  · exact Works.keeps_drivesSafe (x := .plain) rfl ((State.startInterval_works _ b).trans (State.beginAcq_works _ b _)) h0
  · exact h0.setBank b _ _

/-- R73: the end of an acquisition leaves the drives safe. -/
theorem State.DrivesSafe.endAcq {s : State} (hs : s.DrivesSafe) (b : Fin 4) (a : Acq) : (s.endAcq b a).DrivesSafe := by
  have h0 := (s.setLau_works (x := .plain) b { s.lau[b] with lastCode := a.result, acq := none } rfl).keeps_drivesSafe rfl hs
  have key : ∀ (u : State) (c : Bool), Works .plain u (if c = true then u.beginAcq b .track else u) := fun u c => by
    split
    · exact State.beginAcq_works _ _ _
    · exact .refl
  unfold State.endAcq
  dsimp only
  refine Works.keeps_drivesSafe (x := .plain) rfl (((State.handLevel_works _ b _ _).trans (State.raiseIf_works _ _ _)).trans
    (key _ _)) ?_
  split
  · exact h0.setBank b _ _
  · exact h0

/-! ## The tick (00_scope.md) -/

/-- One tick of the core clock keeps the invariants. -/
theorem State.keeps_tick (s : State) : Keeps s s.tick := by
  have hlive : s.tick.live = s.live := by
    show (Rc.tick s.rc).runState.live = s.rc.runState.live
    rfl
  have hdc : ∀ c : Fin 8, s.tick.dc[c] = s.dc[c].tick := fun c => by simp [State.tick]
  have hcp : ∀ p : Fin 2, s.tick.cp[p] = s.cp[p].tick (s.clock + 1) (s.readRx p) := fun p => by simp [State.tick]
  have hlau : ∀ b : Fin 4, s.tick.lau[b].present = s.lau[b].present := fun b => by simp [State.tick, Lau.tick]
  have hcpf : ∀ p : Fin 2, s.tick.cp[p].queue = s.cp[p].queue ∧ s.tick.cp[p].rxFragment = s.cp[p].rxFragment ∧
      s.tick.cp[p].txFragment = s.cp[p].txFragment := fun p => by
    rw [hcp]; unfold Cp.tick; dsimp only; split <;> exact ⟨rfl, rfl, rfl⟩
  have hfrag : (∀ p : Fin 2, s.cp[p].fragmentsSound) → ∀ p : Fin 2, s.tick.cp[p].fragmentsSound := fun h p => by
    have := h p
    unfold Cp.fragmentsSound at *
    rw [(hcpf p).2.1, (hcpf p).2.2]; exact this
  refine ⟨id, fun h => ?_, fun h => ?_, fun h => h.congr rfl hlive rfl (hfrag h.fragments), fun h => ?_⟩
  · show (s.sc.tick (s.clock + 1) s.readTdo).restsIdle
    unfold Sc.tick
    split
    · exact h
    · rename_i a ha
      dsimp only
      split
      · exact fun hj => by cases hj
      · exact h
  · refine { h with
      codeRecord := State.codeRecordSound_congr h.codeRecord rfl hlive
      scans := ?_
      transmit := fun p => by have := h.transmit p; unfold Cp.fitsTransmit at *; rw [(hcpf p).1]; exact this
      fragments := hfrag h.fragments }
    show (s.sc.tick (s.clock + 1) s.readTdo).fits
    unfold Sc.tick
    split
    · exact h.scans
    · dsimp only
      split
      · exact h.scans
      · exact h.scans
  · refine ⟨fun c hg ha => ?_, fun c hm => ?_, fun hl => h.plan (hlive ▸ hl), fun c => ?_⟩
    · rw [hdc, Dc.tick_mode]
      rw [hdc, Dc.tick_railGated] at hg
      exact h.rails c hg (hlau _ ▸ ha)
    · rw [hdc, Dc.tick_mode]; exact h.mask c hm
    · rw [hdc]; exact Dc.tick_sound _ (h.generators c)

/-! ## Every step -/

/-- Every command keeps the invariants. -/
theorem exec_keeps {c : Instr} {s t : State} (h : exec c s = .next t) : Keeps s t := by
  cases hc : scopeOf c with
  | some x =>
    have hw := exec_works hc h
    by_cases hx : x.rails = false
    · exact hw.keepsAll hx
    · -- the two commands that may move a rail
      cases c with
      | bankSet tag bank b =>
        cases h
        exact takeRequest_keeps fun u _ => (bankSetOwner_works u bank b).keepsBank fun hs => by
          unfold bankSetOwner
          split
          · exact hs.bankSet _ _
          · exact hs
      | acquisitionEnd b =>
        have hw' := execAcquisitionEnd_works s h
        refine hw'.keepsBank fun hs => ?_
        cases h
        split
        · split
          · exact hs.endAcq b _
          · exact hs
        · exact hs
      | _ => cases hc <;> exact absurd rfl hx
  | none =>
    cases c with
    | por => cases h; exact State.keeps_hardReset s s
    | pinReset => cases h; exact State.keeps_hardReset s s
    | softReset =>
      cases h
      split
      · exact State.keeps_softReset s s
      · exact .refl s
    | arm tag => cases h; exact takeRequest_keeps armOwner_keeps
    | abort tag =>
      cases h
      refine takeRequest_keeps fun u _ => ?_
      unfold abortOwner
      split
      · rename_i hl; dsimp only [okay]; exact State.keeps_takeEnd hl .abort
      · exact .refl u
    | permitSet tag mask =>
      cases h
      refine takeRequest_keeps fun u _ => ?_
      unfold permitSetOwner
      split
      · exact .refl u
      · rename_i hl
        split
        · exact .refl u
        · exact u.keeps_permit mask (by simpa using hl)
    | armTimeout =>
      cases h
      have hs := s.settle_works.keepsAll rfl
      split
      · split
        · rename_i _ hd
          simp only [State.armTimeoutDue, Bool.and_eq_true, beq_iff_eq] at hd
          exact hs.trans (State.keeps_endRun (s.settle.live_iff.2 (.inl hd.1)) .armTimeout)
        · exact hs
      · exact .refl s
    | limitExpiry =>
      cases h
      split
      · rename_i hd
        simp only [State.limitDue, Bool.and_eq_true, beq_iff_eq] at hd
        exact State.keeps_takeEnd (s.live_iff.2 (.inr hd.1)) .limit
      · exact .refl s
    | endRequest =>
      cases h
      split
      · exact .refl s
      · rename_i cause rest _
        have h0 : Keeps s (s.setRc { s.rc with endRequests := rest }) :=
            Works.keepsAll (x := .plain) rfl (.single (.run _ _ rfl))
        dsimp only
        split
        · rename_i hr
          exact h0.trans (State.keeps_takeEnd (s := s.setRc { s.rc with endRequests := rest }) (s.live_iff.2 (.inr hr)) cause)
        · exact h0
    | _ => cases hc

/-- Every step keeps the invariants. -/
theorem step_keeps {s t : State} (h : step s = .next t) : Keeps s t := by
  unfold step at h
  split at h
  · cases h
    by_cases hr : s.ready = []
    · rw [s.advance_of_idle hr]; exact s.keeps_tick
    · obtain ⟨c, n, -, heq⟩ := s.advance_of_ready hr
      rw [heq]; exact .free _ _ _
  · rename_i c rest _
    exact (Keeps.free s rest s.choices).trans (exec_keeps h)

/-! ## The obligations -/

/-- Settles O12. -/
theorem invariantsHoldAtReset : Obligations.InvariantsHoldAtReset :=
  ⟨by simp [Fu.Sound, State.reset, Fu.reset], State.reset_storeSound, State.reset_fits, .of_reset State.reset_dc rfl,
    fun _ => .inl rfl⟩

/-- Settles O13: the notice slot is kept by every command, and by the tick. -/
theorem stepKeepsNoticeSlot : Obligations.StepKeepsNoticeSlot := fun _ _ hs h => (step_keeps h).notices hs

/-- Settles O14: the store's invariant is kept by every command, and by the tick. -/
theorem stepKeepsStore : Obligations.StepKeepsStore := fun _ _ hs h => (step_keeps h).store hs

/-- Settles O15: the capacities are kept by every command, and by the tick. -/
theorem stepKeepsCapacities : Obligations.StepKeepsCapacities := fun _ _ hs h => (step_keeps h).fits hs

/-- Settles O16: the drives are kept safe by every command, and by the tick. -/
theorem stepKeepsDrivesSafe : Obligations.StepKeepsDrivesSafe := fun _ _ hs h => (step_keeps h).drives hs

/-- Settles O17: the TAP is kept at rest between jobs by every command, and by the tick. -/
theorem stepKeepsTapAtRest : Obligations.StepKeepsTapAtRest := fun _ _ hs h => (step_keeps h).tap hs

end Sys2Proof.Machine
end

section
/-! A step in a terminal state stays as it is through the evaluation of steps and the ends of a run (R30). -/

namespace Sys2Proof.Machine

open Relation

/-- R30: every step in a terminal state keeps its evaluation record. -/
def State.TerminalKept (s t : State) : Prop :=
  ∀ (k : Fin 64) (v : StepEval), s.ste.evals[k] = some v → v.state.terminal = true → t.ste.evals[k] = some v

theorem State.TerminalKept.refl (s : State) : s.TerminalKept s := fun _ _ h _ => h

theorem State.TerminalKept.trans {s t u : State} (h : s.TerminalKept t) (k : t.TerminalKept u) : s.TerminalKept u :=
  fun j v hv ht => k j v (h j v hv ht) ht

theorem State.TerminalKept.of_evals {s t : State} (h : t.ste.evals = s.ste.evals) : s.TerminalKept t :=
  fun k v hv _ => by rw [h]; exact hv

theorem State.TerminalKept.foldl {α : Type} {f : State → α → State} (h : ∀ (s : State) a, s.TerminalKept (f s a))
    (s : State) (l : List α) : s.TerminalKept (l.foldl f s) := by
  induction l generalizing s with
  | nil => exact .refl s
  | cons a l ih => exact (h s a).trans (ih _)

/-- The evaluation records of all steps but `k` stay. -/
def State.OthersKept (k : Fin 64) (s t : State) : Prop := ∀ j, j ≠ k → t.ste.evals[j] = s.ste.evals[j]

theorem State.OthersKept.trans {k : Fin 64} {s t u : State} (h : s.OthersKept k t) (g : t.OthersKept k u) :
    s.OthersKept k u := fun j hj => (g j hj).trans (h j hj)

/-- R30: what changes no record but that of a step that was PENDING or OPEN keeps the terminal ones. -/
theorem State.OthersKept.terminalKept {k : Fin 64} {s t : State} (h : State.OthersKept k s t)
    (hk : ∀ v, s.ste.evals[k] = some v → v.state.terminal = false) : s.TerminalKept t := fun j v hv ht => by
  by_cases hj : j = k
  · subst hj; exact absurd (ht.symm.trans (hk v hv)) (by decide)
  · rw [h j hj]; exact hv

section
variable (s : State)

theorem State.setEval_others (k : Fin 64) (v : StepEval) : State.OthersKept k s (s.setEval k v) := fun j hj => by
  rw [State.setEval_get, if_neg (Ne.symm hj)]

theorem State.setRefused_others (k : Fin 64) : State.OthersKept k s (s.setRefused k) := by
  unfold State.setRefused
  split
  · exact fun _ _ => rfl
  · exact s.setEval_others k _

/-- R23: an action changes at most the record of its own step. -/
theorem State.act_others (k : Fin 64) (a : Action) : State.OthersKept k s (State.act k s a) := by
  cases a with
  | drive c op =>
    unfold State.act
    dsimp only
    rcases s.stepClaim_cases c op with ⟨-, -, -, h⟩ | ⟨-, h⟩
    · rw [h]; exact State.setRefused_others _ k
    · rw [h]
      intro j _
      show (s.driveOperate c op .step).ste.evals[j] = _
      rw [State.driveOperate_eq]; rfl
  | scan t =>
    have h : (s.submitStep t).ste.evals = s.ste.evals := by rw [(s.submitStep_frame t).eq]
    exact fun j _ => congrArg (fun e : Vector (Option StepEval) 64 => e[j]) h
  | mark code =>
    intro j _
    simp only [State.act, State.hand_ste]
  | trigger =>
    have h : (s.fireTrigger (.step k)).ste.evals = s.ste.evals := by rw [State.fireTrigger_eq]
    exact fun j _ => congrArg (fun e : Vector (Option StepEval) 64 => e[j]) h
  | endRun => exact fun _ _ => rfl

theorem State.acts_others (k : Fin 64) (l : List Action) : State.OthersKept k s (l.foldl (State.act k) s) := by
  induction l generalizing s with
  | nil => exact fun _ _ => rfl
  | cons a l ih => exact (s.act_others k a).trans (ih _)

/-- R46: a resolution changes the record of its own step alone. -/
theorem State.resolveStep_others (k : Fin 64) (e : StepEntry) (v : StepEval) (st : StepState) (time : Nat) :
    State.OthersKept k s (s.resolveStep k e v st time) := by
  have h2 : State.OthersKept k s ((s.setEval k { v with state := st, resolution := some time }).setSte
      ((s.setEval k { v with state := st, resolution := some time }).ste.note k e st)) := s.setEval_others k _
  have h3 := h2.trans (State.acts_others _ k e.actions)
  have h4 : ∀ u : State, State.OthersKept k s u → State.OthersKept k s (match u.ste.evals[k] with
      | none => u
      | some v' => u.hand .run (stepRecord k e v')) := fun u hu => by
    split
    · exact hu
    · exact fun j hj => by rw [State.hand_ste]; exact hu j hj
  unfold State.resolveStep
  dsimp only
  intro j hj
  rw [State.raiseIf_ste]
  refine h4 _ ?_ j hj
  split
  · exact h3
  · exact h2

/-- A step in a state that is not terminal. -/
theorem Ste.inState_active {t : Ste} {k : Fin 64} {st : StepState} {e : StepEntry} {v : StepEval}
    (h : t.inState k st = some (e, v)) (hst : st.terminal = false) : ∀ w, t.evals[k] = some w → w.state.terminal = false := by
  obtain ⟨-, hv, hs⟩ := (Ste.inState_iff _ _ _ _ _).1 h
  intro w hw
  obtain rfl : v = w := Option.some.inj (hv.symm.trans hw)
  rw [hs]; exact hst

theorem skipOne_terminalKept (time : Nat) (acc : State × List (Fin 64)) (j : Fin 64) :
    acc.1.TerminalKept (skipOne time acc j).1 := by
  unfold skipOne
  split
  · rename_i e v hi
    split
    · split
      · exact (State.resolveStep_others _ j e v _ _).terminalKept (Ste.inState_active hi rfl)
      · exact .refl _
    · exact .refl _
  · exact .refl _

theorem State.skipChain_terminalKept (k : Fin 64) (time : Nat) : s.TerminalKept (s.skipChain k time) := by
  have key : ∀ (l : List (Fin 64)) (acc : State × List (Fin 64)), acc.1.TerminalKept (l.foldl (skipOne time) acc).1 :=
    fun l => by
      induction l with
      | nil => exact fun acc => .refl _
      | cons j l ih => exact fun acc => (skipOne_terminalKept time acc j).trans (ih _)
  exact key _ (s, [k])

/-- R43: a PENDING step that opens, with what follows from it. -/
theorem State.openThen_terminalKept {j : Fin 64} {e : StepEntry} {v : StepEval} (hi : s.ste.inState j .pending = some (e, v))
    (anchor : Nat) (f : StepState → Nat → State → State)
      (hf : ∀ (st : StepState) (t : Nat) (u : State), u.TerminalKept (f st t u)) :
    s.TerminalKept (match s.openStep j e v anchor with
      | (s', some (st, t)) => f st t s'
      | (s', none) => s') := by
  obtain ⟨w, hw⟩ := s.openStep_eq j e v anchor
  have h : s.TerminalKept (s.openStep j e v anchor).1 := by
    rw [hw]; exact (s.setEval_others j w).terminalKept (Ste.inState_active hi rfl)
  split
  · rename_i heq; rw [heq] at h; exact h.trans (hf _ _ _)
  · rename_i heq; rw [heq] at h; exact h

/-- R46: a resolution with all that follows from it. -/
theorem State.resolve_terminalKept (n : Nat) (k : Fin 64) (st : StepState) (time : Nat) (s : State) :
    s.TerminalKept (State.resolve n k st time s) := by
  induction n generalizing k st time s with
  | zero => exact .refl s
  | succ n ih =>
    unfold State.resolve
    split
    · exact .refl s
    · rename_i e v hi
      have hr := (s.resolveStep_others k e v st time).terminalKept (Ste.inState_active hi rfl)
      dsimp only
      split
      · refine hr.trans (State.TerminalKept.foldl (fun u j => ?_) _ _)
        split
        · rename_i hj
          split
          · exact u.openThen_terminalKept hj time (State.resolve n j) fun st t u => ih j st t u
          · exact .refl u
        · exact .refl u
      · exact hr.trans (State.skipChain_terminalKept _ _ _)

theorem State.openStarts_terminalKept (anchor : Nat) : s.TerminalKept (s.openStarts anchor) := by
  unfold State.openStarts
  refine State.TerminalKept.foldl (fun u j => ?_) _ _
  split
  · rename_i hj
    split
    · exact u.openThen_terminalKept hj anchor (State.resolve chainDepth j) fun st t u => State.resolve_terminalKept _ j st t u
    · exact .refl u
  · exact .refl u

theorem offerTo_terminalKept (x : Event) (j : Fin 64) : s.TerminalKept (offerTo x s j) := by
  unfold offerTo
  split
  · exact .refl s
  · rename_i hj
    have h : ∀ w, s.TerminalKept (s.setEval j w) := fun w =>
      (s.setEval_others j w).terminalKept (Ste.inState_active hj rfl)
    split
    · split
      · exact (h _).trans (State.resolve_terminalKept _ _ _ _ _)
      · exact h _
    · exact .refl s

theorem decideStep_terminalKept (j : Fin 64) : s.TerminalKept (decideStep s j) := by
  unfold decideStep
  split
  · exact .refl s
  · rename_i hj
    split
    · exact ((s.setEval_others j _).terminalKept (Ste.inState_active hj rfl)).trans (State.resolve_terminalKept _ _ _ _ _)
    · exact .refl s

theorem State.closePass_terminalKept : s.TerminalKept s.closePass := .of_evals rfl

theorem State.decideAll_terminalKept : s.TerminalKept s.decideAll :=
  (State.TerminalKept.foldl decideStep_terminalKept s _).trans (State.closePass_terminalKept _)

theorem State.startRun_terminalKept (time : Nat) : s.TerminalKept (s.startRun time) := by
  have h1 : s.TerminalKept (((s.setRc (s.rc.started time)).hand .run
      { time, body := .runStarted (s.setRc (s.rc.started time)).rc.active.source }).raise .runStart) :=
    .of_evals (by show (State.hand _ _ _).ste.evals = _; rw [State.hand_ste]; rfl)
  have h2 := (h1.trans (State.openStarts_terminalKept _ time)).trans (State.closePass_terminalKept _)
  unfold State.startRun
  dsimp only
  split
  · exact h2.trans (.of_evals (by rw [State.fireTrigger_eq]))
  · exact h2

/-- R33: the look-back list leaves the evaluation records. -/
theorem Ste.append_evals (t : Ste) (x : Event) : (t.append x).evals = t.evals := by rw [(Ste.append_spec t x).1]

theorem State.deliver_terminalKept (x : Event) : s.TerminalKept (s.deliver x) := by
  have h : s.TerminalKept (s.setSte (s.ste.append x)) := .of_evals (Ste.append_evals _ x)
  unfold State.deliver
  split
  · exact .refl s
  · exact .refl s
  · dsimp only
    split
    · exact h.trans (State.startRun_terminalKept _ _)
    · exact h
  · unfold State.deliverRunning
    exact (h.trans (State.TerminalKept.foldl (fun u j => offerTo_terminalKept u x j) _ _)).trans
      (State.closePass_terminalKept _)

theorem State.deliverNext_terminalKept : s.TerminalKept s.deliverNext := by
  unfold State.deliverNext
  split
  · exact .refl s
  · rename_i rest _
    exact (State.TerminalKept.of_evals (t := s.setSte { s.ste with events := rest }) rfl).trans
      (State.deliver_terminalKept _ _)

theorem State.deliverFirst_terminalKept (n : Nat) (s : State) : s.TerminalKept (s.deliverFirst n) := by
  induction n generalizing s with
  | zero => exact .refl s
  | succ n ih => exact s.deliverNext_terminalKept.trans (ih _)

theorem State.settle_terminalKept : s.TerminalKept s.settle := State.deliverFirst_terminalKept _ s

/-! ## The ends of a run (R15) -/

theorem State.cancelStep_terminalKept (k : Fin 64) : s.TerminalKept (cancelStep s k) := by
  unfold cancelStep
  split
  · rename_i e v _ hv
    split
    · exact .refl s
    · rename_i ht
      refine State.OthersKept.terminalKept (k := k) (fun j hj => ?_) fun w hw => ?_
      · exact s.setEval_others k _ j hj
      · obtain rfl : v = w := Option.some.inj (hv.symm.trans hw)
        simpa using ht
  · exact .refl s

theorem State.closeSources_evals : s.closeSources.ste.evals = s.ste.evals := by
  unfold State.closeSources
  exact ((((s.closeCode_boardFrame true).trans (State.closeFragment_boardFrame _ true 0 .rx false)).trans
    (State.closeFragment_boardFrame _ true 0 .tx false)).trans (State.closeFragment_boardFrame _ true 1 .rx false)).trans
    (State.closeFragment_boardFrame _ true 1 .tx false) |>.evals

theorem State.cancelWhere_terminalKept (p : Job → Bool) : s.TerminalKept (s.cancelWhere p) :=
  .of_evals (by rw [(s.cancelWhere_frame p).eq])

theorem State.closeRun_terminalKept (cause : EndCause) : s.TerminalKept (s.closeRun cause) := .of_evals rfl

theorem State.endedInPass_terminalKept {w : State} (h : s.TerminalKept w) (k : Nat) (u : State) :
    s.TerminalKept (u.endedInPass w k) := h.trans (.of_evals rfl)

theorem State.endRun_terminalKept (cause : EndCause) : s.TerminalKept (s.endRun cause) := by
  have h1 : s.TerminalKept (s.setRc { s.rc with runState := .ended }).cancelSteps :=
    (State.TerminalKept.of_evals (t := s.setRc { s.rc with runState := .ended }) rfl).trans
      (State.TerminalKept.foldl State.cancelStep_terminalKept _ _)
  have h2 := h1.trans (.of_evals (State.closeSources_evals _))
  have h3 := h2.trans (State.closeRun_terminalKept _ cause)
  rw [State.endRun_eq]
  exact h3.trans (State.cancelWhere_terminalKept _ _)

theorem State.settleEnd_terminalKept (c : Nat) : s.TerminalKept (s.settleEnd c) := by
  have h := s.settle_terminalKept
  unfold State.settleEnd
  dsimp only
  generalize s.settle = u at h
  split
  · exact s.endedInPass_terminalKept (h.trans (State.decideAll_terminalKept _)) _ _
  · split
    · exact s.endedInPass_terminalKept h _ _
    · exact h

theorem State.takeEnd_terminalKept (cause : EndCause) : s.TerminalKept (s.takeEnd cause) := by
  have h := s.settleEnd_terminalKept (Config.choose s.choices)
  unfold State.takeEnd
  dsimp only
  generalize s.settleEnd (Config.choose s.choices) = u at h
  exact (h.trans (.of_evals (t := { u with choices := u.choices + 1 }) rfl)).trans (State.endRun_terminalKept _ cause)

/-- R121: a new permit mask leaves the evaluation records. -/
theorem State.permit_evals (mask : Byte) : (s.permit mask).ste.evals = s.ste.evals := by
  have h : Works .plain { s with permitMask := mask } (s.permit mask) := Works.foldl _ State.revoke_works _
  exact Works.keeps_evals (s := { s with permitMask := mask }) rfl h

end

/-- R134: a request taken keeps the terminal steps where its owner does. -/
theorem takeRequest_terminalKept {c : Instr} {k t : Byte} {owner : State → Answer} {s : State}
    (h : ∀ u : State, u.TerminalKept (owner u).state) : s.TerminalKept (takeRequest c k t owner s) := by
  unfold takeRequest
  split
  · have hb : ∀ u : State, (s.beside u).ste = u.ste := fun u => by
      obtain ⟨m, hm⟩ := s.beside_eq u; rw [hm]
    refine State.TerminalKept.trans (t := Answer.send _ k t) ?_ (.of_evals (by rw [hb]))
    split
    · exact (State.TerminalKept.of_evals (t := { s with mp := s.mp.pop }) rfl).trans ((h _).trans (.of_evals rfl))
    · exact .of_evals rfl
  · exact .refl s

/-- R30: every command but an ARM and the resets keeps the steps in a terminal state. -/
theorem exec_terminalKept {c : Instr} {s t : State} (harm : ∀ tag, c ≠ .arm tag) (hpor : c ≠ .por) (hpin : c ≠ .pinReset)
    (hsoft : c ≠ .softReset) (h : exec c s = .next t) : s.TerminalKept t := by
  cases hc : scopeOf c with
  | some x =>
    by_cases hx : x.evals = false
    · exact .of_evals ((exec_works hc h).keeps_evals hx)
    · -- the four commands that evaluate steps
      cases c with
      | start tag =>
        cases h
        refine takeRequest_terminalKept fun u => ?_
        unfold startOwner
        split
        · dsimp only [okay]; exact u.startRun_terminalKept _
        · exact .refl u
      | eventDelivery k =>
        cases h
        split
        · exact .refl s
        · exact (State.TerminalKept.of_evals (t := s.setSte { s.ste with events := s.ste.events.eraseIdx k }) rfl).trans
            (State.deliver_terminalKept _ _)
      | decisionTime =>
        cases h
        split
        · exact s.decideAll_terminalKept
        · exact .refl s
      | codeHistoryClear tag =>
        cases h
        refine takeRequest_terminalKept fun u => u.settle_terminalKept.trans ?_
        generalize u.settle = w
        exact .of_evals rfl
      | _ => cases hc <;> exact absurd rfl hx
  | none =>
    cases c with
    | por => exact absurd rfl hpor
    | pinReset => exact absurd rfl hpin
    | softReset => exact absurd rfl hsoft
    | arm tag => exact absurd rfl (harm tag)
    | abort tag =>
      cases h
      refine takeRequest_terminalKept fun u => ?_
      unfold abortOwner
      split
      · dsimp only [okay]; exact u.takeEnd_terminalKept .abort
      · exact .refl u
    | permitSet tag mask =>
      cases h
      refine takeRequest_terminalKept fun u => ?_
      unfold permitSetOwner
      split
      · exact .refl u
      · split
        · exact .refl u
        · exact .of_evals (u.permit_evals mask)
    | armTimeout =>
      cases h
      split
      · split
        · exact s.settle_terminalKept.trans (State.endRun_terminalKept _ _)
        · exact s.settle_terminalKept
      · exact .refl s
    | limitExpiry =>
      cases h
      split
      · exact s.takeEnd_terminalKept .limit
      · exact .refl s
    | endRequest =>
      cases h
      split
      · exact .refl s
      · rename_i cause rest _
        dsimp only
        split
        · exact (State.TerminalKept.of_evals (t := s.setRc { s.rc with endRequests := rest }) rfl).trans
            (State.takeEnd_terminalKept _ cause)
        · exact .of_evals rfl
    | _ => cases hc

/-- Settles O18: no command but an ARM and the resets writes the evaluation record of a step in a terminal state. -/
theorem terminalStepsStay : Obligations.TerminalStepsStay :=
  fun _ _ _ k v harm hpor hpin hsoft h hv ht => exec_terminalKept harm hpor hpin hsoft h k v hv ht

end Sys2Proof.Machine
end

section
/-! The machine's steps, the message port and the resets (R133 to R138). -/

namespace Sys2Proof.Machine

/-! ## The front of the queue -/

/-- Settles O1. -/
theorem stepRunsFrontCommand : Obligations.StepRunsFrontCommand := fun s c rest h => by
  unfold step
  rw [h]

/-! ## The resets (R138) -/

/-- Settles O10: each reset is the state written out. -/
theorem resetsAct : Obligations.ResetsAct := by
  intro s
  refine ⟨rfl, rfl, fun h => ?_, fun h => ?_, fun detach => rfl⟩
  · show Host.Outcome.next (if s.mp.resetDue then s.softReset else s) = _
    rw [if_pos h]
    have htransfer : s.mp.transfer.afterSoftReset = if s.mp.transfer = .between then .between else .discarding := by
      cases s.mp.transfer <;> rfl
    unfold State.softReset
    rw [htransfer]
    rfl
  · show Host.Outcome.next (if s.mp.resetDue then s.softReset else s) = _
    rw [h]
    rfl

@[simp] theorem State.reset_lau (b : Fin 4) : State.reset.lau[b] = Lau.reset := by simp [State.reset]
@[simp] theorem State.reset_mc (c : Fin 24) : State.reset.mc[c] = Mc.reset := by simp [State.reset]
@[simp] theorem State.reset_rm (m : Fin 4) : State.reset.rm[m] = Rm.reset := by simp [State.reset]

/-- R19, R50: after reset no entry of a plan is used. -/
theorem State.reset_plan (k : Fin 64) : State.reset.ste.staged[k] = none ∧ State.reset.ste.active[k] = none ∧
    State.reset.ste.evals[k] = none := by
  simp [State.reset, Ste.reset, Plan.reset]

/-- R132: after reset no template is used. -/
theorem State.reset_templates (t : Fin 8) : State.reset.sc.staged[t] = none ∧ State.reset.sc.active[t] = none := by
  simp [State.reset, Sc.reset]

/-- Settles O11: block by block, each field is the one its chapter gives. -/
theorem resetValues : Obligations.ResetValues := by
  refine ⟨⟨rfl, rfl, rfl, rfl, rfl, rfl, rfl, rfl⟩, State.reset_plan, ⟨rfl, rfl⟩,
    ⟨rfl, rfl, rfl, rfl, rfl, rfl, rfl, rfl, rfl, rfl, rfl⟩, fun b => ?_, fun c => ?_, fun m => ?_,
    ⟨rfl, rfl, rfl, rfl, rfl, rfl⟩, fun p => ?_, fun m => ?_, fun c => ?_, ⟨rfl, rfl⟩, ⟨rfl, rfl, rfl, rfl, rfl⟩,
    State.reset_templates, ⟨rfl, rfl, rfl, rfl, rfl⟩, ⟨rfl, rfl, rfl⟩⟩
  · rw [State.reset_lau]; exact ⟨rfl, rfl, rfl, rfl, rfl⟩
  · rw [State.reset_mc]; exact ⟨rfl, rfl, rfl, rfl⟩
  · rw [State.reset_rm]; exact ⟨rfl, rfl, rfl, rfl, rfl⟩
  · rw [State.reset_cp]; exact ⟨rfl, rfl, rfl, rfl, rfl, rfl⟩
  · rw [State.reset_tm]; exact ⟨rfl, rfl⟩
  · rw [State.reset_dc]; exact ⟨rfl, rfl, rfl, rfl, rfl, rfl, rfl, rfl⟩

/-! ## Replies, notices and the port's own requests (R134, R135, R137, R138) -/

/-- Settles O8: REPLY_SEND needs an attached part and a reply; NOTICE_SEND a notice, and no reply or one ready together. -/
theorem repliesAndNoticesAreSent : Obligations.RepliesAndNoticesAreSent := by
  refine ⟨fun s r ha hr => ?_, fun s ha hr hs => ?_, fun s h => ?_⟩
  · show execReplySend s = _
    unfold execReplySend
    rw [ha, hr]
  · have hready : (s.mp.attached && (s.mp.reply.isNone || s.mp.together) && s.fu.slot != 0) = true := by
      simp only [ha, Bool.true_and, Bool.and_eq_true, Bool.or_eq_true, Option.isNone_iff_eq_none, bne_iff_ne]
      exact ⟨hr, hs⟩
    show execNoticeSend s = _
    unfold execNoticeSend
    rw [if_pos hready]
    rfl
  · have hidle : ¬(s.mp.attached && (s.mp.reply.isNone || s.mp.together) && s.fu.slot != 0) = true := by
      simp only [Bool.and_eq_true, Bool.or_eq_true, Option.isNone_iff_eq_none, bne_iff_ne]
      rintro ⟨⟨ha, hr⟩, hs⟩
      rcases h with h | h | ⟨h1, h2⟩
      · exact absurd (ha.symm.trans h) (by decide)
      · exact hs h
      · exact hr.elim h1 fun h => absurd (h.symm.trans h2) (by decide)
    show execNoticeSend s = _
    unfold execNoticeSend
    rw [if_neg hidle]

/-- Settles O9: both are requests whose owner leaves the notice slot. -/
theorem portRequestsAnswer : Obligations.PortRequestsAnswer := by
  refine fun s tag => ⟨fun h => congrArg Host.Outcome.next (takeRequest_unchanged h rfl rfl), fun h => ?_⟩
  show Host.Outcome.next (takeRequest _ _ _ _ _) = _
  rw [takeRequest_of_taken _ _ _ h rfl]
  exact congrArg Host.Outcome.next (State.beside_of_slot rfl)

/-! ## One request at a time (R134) -/

/-- R134: a request that waits, or is behind another, cannot be taken. -/
theorem Mp.canTake_of_waits {m : Mp} {i : Instr}
    (h : m.busy = true ∨ ∃ e q, m.queue = e :: q ∧ e.command ≠ i) : m.canTake i = false := by
  rcases h with h | ⟨e, q, hq, hc⟩
  · exact Mp.canTake_of_busy i h
  · exact Mp.canTake_of_behind hq hc

/-- R133: an entry that cannot be taken is not answered. -/
theorem State.answerEntry_of_waiting {s : State} {c : Instr} (e : Entry) (h : s.mp.canTake c = false) :
    s.answerEntry c e = s := by
  simp [State.answerEntry, h]

/-- Settles O7: every command that an entry stands for asks the MP first. -/
theorem requestsWaitTheirTurn : Obligations.RequestsWaitTheirTurn := by
  intro i e s he hw
  have h := Mp.canTake_of_waits hw
  cases i with
  | unknownKind k tag b => exact congrArg Host.Outcome.next (State.answerEntry_of_waiting _ h)
  | malformed e => exact congrArg Host.Outcome.next (State.answerEntry_of_waiting _ h)
  | mark tag label =>
    show execMark tag label s = _
    unfold execMark
    dsimp only
    rw [h, Bool.false_and, Bool.false_and, if_neg Bool.false_ne_true, takeRequest_of_waiting _ _ _ h]
  | por | pinReset | softReset | linkReset | frameReceive | errorEntry | replySend | noticeSend | armTimeout
  | limitExpiry | endRequest | eventDelivery | decisionTime | recordTake | intervalStart | acquisitionEnd
  | rawInputChange | transitionAccepted | blankingEnd | tachFallingEdge | stallExpiry | gateEnd | strobeEdge
  | strobeBlankingEnd | foldTimerExpiry | waitIdleExpiry | startEdge | startBitGlitch | byteArrival | heldFrameTaken
  | breakSeen | waitHighRecovery | idleGapExpiry | byteSendTime | byteSent | generatorActiveLevel | periodEnd
  | operationEnd => cases he
  | _ => exact congrArg Host.Outcome.next (takeRequest_of_waiting _ _ _ h)

end Sys2Proof.Machine
end


section
/-! What is ready, command by command: each executable test of the model is the moment that `State.isDue` spells. -/

namespace Sys2Proof.Machine

/-! ## A moment and its test -/

/-- A timer that is none never comes; one that is set comes at its end. -/
theorem any_reached (timer : Option Nat) (span clock : Nat) :
    (timer.any fun t => decide (t + span ≤ clock)) = true ↔ reached timer span clock := by
  cases timer <;> simp [reached]

/-- `any_reached` for a timer that names the moment itself. -/
theorem any_reached_zero (timer : Option Nat) (clock : Nat) :
    (timer.any fun t => decide (t ≤ clock)) = true ↔ reached timer 0 clock := any_reached timer 0 clock

theorem State.readsHigh_iff (s : State) (b : Fin 4) (mv : Nat) :
    reads mv s.lau[b].threshold = true ↔ s.readsHigh b mv := by
  rw [reads, decide_eq_true_eq]; rfl

theorem State.not_readsHigh_iff (s : State) (b : Fin 4) (mv : Nat) :
    reads mv s.lau[b].threshold = false ↔ ¬s.readsHigh b mv := by
  rw [← s.readsHigh_iff, Bool.not_eq_true]

theorem State.readRx_iff (s : State) (p : Fin 2) : s.readRx p = true ↔ s.readsHigh (portBank p) s.pins.rx[p] :=
  s.readsHigh_iff _ _

theorem State.not_readRx_iff (s : State) (p : Fin 2) : s.readRx p = false ↔ ¬s.readsHigh (portBank p) s.pins.rx[p] :=
  s.not_readsHigh_iff _ _

theorem ConsSettings.stopBit_eq (r : ConsSettings) : r.stopBit = if r.format = .f8N1 then 9 else 10 := by
  cases h : r.format <;> simp [ConsSettings.stopBit, Format.frameBits, h]

theorem ConsSettings.longerThanFrame_iff (r : ConsSettings) (ticks : Nat) : r.longerThanFrame ticks = true ↔
    (if r.format = .f8N1 then 10 else 11) * 100000000 < ticks * baudRate r.baud := by
  cases h : r.format <;> simp [ConsSettings.longerThanFrame, Format.frameBits, Config.coreHz, h]

theorem RunState.live_iff (r : RunState) : r.live = true ↔ r = .armed ∨ r = .running := by
  cases r <;> simp [RunState.live]

variable (s : State)

/-! ## The run, the plan and the store -/

theorem State.armTimeoutDue_iff : s.armTimeoutDue = true ↔ s.isDue .armTimeout := by
  rw [State.armTimeoutDue, Bool.and_eq_true, beq_iff_eq, decide_eq_true_eq]; rfl

theorem State.limitDue_iff : s.limitDue = true ↔ s.isDue .limitExpiry := by
  simp [State.limitDue, State.isDue, any_reached_zero]

theorem State.deliverable_iff (k : Nat) : (s.ste.deliverable k).isSome = true ↔ s.isDue (.eventDelivery k) := by
  unfold Ste.deliverable
  cases h : s.ste.events[k]? with
  | none => simp [State.isDue, h]
  | some x => simp [State.isDue, h]

/-! ## The banks, channels and monitors -/

theorem Lau.intervalDue_iff (b : Fin 4) : s.lau[b].intervalDue s.clock = true ↔ s.isDue (.intervalStart b) := by
  rw [Lau.intervalDue, Bool.and_eq_true, decide_eq_true_eq]; rfl

theorem Acq.done_iff (a : Acq) : a.done = true ↔ a.s0 + 8 * (16 * a.factor + a.s1) ≤ a.elapsed := by
  rw [Acq.done, decide_eq_true_eq]; rfl

theorem Acq.anyDone_iff (b : Fin 4) : s.lau[b].acq.any Acq.done = true ↔ s.isDue (.acquisitionEnd b) := by
  simp [State.isDue, Option.any_eq_true, Acq.done_iff]

theorem Mc.acceptDue_iff (c : Fin 24) : s.mc[c].acceptDue s.clock = true ↔ s.isDue (.transitionAccepted c) := by
  simp only [Mc.acceptDue, Option.any_eq_true, decide_eq_true_eq]; rfl

theorem Mc.blankingDue_iff (c : Fin 24) : s.mc[c].blankingDue s.clock = true ↔ s.isDue (.blankingEnd c) :=
  any_reached_zero _ _

theorem State.tachEdge_iff (m : Fin 4) : s.tachEdge m = true ↔ s.isDue (.tachFallingEdge m) := by
  simp only [State.tachEdge, State.rmReads, State.rawMc, State.isDue, Bool.and_eq_true, beq_iff_eq, Bool.not_eq_true',
    State.not_readsHigh_iff]
  tauto

theorem Rm.stallDue_iff (m : Fin 4) : s.rm[m].stallDue s.clock = true ↔ s.isDue (.stallExpiry m) := by
  rw [Rm.stallDue, Bool.and_eq_true, Bool.and_eq_true, beq_iff_eq, any_reached, and_assoc]; rfl

theorem Rm.gateDue_iff (m : Fin 4) : s.rm[m].gateDue s.clock = true ↔ s.isDue (.gateEnd m) := by
  rw [Rm.gateDue, Bool.and_eq_true, Bool.and_eq_true, beq_iff_eq, decide_eq_true_eq, and_assoc]; rfl

/-! ## The code port -/

theorem State.strobeNow_iff : s.strobeNow = true ↔ s.isDue .strobeEdge := by
  have level : (s.readStb = decide (s.cdp.settings.strobe = .rising)) ↔
      (s.readsHigh 3 s.pins.stb ↔ s.cdp.settings.strobe = .rising) := by
    rw [← s.readsHigh_iff, Bool.eq_iff_iff, decide_eq_true_eq]; rfl
  have rising : (s.cdp.settings.strobe == .rising) = decide (s.cdp.settings.strobe = .rising) := rfl
  simp only [State.strobeNow, State.watchesStb, CodeSettings.edgeLevel, State.isDue, Bool.and_eq_true, beq_iff_eq,
    rising, level,
    Option.isNone_iff_eq_none, decide_eq_true_eq]
  tauto

theorem State.strobeBlankingDue_iff : s.strobeBlankingDue = true ↔ s.isDue .strobeBlankingEnd := any_reached_zero _ _

theorem State.foldDue_iff : s.foldDue = true ↔ s.isDue .foldTimerExpiry := any_reached _ _ _

/-! ## The console ports -/

section
variable (p : Fin 2)

theorem State.waitIdleDue_iff : s.waitIdleDue p = true ↔ s.isDue (.waitIdleExpiry p) := by
  simp [State.waitIdleDue, State.isDue, any_reached, and_assoc]

theorem State.startDue_iff : s.startDue p = true ↔ s.isDue (.startEdge p) := by
  simp [State.startDue, State.isDue, State.not_readRx_iff, and_assoc]

theorem State.glitchDue_iff : s.glitchDue p = true ↔ s.isDue (.startBitGlitch p) := by
  simp [State.glitchDue, State.isDue, State.readRx_iff, and_assoc]

theorem State.arrivalDue_iff : s.arrivalDue p = true ↔ s.isDue (.byteArrival p) := by
  simp [State.arrivalDue, State.isDue, ConsSettings.stopBit_eq, and_assoc]

theorem State.heldDue_iff : s.heldDue p = true ↔ s.isDue (.heldFrameTaken p) := by
  simp [State.heldDue, State.isDue, State.readRx_iff, and_assoc]

theorem State.breakDue_iff : s.breakDue p = true ↔ s.isDue (.breakSeen p) := by
  simp only [State.breakDue, State.isDue, Bool.and_eq_true, beq_iff_eq, Bool.not_eq_true', State.not_readRx_iff,
    ConsSettings.longerThanFrame_iff, and_assoc]

theorem State.recoveryDue_iff : s.recoveryDue p = true ↔ s.isDue (.waitHighRecovery p) := by
  simp [State.recoveryDue, State.isDue, State.readRx_iff, and_assoc]

theorem State.gapDue_iff (d : TextDir) : s.gapDue p d = true ↔ s.isDue (.idleGapExpiry p d) := by
  simp only [State.gapDue, State.live, Bool.and_eq_true, RunState.live_iff, Option.any_eq_true, decide_eq_true_eq]; rfl

theorem Cp.sendDue_iff : s.cp[p].sendDue s.clock = true ↔ s.isDue (.byteSendTime p) := by
  simp [Cp.sendDue, State.isDue, Option.any_eq_true, ConsSettings.stopBit_eq]

theorem Cp.sentDue_iff : s.cp[p].sentDue s.clock = true ↔ s.isDue (.byteSent p) := by
  simp [Cp.sentDue, State.isDue, Option.any_eq_true]

end

/-! ## The drive channels and the scan controller -/

theorem Dc.activeDue_iff (c : Fin 8) : s.dc[c].activeDue = true ↔ s.isDue (.generatorActiveLevel c) := by
  simp [Dc.activeDue, State.isDue, and_assoc]

theorem Dc.periodDue_iff (c : Fin 8) : s.dc[c].periodDue = true ↔ s.isDue (.periodEnd c) := by
  simp [Dc.periodDue, State.isDue]

theorem Active.anyOpDone_iff : (s.sc.job.any fun a => a.opDone s.clock) = true ↔ s.isDue .operationEnd := by
  simp [State.isDue, Option.any_eq_true, Active.opDone, Active.period, Nat.mul_comm]

/-! ## The lists of ready commands -/

variable {s} {c : Instr}

/-- A command whose test is its moment stands in the list exactly when its moment has come. -/
theorem mem_whenDue_isDue {test : Bool} {i : Instr} (h : test = true ↔ s.isDue i) :
    c ∈ whenDue test i ↔ c = i ∧ s.isDue c := by
  rw [mem_whenDue, h]
  exact ⟨fun ⟨hd, hc⟩ => ⟨hc, hc ▸ hd⟩, fun ⟨hc, hd⟩ => ⟨hc ▸ hd, hc⟩⟩

theorem State.mem_readyRequest : c ∈ s.readyRequest ↔ ∃ e q, s.mp.queue = e :: q ∧ e.command = c ∧ s.mp.busy = false := by
  unfold State.readyRequest
  cases hq : s.mp.queue with
  | nil => simp
  | cons e q =>
    have free : s.mp.canTake e.command = true ↔ s.mp.busy = false := by
      simp [Mp.canTake, hq, Mp.busy, and_assoc]
    rw [mem_whenDue, free]
    exact ⟨fun ⟨hb, hc⟩ => ⟨e, q, rfl, hc.symm, hb⟩, fun ⟨_, _, heq, hc, hb⟩ => by cases heq; exact ⟨hb, hc.symm⟩⟩

theorem State.mem_readyRun : c ∈ s.readyRun ↔ (((((c = .armTimeout ∨ c = .limitExpiry) ∨ c = .endRequest) ∨
    ∃ k, c = .eventDelivery k) ∨ c = .decisionTime) ∨ ∃ k, c = .recordTake k) ∧ s.isDue c := by
  have ends : (s.rc.endRequests != []) = true ↔ s.isDue .endRequest := by simp [State.isDue]
  have events : (c ∈ (List.range s.ste.events.length).flatMap fun k =>
      whenDue (s.ste.deliverable k).isSome (.eventDelivery k)) ↔ (∃ k, c = .eventDelivery k) ∧ s.isDue c := by
    simp only [List.mem_flatMap, List.mem_range, mem_whenDue_isDue (s.deliverable_iff _)]
    constructor
    · rintro ⟨k, -, hc, hd⟩
      exact ⟨⟨k, hc⟩, hd⟩
    · rintro ⟨⟨k, rfl⟩, hd⟩
      obtain ⟨x, hx, hs⟩ := hd
      exact ⟨k, (List.getElem?_eq_some_iff.1 hx).1, rfl, x, hx, hs⟩
  have records : (c ∈ (List.range s.ts.input.length).flatMap fun k => whenDue (s.ts.mayTake s.clock k) (.recordTake k)) ↔
      (∃ k, c = .recordTake k) ∧ s.isDue c := by
    simp only [List.mem_flatMap, List.mem_range,
      mem_whenDue_isDue (show _ ↔ s.isDue (.recordTake _) from Iff.rfl)]
    constructor
    · rintro ⟨k, -, hc, hd⟩
      exact ⟨⟨k, hc⟩, hd⟩
    · rintro ⟨⟨k, rfl⟩, hd⟩
      refine ⟨k, ?_, rfl, hd⟩
      by_contra hk
      have : s.ts.input[k]? = none := List.getElem?_eq_none (by omega)
      simp [State.isDue, Ts.mayTake, this] at hd
  simp only [State.readyRun, List.mem_append, events, records, mem_whenDue_isDue s.armTimeoutDue_iff,
    mem_whenDue_isDue s.limitDue_iff, mem_whenDue_isDue ends, mem_whenDue_isDue s.decisionsDue_iff, or_and_right]

theorem State.mem_readyBank (b : Fin 4) :
    c ∈ s.readyBank b ↔ (c = .intervalStart b ∨ c = .acquisitionEnd b) ∧ s.isDue c := by
  simp only [State.readyBank, List.mem_append, mem_whenDue_isDue (Lau.intervalDue_iff s b),
    mem_whenDue_isDue (Acq.anyDone_iff s b), or_and_right]

theorem State.mem_readyChannel (k : Fin 24) :
    c ∈ s.readyChannel k ↔ (c = .transitionAccepted k ∨ c = .blankingEnd k) ∧ s.isDue c := by
  simp only [State.readyChannel, List.mem_append, mem_whenDue_isDue (Mc.acceptDue_iff s k),
    mem_whenDue_isDue (Mc.blankingDue_iff s k), or_and_right]

theorem State.mem_readyMonitor (m : Fin 4) :
    c ∈ s.readyMonitor m ↔ ((c = .tachFallingEdge m ∨ c = .stallExpiry m) ∨ c = .gateEnd m) ∧ s.isDue c := by
  simp only [State.readyMonitor, List.mem_append, mem_whenDue_isDue (s.tachEdge_iff m),
    mem_whenDue_isDue (Rm.stallDue_iff s m), mem_whenDue_isDue (Rm.gateDue_iff s m), or_and_right]

theorem State.mem_readyCode :
    c ∈ s.readyCode ↔ ((c = .strobeEdge ∨ c = .strobeBlankingEnd) ∨ c = .foldTimerExpiry) ∧ s.isDue c := by
  simp only [State.readyCode, List.mem_append, mem_whenDue_isDue s.strobeNow_iff,
    mem_whenDue_isDue s.strobeBlankingDue_iff, mem_whenDue_isDue s.foldDue_iff, or_and_right]

theorem State.mem_readyPort (p : Fin 2) : c ∈ s.readyPort p ↔
    ((((((((((c = .waitIdleExpiry p ∨ c = .startEdge p) ∨ c = .startBitGlitch p) ∨ c = .byteArrival p) ∨
      c = .heldFrameTaken p) ∨ c = .breakSeen p) ∨ c = .waitHighRecovery p) ∨ c = .idleGapExpiry p .rx) ∨
      c = .idleGapExpiry p .tx) ∨ c = .byteSendTime p) ∨ c = .byteSent p) ∧ s.isDue c := by
  simp only [State.readyPort, List.mem_append, mem_whenDue_isDue (s.waitIdleDue_iff p),
    mem_whenDue_isDue (s.startDue_iff p), mem_whenDue_isDue (s.glitchDue_iff p), mem_whenDue_isDue (s.arrivalDue_iff p),
    mem_whenDue_isDue (s.heldDue_iff p), mem_whenDue_isDue (s.breakDue_iff p), mem_whenDue_isDue (s.recoveryDue_iff p),
    mem_whenDue_isDue (s.gapDue_iff p _), mem_whenDue_isDue (Cp.sendDue_iff s p), mem_whenDue_isDue (Cp.sentDue_iff s p),
    or_and_right]

theorem State.mem_readyDrive (k : Fin 8) :
    c ∈ s.readyDrive k ↔ (c = .generatorActiveLevel k ∨ c = .periodEnd k) ∧ s.isDue c := by
  simp only [State.readyDrive, List.mem_append, mem_whenDue_isDue (Dc.activeDue_iff s k),
    mem_whenDue_isDue (Dc.periodDue_iff s k), or_and_right]

/-- What is ready, owner by owner. -/
theorem State.mem_ready : c ∈ s.ready ↔ (c = .softReset ∧ s.isDue c) ∨ c ∈ s.readyRequest ∨ c ∈ s.readyRun ∨
    (∃ b, c ∈ s.readyBank b) ∨ (∃ k, c ∈ s.readyChannel k) ∨ (∃ m, c ∈ s.readyMonitor m) ∨ c ∈ s.readyCode ∨
    (∃ p, c ∈ s.readyPort p) ∨ (∃ k, c ∈ s.readyDrive k) ∨ (c = .operationEnd ∧ s.isDue c) := by
  simp only [State.ready, State.readyScan, List.mem_append, List.mem_flatMap, List.mem_finRange, true_and, or_assoc,
    mem_whenDue_isDue (show _ ↔ s.isDue .softReset from Iff.rfl), mem_whenDue_isDue (Active.anyOpDone_iff s)]

/-- A command of the part itself stands in the list of its owner when its moment has come. -/
theorem State.mem_ready_of_isDue (h : s.isDue c) : c ∈ s.ready := by
  rw [State.mem_ready]
  simp only [State.mem_readyRun, State.mem_readyBank, State.mem_readyChannel, State.mem_readyMonitor, State.mem_readyCode,
    State.mem_readyPort, State.mem_readyDrive, h, and_true]
  cases c
  case idleGapExpiry p d => cases d <;> simp
  all_goals try exact h.elim -- the commands that are never due
  all_goals simp

/-- Nothing else is ready than the request at the head of the queue and the commands whose moment has come. -/
theorem State.mem_ready_iff : c ∈ s.ready ↔ s.isReady c := by
  constructor
  · rw [State.mem_ready]
    simp only [State.mem_readyRun, State.mem_readyBank, State.mem_readyChannel, State.mem_readyMonitor,
      State.mem_readyCode, State.mem_readyPort, State.mem_readyDrive]
    rintro (⟨-, h⟩ | h | ⟨-, h⟩ | ⟨-, -, h⟩ | ⟨-, -, h⟩ | ⟨-, -, h⟩ | ⟨-, h⟩ | ⟨-, -, h⟩ | ⟨-, -, h⟩ | ⟨-, h⟩)
    case inr.inl => exact .inl (State.mem_readyRequest.1 h)
    all_goals exact .inr h
  · rintro (h | h)
    · exact State.mem_ready.2 (.inr (.inl (State.mem_readyRequest.2 h)))
    · exact State.mem_ready_of_isDue h

/-! ## The tick -/

theorem Rc.tick_eq (r : Rc) : r.tick = { r with timeBase :=
    if r.runState = .armed ∨ r.runState = .running then r.timeBase + 1 else r.timeBase } := by
  simp only [Rc.tick, RunState.live_iff]

theorem Lau.tick_eq (l : Lau) (refMv : Nat) (noise : Bool) : l.tick refMv noise = { l with
    acq := l.acq.map fun a : Acq =>
      if a.s0 + 8 * (16 * a.factor + a.s1) ≤ a.elapsed then a else a.tick refMv noise } := by
  simp only [Lau.tick, Acq.done_iff]

theorem Sc.tick_of_none {c : Sc} (h : c.job = none) (clock : Nat) (tdo : Bool) : c.tick clock tdo = c := by
  simp [Sc.tick, h]

theorem Sc.tick_between {c : Sc} {a : Active} (h : c.job = some a) {clock : Nat} (tdo : Bool)
    (hr : ¬((clock - a.opStart) % (a.settings.divider * 2) = a.settings.divider ∧
      (clock - a.opStart) / (a.settings.divider * 2) < a.current.periods)) : c.tick clock tdo = c := by
  unfold Sc.tick
  simp only [h]
  exact if_neg hr

theorem Sc.tick_rising {c : Sc} {a : Active} (h : c.job = some a) {clock : Nat} (tdo : Bool)
    (hr : (clock - a.opStart) % (a.settings.divider * 2) = a.settings.divider ∧
      (clock - a.opStart) / (a.settings.divider * 2) < a.current.periods) : c.tick clock tdo = { c with
    tap := tapEdge c.tap a.current ((clock - a.opStart) / (a.settings.divider * 2))
    job := some { a with
      bits := if a.current.shiftBit ((clock - a.opStart) / (a.settings.divider * 2)) = none then a.bits
        else a.bits ++ [tdo] } } := by
  unfold Sc.tick
  simp only [h]
  refine (if_pos hr).trans ?_
  cases hb : a.current.shiftBit ((clock - a.opStart) / (a.settings.divider * 2)) <;>
    simp [Active.period, hb]

theorem step_of_idle (h : s.pending = []) : step s = .next s.advance := by
  simp [step, h]

/-- Settles O2: what is ready by `State.mem_ready_iff`, the tick block by block. -/
theorem idleStepTicksOrTakesUp : Obligations.IdleStepTicksOrTakesUp := by
  refine ⟨fun s c => State.mem_ready_iff, fun s hp => ⟨fun hr => ⟨s.tick, ?_, ?_⟩, fun hr => ?_⟩⟩
  · rw [step_of_idle hp, State.advance_of_idle s hr]
  · have bank (b : Fin 4) : s.tick.lau[b] = s.lau[b].tick s.pins.ref[b] (Config.noise b s.choices s.clock) := by
      simp [State.tick]
    have port (p : Fin 2) : s.tick.cp[p] = s.cp[p].tick (s.clock + 1) (s.readRx p) := by simp [State.tick]
    have drive (c : Fin 8) : s.tick.dc[c] = s.dc[c].tick := by simp [State.tick]
    refine ⟨rfl, Rc.tick_eq _, fun b => (bank b).trans (Lau.tick_eq _ _ _), port, drive, fun hn => Sc.tick_of_none hn _ _,
      fun a ha => ⟨fun h => Sc.tick_between ha _ h, fun h => Sc.tick_rising ha _ h⟩, hp, rfl, rfl, rfl, rfl, rfl, rfl,
      rfl, rfl, rfl, rfl, rfl, rfl⟩
  · obtain ⟨c, n, hc, ha⟩ := State.advance_of_ready s hr
    exact ⟨c, n, hc, by rw [step_of_idle hp, ha]⟩

end Sys2Proof.Machine

end


section
/-! What every command leaves outside its blocks, and the round trip of the request frames. -/

namespace Sys2Proof.Machine

open Relation

/-! ## The queue of waiting commands, the clock and the free choices -/

/-- The queue of waiting commands and the clock stay, and `n` free choices are made. -/
structure State.Outside (n : Nat) (s t : State) : Prop where
  pending : t.pending = s.pending
  clock : t.clock = s.clock
  choices : t.choices = s.choices + n

theorem State.Outside.refl (s : State) : s.Outside 0 s := ⟨rfl, rfl, rfl⟩

theorem State.Outside.trans {m n : Nat} {s t u : State} (h : s.Outside m t) (k : t.Outside n u) : s.Outside (m + n) u :=
  ⟨k.pending.trans h.pending, k.clock.trans h.clock, by rw [k.choices, h.choices, Nat.add_assoc]⟩

/-- Elementary changes make no free choice. -/
theorem Works.free_of_choice {x : Scope} {s t : State} (h : Works x s t) : s.Outside 0 t := by
  obtain ⟨hp, hc, hn⟩ := h.outside
  exact ⟨hp, hc, hn⟩

theorem State.takeEnd_outside (s : State) (cause : EndCause) : s.Outside 1 (s.takeEnd cause) := by
  obtain ⟨hp, hc, -, hn⟩ := s.takeEnd_frame cause
  exact ⟨hp, hc, hn⟩

/-- R134: a request is its owner's work between two works of the MP, or a work of the MP. -/
theorem takeRequest_outside {n : Nat} {c : Instr} {k t : Byte} {owner : State → Answer} {s : State}
    (h : ∀ u : State, u.Outside 0 (owner u).state ∨ u.Outside n (owner u).state) :
    s.Outside 0 (takeRequest c k t owner s) ∨ s.Outside n (takeRequest c k t owner s) := by
  cases htake : s.mp.canTake c with
  | false => rw [takeRequest_of_waiting k t owner htake]; exact .inl (.refl s)
  | true =>
    cases hb : c.bodyOk with
    | false => rw [takeRequest_of_malformed k t owner htake hb]; exact .inl ⟨rfl, rfl, rfl⟩
    | true =>
      rw [takeRequest_of_taken k t owner htake hb]
      obtain ⟨m, hm⟩ := s.beside_eq ((owner { s with mp := s.mp.pop }).send k t)
      rw [hm]
      exact (h { s with mp := s.mp.pop }).imp (fun ⟨hp, hc, hn⟩ => ⟨hp, hc, hn⟩) fun ⟨hp, hc, hn⟩ => ⟨hp, hc, hn⟩

/-- An owner that makes no free choice. -/
theorem takeRequest_outside_zero {c : Instr} {k t : Byte} {owner : State → Answer} {s : State}
    (h : ∀ u : State, u.Outside 0 (owner u).state) : s.Outside 0 (takeRequest c k t owner s) :=
  (takeRequest_outside (n := 0) fun u => .inl (h u)).elim id id

/-- R121: a new permit mask. -/
theorem State.permit_outside (s : State) (mask : Byte) : s.Outside 0 (s.permit mask) := by
  have hw : Works .plain { s with permitMask := mask } (s.permit mask) := Works.foldl _ State.revoke_works _
  obtain ⟨hp, hc, hn⟩ := Works.outside hw
  exact ⟨hp, hc, hn⟩

/-- R6: an accepted ARM. -/
theorem State.armRun_outside (s : State) : s.Outside 0 s.armRun := by
  rw [State.armRun_eq]
  have hw := State.hand_works (x := .plain) s.loaded .run { time := 0, body := .runArmed s.loaded.rc.active.source }
    (by simp [Rec.units, RecBody.units]) (by simp [Rec.closesRun])
  obtain ⟨hp, hc, hn⟩ := Works.outside hw
  exact ⟨hp, hc, hn⟩

/-- The end of a run at the arm timeout, the deliveries before it included. -/
theorem State.settle_outside (s : State) : s.Outside 0 s.settle :=
  ⟨s.settle_frame.pending, s.settle_frame.clock, s.settle_frame.choices⟩

theorem State.endRun_outside (s : State) (cause : EndCause) : s.Outside 0 (s.endRun cause) :=
  ⟨(s.endRun_endFrame cause).pending, (s.endRun_endFrame cause).clock, (s.endRun_endFrame cause).choices⟩

/-- No command stops the part. -/
theorem exec_answers (c : Instr) (s : State) : ∃ t, exec c s = .next t := by
  cases c <;> exact ⟨_, rfl⟩

/-- What command `c`, which makes `t` of `s`, leaves of the queue of waiting commands, the choices and the clock. -/
def LeavesQueue (c : Instr) (s t : State) : Prop :=
  t.pending = s.pending ∧
    (t.choices = s.choices ∨
      (t.choices = s.choices + 1 ∧ (c = .limitExpiry ∨ c = .endRequest ∨ ∃ tag, c = .abort tag))) ∧
    ((c ≠ .por ∧ c ≠ .pinReset ∧ c ≠ .softReset) → t.clock = s.clock)

theorem none_made {c : Instr} {s t : State} (h : s.Outside 0 t) : LeavesQueue c s t :=
  ⟨h.pending, .inl h.choices, fun _ => h.clock⟩

theorem one_made {c : Instr} {s t : State} (hc : c = .limitExpiry ∨ c = .endRequest ∨ ∃ tag, c = .abort tag)
    (h : s.Outside 1 t) : LeavesQueue c s t :=
  ⟨h.pending, .inr ⟨h.choices, hc⟩, fun _ => h.clock⟩

/-- The ends of a run make one free choice at most, and no other command makes one. -/
theorem exec_choices {c : Instr} {s t : State} (h : exec c s = .next t) : LeavesQueue c s t := by
  cases hc : scopeOf c with
  | some x => exact none_made (exec_works hc h).free_of_choice
  | none =>
    cases c with
    | por => cases h; exact ⟨rfl, .inl rfl, fun hn => absurd rfl hn.1⟩
    | pinReset => cases h; exact ⟨rfl, .inl rfl, fun hn => absurd rfl hn.2.1⟩
    | softReset =>
      cases h
      split
      · exact ⟨rfl, .inl rfl, fun hn => absurd rfl hn.2.2⟩
      · exact none_made (.refl s)
    | arm tag =>
      cases h
      refine none_made (takeRequest_outside_zero fun u => ?_)
      unfold armOwner
      split
      · exact .refl u
      · split
        · exact .refl u
        · exact u.armRun_outside
    | abort tag =>
      cases h
      have hends := takeRequest_outside (c := .abort tag) (k := 0x14) (t := tag) (s := s) (n := 1)
        (owner := abortOwner) fun u => by
          unfold abortOwner
          split
          · dsimp only [okay]; exact .inr (u.takeEnd_outside .abort)
          · exact .inl (.refl u)
      exact hends.elim none_made (one_made (.inr (.inr ⟨tag, rfl⟩)))
    | permitSet tag mask =>
      cases h
      refine none_made (takeRequest_outside_zero fun u => ?_)
      unfold permitSetOwner
      split
      · exact .refl u
      · split
        · exact .refl u
        · exact u.permit_outside mask
    | armTimeout =>
      cases h
      split
      · split
        · exact none_made (s.settle_outside.trans (State.endRun_outside _ _))
        · exact none_made s.settle_outside
      · exact none_made (.refl s)
    | limitExpiry =>
      cases h
      split
      · exact one_made (.inl rfl) (s.takeEnd_outside .limit)
      · exact none_made (.refl s)
    | endRequest =>
      cases h
      split
      · exact none_made (.refl s)
      · rename_i cause rest _
        dsimp only
        split
        · obtain ⟨hp, hc, hn⟩ := (s.setRc { s.rc with endRequests := rest }).takeEnd_outside cause
          exact one_made (.inr (.inl rfl)) ⟨hp, hc, hn⟩
        · exact none_made ⟨rfl, rfl, rfl⟩
    | _ => cases hc

/-- Settles O3: an answer for every command, and `exec_choices`. -/
theorem commandsAnswerAndLeaveQueue : Obligations.CommandsAnswerAndLeaveQueue := fun c s =>
  let ⟨t, h⟩ := exec_answers c s
  ⟨t, h, exec_choices h⟩

/-! ## The frames of the requests (R133) -/

open Sys2Proof.Laws in
/-- Settles O4: the round trip of every row, command by command. -/
theorem requestFramesRoundTrip : Obligations.RequestFramesRoundTrip := by
  intro i e hw he
  cases i with
  | por => exact RoundTrip.por e hw he
  | pinReset => exact RoundTrip.pinReset e hw he
  | softReset => exact RoundTrip.softReset e hw he
  | linkReset detach => exact RoundTrip.linkReset _ e hw he
  | frameReceive bytes => exact RoundTrip.frameReceive _ e hw he
  | errorEntry bytes => exact RoundTrip.errorEntry _ e hw he
  | unknownKind kind t body => exact RoundTrip.unknownKind _ _ _ e hw he
  | malformed m => exact RoundTrip.malformed m e hw he
  | replySend => exact RoundTrip.replySend e hw he
  | noticeSend => exact RoundTrip.noticeSend e hw he
  | identify t => exact RoundTrip.identify _ e hw he
  | resetProbe t => exact RoundTrip.resetProbe _ e hw he
  | flagsQuery t => exact RoundTrip.flagsQuery _ e hw he
  | flagsEnable t mask => exact RoundTrip.flagsEnable _ _ e hw he
  | flagsClear t mask => exact RoundTrip.flagsClear _ _ e hw he
  | runsetPut t settings => exact RoundTrip.runsetPut _ _ e hw he
  | runsetGet t copy => exact RoundTrip.runsetGet _ _ e hw he
  | arm t => exact RoundTrip.arm _ e hw he
  | start t => exact RoundTrip.start _ e hw he
  | abort t => exact RoundTrip.abort _ e hw he
  | runQuery t => exact RoundTrip.runQuery _ e hw he
  | planPut t entry used step => exact RoundTrip.planPut _ _ _ _ e hw he
  | planGet t entry copy => exact RoundTrip.planGet _ _ _ e hw he
  | planWipe t => exact RoundTrip.planWipe _ e hw he
  | storeSet t settings => exact RoundTrip.storeSet _ _ e hw he
  | storeQuery t => exact RoundTrip.storeQuery _ e hw he
  | fetch t q m => exact RoundTrip.fetch _ _ _ e hw he
  | release t seq => exact RoundTrip.release _ _ e hw he
  | trigger t => exact RoundTrip.trigger _ e hw he
  | mark t label => exact RoundTrip.mark _ _ e hw he
  | bankSet t bank settings => exact RoundTrip.bankSet _ _ _ e hw he
  | acquire t bank => exact RoundTrip.acquire _ _ e hw he
  | bankQuery t bank => exact RoundTrip.bankQuery _ _ e hw he
  | chanSet t channel settings => exact RoundTrip.chanSet _ _ _ e hw he
  | chanQuery t => exact RoundTrip.chanQuery _ e hw he
  | rateSet t monitor settings => exact RoundTrip.rateSet _ _ _ e hw he
  | rateQuery t monitor => exact RoundTrip.rateQuery _ _ e hw he
  | codeSet t settings => exact RoundTrip.codeSet _ _ e hw he
  | codeHistory t option => exact RoundTrip.codeHistory _ _ e hw he
  | codeHistoryClear t => exact RoundTrip.codeHistoryClear _ e hw he
  | consSet t port settings => exact RoundTrip.consSet _ _ _ e hw he
  | consSend t port bytes => exact RoundTrip.consSend _ _ _ e hw he
  | consQuery t port => exact RoundTrip.consQuery _ _ e hw he
  | matchSet t matcher settings => exact RoundTrip.matchSet _ _ _ e hw he
  | matchQuery t matcher => exact RoundTrip.matchQuery _ _ e hw he
  | driveSetNone t channel op part => exact RoundTrip.driveSetNone _ _ _ _ e hw he
  | driveSetRelease t channel part => exact RoundTrip.driveSetRelease _ _ _ e hw he
  | driveSetLow t channel part => exact RoundTrip.driveSetLow _ _ _ e hw he
  | driveSetHigh t channel part => exact RoundTrip.driveSetHigh _ _ _ e hw he
  | driveSetStartPulse t channel part => exact RoundTrip.driveSetStartPulse _ _ _ e hw he
  | driveSetStopPulse t channel part => exact RoundTrip.driveSetStopPulse _ _ _ e hw he
  | driveQuery t channel => exact RoundTrip.driveQuery _ _ e hw he
  | permitSet t mask => exact RoundTrip.permitSet _ _ e hw he
  | permitLock t => exact RoundTrip.permitLock _ e hw he
  | scanConfig t settings => exact RoundTrip.scanConfig _ _ e hw he
  | templatePut t template used body => exact RoundTrip.templatePut _ _ _ _ e hw he
  | templateGet t template copy => exact RoundTrip.templateGet _ _ _ e hw he
  | scanSubmit t job body => exact RoundTrip.scanSubmit _ _ _ e hw he
  | scanCancel t job => exact RoundTrip.scanCancel _ _ e hw he
  | scanResult t cls number => exact RoundTrip.scanResult _ _ _ e hw he
  | scanQuery t => exact RoundTrip.scanQuery _ e hw he
  | armTimeout => exact RoundTrip.armTimeout e hw he
  | limitExpiry => exact RoundTrip.limitExpiry e hw he
  | endRequest => exact RoundTrip.endRequest e hw he
  | eventDelivery k => exact RoundTrip.eventDelivery _ e hw he
  | decisionTime => exact RoundTrip.decisionTime e hw he
  | recordTake k => exact RoundTrip.recordTake _ e hw he
  | intervalStart b => exact RoundTrip.intervalStart _ e hw he
  | acquisitionEnd b => exact RoundTrip.acquisitionEnd _ e hw he
  | rawInputChange pin mv => exact RoundTrip.rawInputChange _ _ e hw he
  | transitionAccepted c => exact RoundTrip.transitionAccepted _ e hw he
  | blankingEnd c => exact RoundTrip.blankingEnd _ e hw he
  | tachFallingEdge m => exact RoundTrip.tachFallingEdge _ e hw he
  | stallExpiry m => exact RoundTrip.stallExpiry _ e hw he
  | gateEnd m => exact RoundTrip.gateEnd _ e hw he
  | strobeEdge => exact RoundTrip.strobeEdge e hw he
  | strobeBlankingEnd => exact RoundTrip.strobeBlankingEnd e hw he
  | foldTimerExpiry => exact RoundTrip.foldTimerExpiry e hw he
  | waitIdleExpiry p => exact RoundTrip.waitIdleExpiry _ e hw he
  | startEdge p => exact RoundTrip.startEdge _ e hw he
  | startBitGlitch p => exact RoundTrip.startBitGlitch _ e hw he
  | byteArrival p => exact RoundTrip.byteArrival _ e hw he
  | heldFrameTaken p => exact RoundTrip.heldFrameTaken _ e hw he
  | breakSeen p => exact RoundTrip.breakSeen _ e hw he
  | waitHighRecovery p => exact RoundTrip.waitHighRecovery _ e hw he
  | idleGapExpiry p d => exact RoundTrip.idleGapExpiry _ _ e hw he
  | byteSendTime p => exact RoundTrip.byteSendTime _ e hw he
  | byteSent p => exact RoundTrip.byteSent _ e hw he
  | generatorActiveLevel c => exact RoundTrip.generatorActiveLevel _ e hw he
  | periodEnd c => exact RoundTrip.periodEnd _ e hw he
  | operationEnd => exact RoundTrip.operationEnd e hw he

end Sys2Proof.Machine

end


section
/-! The reception of frames and the answers to bad ones. -/

namespace Sys2Proof.Machine

/-! ## Bytes that are not taken, or go nowhere -/

/-- R134: the entries held, with nothing in reception. -/
theorem Mp.held_of_idle {m : Mp} (h : m.reception = []) : m.held = m.queue.length := by
  simp [Mp.held, h]

/-- R134: a frame in reception holds an entry of its own. -/
theorem Mp.held_of_reception {m : Mp} (h : m.reception ≠ []) : m.held = m.queue.length + 1 := by
  simp [Mp.held, h]

theorem Mp.takesByte_of_idle {m : Mp} (ha : m.attached = true) (hr : m.reception = []) (hq : m.queue.length < 4) :
    m.takesByte = true := by
  unfold Mp.takesByte
  rw [ha, Mp.held_of_idle hr]
  exact decide_eq_true (show _ < 4 from hq)

/-- A detached part takes no byte. -/
theorem Mp.receive_detached {m : Mp} {bytes : Bytes} (ha : m.attached = false) (hn : bytes ≠ []) :
    m.receive bytes = none := by
  cases bytes with
  | nil => exact absurd rfl hn
  | cons x xs => simp [Mp.receive, Mp.takesByte, ha]

/-- R133: the rest of a bad transfer goes nowhere. -/
theorem Mp.receive_discarding {m : Mp} (ha : m.attached = true) (hr : m.reception = []) (hq : m.queue.length < 4)
    (ht : m.transfer = .discarding) (bytes : Bytes) : m.receive bytes = some m := by
  induction bytes with
  | nil => rfl
  | cons x xs ih => simpa [Mp.receive, Mp.takesByte_of_idle ha hr hq, Mp.takeByte, ht] using ih

/-- R133: the first byte of a frame claims an entry. -/
theorem Mp.takeByte_begins {m : Mp} {x : Byte} (ht : m.transfer ≠ .discarding) (hr : m.reception = []) :
    m.takeByte x = { m with reception := [x], transfer := .unframing } := by
  simp [Mp.takeByte, ht, hr]

/-- R133: the second byte of a frame brings its length field; a bad one queues an ERROR entry. -/
theorem Mp.takeByte_bad {m : Mp} {x y : Byte} (ht : m.transfer ≠ .discarding) (hr : m.reception = [x])
    (hb : field [x, y] 0 2 < 6 ∨ 1024 < field [x, y] 0 2) :
    m.takeByte y = { m with queue := m.queue ++ [.error], reception := [], transfer := .discarding } := by
  have bad : lengthGood [x, y] = false := by
    unfold lengthGood frameLength
    rcases hb with h | h
    · rw [decide_eq_false (Nat.not_le.2 h), Bool.false_and]
    · rw [decide_eq_false (Nat.not_le.2 h), Bool.and_false]
  simp [Mp.takeByte, ht, hr, bad]

/-- R133: bytes that bring a bad length field queue an ERROR entry, and the rest of them goes nowhere. -/
theorem Mp.receive_bad {m : Mp} {x y : Byte} {rest : Bytes} (ha : m.attached = true) (hr : m.reception = [x])
    (hq : m.queue.length < 3) (ht : m.transfer ≠ .discarding)
    (hb : field [x, y] 0 2 < 6 ∨ 1024 < field [x, y] 0 2) : m.receive (y :: rest) =
      some { m with queue := m.queue ++ [.error], reception := [], transfer := .discarding } := by
  rw [Mp.receive, if_pos (Mp.takesByte_of_lt ha hq), Mp.takeByte_bad ht hr hb]
  exact Mp.receive_discarding (by exact ha) rfl (by simp; omega) rfl rest

/-- R134: with the fourth entry claimed by its first byte, a frame waits for the head entry to leave. -/
theorem Mp.receive_claimed {m : Mp} {bytes : Bytes} (h2 : 2 ≤ bytes.length) (ht : m.transfer ≠ .discarding)
    (hq : 3 ≤ m.queue.length) : m.receive bytes = none := by
  match bytes, h2 with
  | x :: y :: rest, _ =>
    by_cases hr : m.reception = []
    · rw [Mp.receive]
      split
      · rw [Mp.takeByte_begins ht hr]
        refine Mp.receive_held ?_ (by simp)
        rw [Mp.held_of_reception (by simp)]
        exact Nat.succ_le_succ hq
      · rfl
    · exact Mp.receive_held (by rw [Mp.held_of_reception hr]; omega) (by simp)

/-- R133: a discarding that begins has queued an ERROR entry last. -/
theorem Mp.receive_broken {m m' : Mp} {bytes : Bytes} (hm : m.transfer = .discarding → m.queue.getLast? = some .error)
    (h : m.receive bytes = some m') (hd : m'.transfer = .discarding) : m'.queue.getLast? = some .error := by
  induction bytes generalizing m with
  | nil => cases h; exact hm hd
  | cons x xs ih =>
    simp only [Mp.receive] at h
    split at h
    · refine ih ?_ h
      simp only [Mp.takeByte]
      split
      · exact hm
      · split
        · simp
        · split
          · simp
          · split <;> simp
    · cases h

/-! ## FRAME_RECEIVE and ERROR_ENTRY -/

theorem exec_frameReceive_none {s : State} {b : OutBytes} (h : s.mp.receive b.bytes = none) :
    exec (.frameReceive b) s = .next s := by
  simp [exec, execFrameReceive, h]

theorem exec_frameReceive_some {s : State} {b : OutBytes} {m : Mp} (h : s.mp.receive b.bytes = some m) :
    exec (.frameReceive b) s = .next { s with mp := m.endTransfer b.ends } := by
  simp [exec, execFrameReceive, h]

theorem exec_errorEntry_none {s : State} {b : OutBytes} (h : s.mp.receive b.bytes = none) :
    exec (.errorEntry b) s = .next s := by
  simp [exec, execErrorEntry, h]

theorem exec_errorEntry_broken {s : State} {b : OutBytes} {m : Mp} (h : s.mp.receive b.bytes = some m)
    (hs : s.mp.transfer ≠ .discarding) (hm : m.transfer = .discarding) :
    exec (.errorEntry b) s = .next { s with mp := m.endTransfer b.ends } := by
  simp [exec, execErrorEntry, h, hs, hm]

/-- With no byte taken after it that ends a transfer, an unframing transfer ends where `ends` says so. -/
theorem Mp.endTransfer_unframing (m : Mp) (ends : Bool) (h : m.transfer = .unframing) :
    m.endTransfer ends = { m with transfer := if ends then .between else .unframing } := by
  cases ends
  · simp [Mp.endTransfer, ← h]
  · rfl

theorem Mp.endTransfer_discarding (m : Mp) (ends : Bool) (h : m.transfer = .discarding) :
    m.endTransfer ends = { m with transfer := if ends then .between else .discarding } := by
  cases ends
  · simp [Mp.endTransfer, ← h]
  · rfl

/-- R133, R134: the bytes that complete a frame put it in the queue. -/
theorem frameReceive_completes {s : State} {kind tag status : Byte} {b ys : Bytes} (last : Bool)
    (ha : s.mp.attached = true) (ht : s.mp.transfer ≠ .discarding) (hq : s.mp.queue.length < 3) (hb : b.length ≤ 1018)
    (hn : ys ≠ []) (h : s.mp.reception ++ ys = frameBytes kind tag status b) :
    exec (.frameReceive ⟨ys, last⟩) s = .next { s with mp := { s.mp with
      queue := s.mp.queue ++ [.frame kind tag b], reception := []
      transfer := if last then .between else .unframing } } := by
  rw [exec_frameReceive_some (Mp.receive_completes ha hq ht h hn hb), Mp.endTransfer_unframing _ _ rfl]

/-- R133: the first part of a frame waits in reception. -/
theorem frameReceive_waits {s : State} {kind tag status : Byte} {b xs ys : Bytes} (ends : Bool)
    (ha : s.mp.attached = true) (hr : s.mp.reception = []) (ht : s.mp.transfer ≠ .discarding)
    (hq : s.mp.queue.length < 3) (hb : b.length ≤ 1018) (hx : xs ≠ []) (hy : ys ≠ [])
    (h : xs ++ ys = frameBytes kind tag status b) :
    exec (.frameReceive ⟨xs, ends⟩) s = .next { s with mp := { s.mp with
      reception := xs, transfer := if ends then .between else .unframing } } := by
  rw [exec_frameReceive_some (Mp.receive_waits ha hq ht (by rw [hr]; exact h) hx hy hb),
    Mp.endTransfer_unframing _ _ rfl]
  simp only [hr, List.nil_append]

/-- R134: bytes of one transfer are taken in two commands as in one. -/
theorem frameReceive_append {s t : State} {xs ys : Bytes} {ends : Bool} (hn : Mp.receive (xs ++ ys) s.mp ≠ none)
    (h : exec (.frameReceive ⟨xs, false⟩) s = .next t) :
    exec (.frameReceive ⟨xs ++ ys, ends⟩) s = exec (.frameReceive ⟨ys, ends⟩) t := by
  rw [Mp.receive_append] at hn
  cases hx : s.mp.receive xs with
  | none => simp [hx] at hn
  | some m =>
    rw [exec_frameReceive_some (b := ⟨xs, false⟩) hx] at h
    cases h
    cases hy : m.receive ys with
    | none => simp [hx, hy] at hn
    | some m' =>
      rw [exec_frameReceive_some (m := m') (by rw [Mp.receive_append, hx]; exact hy)]
      exact (exec_frameReceive_some (s := { s with mp := m }) (b := ⟨ys, ends⟩) hy).symm

/-- Settles O5: the frame whole, in two parts, its first byte, and the bytes held off. -/
theorem framesEnterTheQueue : Obligations.FramesEnterTheQueue := by
  refine ⟨fun s kind tag status b xs ys ends ha hr ht hq hb => ⟨?_, fun hx hy h last => ⟨?_, ?_⟩⟩,
    fun s xs ys ends t => frameReceive_append,
    fun s kind tag status b ys last ha _ ht hq hb hn h => frameReceive_completes last ha ht hq hb hn h,
    fun s x ends ha hr ht hq => ?_, fun s b hn h => exec_frameReceive_none ?_⟩
  · have hne : frameBytes kind tag status b ≠ [] := List.ne_nil_of_length_pos (by simp)
    rw [frameReceive_completes ends ha ht hq hb hne (by rw [hr]; rfl), ← hr]
  · exact frameReceive_waits ends ha hr ht hq hb hx hy h
  · rw [frameReceive_completes last (by exact ha) (by dsimp only; split <;> simp) (by exact hq) hb hy (by exact h), ← hr]
  · have hx : s.mp.receive [x] = some { s.mp with reception := [x], transfer := .unframing } := by
      rw [Mp.receive, if_pos (Mp.takesByte_of_idle ha hr hq), Mp.takeByte_begins ht hr]; rfl
    rw [exec_frameReceive_some hx, Mp.endTransfer_unframing _ _ rfl]
  · rcases h with h | h | ⟨hr, hq⟩ | ⟨h2, ht, hq⟩
    · exact Mp.receive_detached h hn
    · refine Mp.receive_held ?_ hn
      unfold Mp.held; omega
    · exact Mp.receive_held (by rw [Mp.held_of_reception hr]; omega) hn
    · exact Mp.receive_claimed h2 ht hq

/-- R133: bytes at the start of a frame that bring a bad length field. -/
theorem Mp.receive_bad_frame {m : Mp} {bytes : Bytes} (ha : m.attached = true) (hr : m.reception = [])
    (hq : m.queue.length < 3) (h2 : 2 ≤ bytes.length) (ht : m.transfer ≠ .discarding)
    (hb : field bytes 0 2 < 6 ∨ 1024 < field bytes 0 2) : m.receive bytes =
      some { m with queue := m.queue ++ [.error], transfer := .discarding } := by
  match bytes, h2 with
  | x :: y :: rest, _ =>
    have hf : field (x :: y :: rest) 0 2 = field [x, y] 0 2 := by simp [field]
    rw [hf] at hb
    rw [Mp.receive, if_pos (Mp.takesByte_of_idle ha hr (by omega)), Mp.takeByte_begins ht hr]
    exact (Mp.receive_bad (by exact ha) rfl (by exact hq) (by simp) hb).trans (by rw [← hr])

/-- What ERROR_ENTRY may do: nothing, or an ERROR entry at the end of the queue. -/
theorem errorEntry_cases {s t : State} {b : OutBytes} (h : exec (.errorEntry b) s = .next t) :
    t = s ∨ (t = { s with mp := t.mp } ∧ t.mp.queue.getLast? = some .error) := by
  cases h
  split
  · exact .inl rfl
  · rename_i m hm
    split
    · rename_i hd
      refine .inr ⟨rfl, ?_⟩
      have := Mp.receive_broken (fun h => absurd h hd.1) hm hd.2
      cases hb : b.ends <;> simpa [Mp.endTransfer] using this
    · exact .inl rfl

/-- Settles O6: the ERROR entry, what is discarded after it, and the MP's own answers. -/
theorem badFramesAreAnswered : Obligations.BadFramesAreAnswered := by
  refine ⟨fun s b ha hr hq h2 ht hb => ⟨?_, ?_⟩, fun s b ha hr hq ht => ⟨?_, ?_⟩, fun s b hn h => ?_,
    fun s x y ends ha ht hq hr hb => ?_, fun s t b => errorEntry_cases,
    fun s kind tag b => ⟨fun hk htake => ?_, fun hk hb htake => ?_, fun htake => ?_⟩⟩
  · rw [exec_errorEntry_broken (Mp.receive_bad_frame ha hr hq h2 ht hb) ht rfl, Mp.endTransfer_discarding _ _ rfl]
  · rw [exec_frameReceive_some (Mp.receive_bad_frame ha hr hq h2 ht hb), Mp.endTransfer_discarding _ _ rfl]
  · rw [exec_frameReceive_some (Mp.receive_discarding ha hr hq ht _), Mp.endTransfer_discarding _ _ ht]
  · simp [exec, execErrorEntry, Mp.receive_discarding ha hr hq ht, ht]
  · refine exec_errorEntry_none (Mp.receive_held ?_ hn)
    rcases h with h | ⟨hr, hq⟩
    · unfold Mp.held; omega
    · rw [Mp.held_of_reception hr]; omega
  · rw [exec_errorEntry_broken (b := ⟨[y], ends⟩) (Mp.receive_bad ha hr hq ht hb) ht rfl,
      Mp.endTransfer_discarding _ _ rfl]
  · have hc : (Entry.frame kind tag b).command = .unknownKind kind tag b := by simp [Entry.command, hk]
    refine congrArg Host.Outcome.next ((answerEntry_of_taken htake hc).trans ?_)
    simp [errorReply, hk, errorKind]
  · have hc : (Entry.frame kind tag b).command = .malformed (.frame kind tag b) := by simp [Entry.command, hk, hb]
    refine congrArg Host.Outcome.next ((answerEntry_of_taken htake hc).trans ?_)
    simp [errorReply, hk]
  · exact congrArg Host.Outcome.next (answerEntry_of_taken htake rfl)

end Sys2Proof.Machine

end


section
/-! The Flag Unit: raising a flag, and the three requests. -/

namespace Sys2Proof.Machine

/-- R136: a mask with bit 15 set names no flags. -/
theorem maskOf_of_range {mask : BitVec 16} (h : mask.getLsbD 15 = true) : maskOf mask = none := by
  simp [maskOf, h]

theorem maskOf_eq {mask : BitVec 16} (h : mask.getLsbD 15 = false) : maskOf mask = some (mask.truncate 15) := by
  unfold maskOf; rw [h]; rfl

/-- R136: a mask with bit 15 clear is sent as it came. -/
theorem encFlags_truncate {mask : BitVec 16} (h : mask.getLsbD 15 = false) :
    encFlags (mask.truncate 15) = le 2 mask.toNat := by
  have hb : mask.toNat / 2 ^ 15 % 2 = 0 := by
    have := h
    rw [BitVec.getLsbD, Nat.testBit_eq_decide_div_mod_eq] at this
    have hlt : mask.toNat / 2 ^ 15 % 2 < 2 := Nat.mod_lt _ (by decide)
    have : mask.toNat / 2 ^ 15 % 2 ≠ 1 := of_decide_eq_false this
    omega
  have : (mask.truncate 15).toNat = mask.toNat := by
    have := mask.isLt
    rw [BitVec.truncate_eq_setWidth, BitVec.toNat_setWidth]
    omega
  rw [encFlags, this]

/-- R137: clearing flags makes no notice. -/
theorem Fu.clear_slot_of_empty {u : Fu} (h : u.slot = 0) (mask : BitVec 15) : (u.clear mask).slot = 0 := by
  simp [Fu.clear, h]

/-- Settles O19: the bits of a raised flag, and each request by its owner. -/
theorem flagsAndNotices : Obligations.FlagsAndNotices := by
  refine ⟨fun s f n hn => ⟨?_, ?_, rfl⟩, fun s tag mask => ⟨fun h => ?_, fun h hm => ?_, fun h hm => ?_,
    fun hm => ⟨fun h => ?_, fun h => ?_⟩⟩⟩
  · simp only [State.raise, Fu.raise, BitVec.getLsbD_or, f.bit_getLsbD n hn]
  · simp only [State.raise, Fu.raise, BitVec.getLsbD_or, BitVec.getLsbD_and, BitVec.getLsbD_not, f.bit_getLsbD n hn, hn,
      decide_true, Bool.true_and]
  · refine congrArg Host.Outcome.next (takeRequest_unchanged h rfl ?_)
    by_cases hs : s.fu.slot = 0 <;> simp [okay, encFlags, yn, hs]
  · refine congrArg Host.Outcome.next (takeRequest_changed (u := { s with fu := s.fu.enable (mask.truncate 15) }) h rfl rfl ?_)
    simp only [flagsEnableOwner, maskOf_eq hm, encFlags_truncate hm, okay]
  · have hu := takeRequest_changed (u := { s with fu := s.fu.clear (mask.truncate 15) }) (k := 0x05) (t := tag)
      (owner := flagsClearOwner mask) (st := .ok)
      (b := encFlags (s.fu.clear (mask.truncate 15)).flags) h rfl rfl (by simp only [flagsClearOwner, maskOf_eq hm, okay])
    refine congrArg Host.Outcome.next (hu.trans ?_)
    have quiet : ¬(s.fu.slot = 0 ∧ (s.fu.clear (mask.truncate 15)).slot ≠ 0) :=
      fun ⟨h0, h1⟩ => h1 (Fu.clear_slot_of_empty h0 _)
    simp only [State.answeredFrom, decide_eq_false quiet, Bool.or_false]
    rfl
  · exact congrArg Host.Outcome.next (takeRequest_unchanged h rfl (by simp only [flagsEnableOwner, maskOf_of_range hm, refuse]))
  · exact congrArg Host.Outcome.next (takeRequest_unchanged h rfl (by simp only [flagsClearOwner, maskOf_of_range hm, refuse]))

end Sys2Proof.Machine

end


section
/-! The operand layouts of 12.6 read back: the settings records, the step entry and the job body. -/

namespace Sys2Proof.Machine

/-! ## A layout read from its front: each rule moves past one part -/

/-- A field behind a first byte. -/
theorem field_cons_succ (x : Byte) (b : Bytes) (off n : Nat) : field (x :: b) (off + 1) n = field b off n := rfl

/-- A field behind another one. -/
theorem field_le_skip {m off : Nat} (v : Nat) (b : Bytes) (n : Nat) (h : m ≤ off) :
    field (le m v ++ b) off n = field b (off - m) n := by
  simp [field, List.drop_append, List.drop_eq_nil_of_le, h]

/-- A byte behind a field. -/
theorem byteAt_le_skip {m i : Nat} (v : Nat) (b : Bytes) (h : m ≤ i) : byteAt (le m v ++ b) i = byteAt b (i - m) := by
  simp [byteAt, List.getElem?_append_right, h]

/-- Padding behind a content that fits stands behind it. -/
theorem take_padTo {n : Nat} (b rest : Bytes) : (padTo n b ++ rest).take b.length = b := by
  simp [padTo]

/-! ## Codes read back (12.2) -/

@[simp] theorem Dir.dec_code (d : Dir) : Dir.dec d.code = some d := by cases d <;> rfl
@[simp] theorem StoreMode.dec_code (m : StoreMode) : StoreMode.dec m.code = some m := by cases m <;> rfl
@[simp] theorem RateMode.dec_code (m : RateMode) : RateMode.dec m.code = some m := by cases m <;> rfl
@[simp] theorem RateState.dec_code (r : RateState) : RateState.dec r.code = some r := by cases r <;> rfl
@[simp] theorem Format.dec_code (f : Format) : Format.dec f.code = some f := by cases f <;> rfl
@[simp] theorem DriveOp.dec_code (o : DriveOp) : DriveOp.dec o.code = some o := by cases o <;> rfl
@[simp] theorem StepKind.dec_code (k : StepKind) : StepKind.dec k.code = some k := by cases k <;> rfl

/-! ## Run and store settings -/

/-- The three bytes of a start source read back. -/
theorem StartSource.dec_enc (src : StartSource) :
    StartSource.dec (byteAt src.enc 0) (byteAt src.enc 1) (byteAt src.enc 2) = some src := by
  cases src <;> simp [StartSource.enc, StartSource.dec]

theorem RunSettings.dec_enc (r : RunSettings) (ha : 1 ≤ r.armTimeout) (ha' : r.armTimeout ≤ 5000000) (hl : 1 ≤ r.limit)
    (hl' : r.limit ≤ 5000000) : RunSettings.dec r.enc = some r := by
  obtain ⟨x, y, z, hs⟩ : ∃ x y z, r.source.enc = [x, y, z] := by
    cases r.source <;> exact ⟨_, _, _, rfl⟩
  have hd := r.source.dec_enc
  rw [hs] at hd
  have htimes : field r.enc 4 4 = r.armTimeout ∧ field r.enc 8 4 = r.limit := by
    simp only [RunSettings.enc, hs, List.cons_append, List.nil_append, field_cons_succ]
    exact ⟨field_le_append _ _ _ (by omega), (field_le_skip _ _ _ le_rfl).trans (field_le _ _ (by omega))⟩
  simp only [RunSettings.dec, htimes, clamp_eq _ _ _ ha ha', clamp_eq _ _ _ hl hl']
  simp only [RunSettings.enc, hs, List.cons_append, byteAt_cons_zero, byteAt_cons_succ] at hd ⊢
  simp [hd]

theorem StoreSettings.dec_enc (r : StoreSettings) (hq : 16 ≤ r.quota) (hq' : r.quota ≤ 32000) (hw : r.watermark ≤ 32768) :
    StoreSettings.dec r.enc = some r := by
  have h : field r.enc 2 2 = r.quota ∧ field r.enc 4 2 = r.watermark := by
    simp only [StoreSettings.enc, List.cons_append, List.nil_append, field_cons_succ]
    exact ⟨field_le_append _ _ _ (by omega), (field_le_skip _ _ _ le_rfl).trans (field_le _ _ (by omega))⟩
  simp only [StoreSettings.dec, h, clamp_eq _ _ _ hq hq', clamp_eq _ _ _ (Nat.zero_le _) hw]
  simp [StoreSettings.enc]

/-! ## Bank, channel and monitor settings -/

theorem BankSettings.dec_enc (r : BankSettings) (hi : 100 ≤ r.interval) (hi' : r.interval ≤ 1000000) (h0 : 1 ≤ r.s0)
    (h0' : r.s0 ≤ 32767) (h1 : 1 ≤ r.s1) (h1' : r.s1 ≤ 32767) (hf : 1 ≤ r.factor) (hf' : r.factor ≤ 64)
    (hd : r.down < r.up) (hu : r.up ≤ 255) (ht : r.fixedThreshold ≤ 255) : BankSettings.dec r.enc = some r := by
  have h : field r.enc 8 4 = r.interval ∧ field r.enc 12 2 = r.s0 ∧ field r.enc 14 2 = r.s1 := by
    simp only [BankSettings.enc, List.cons_append, List.nil_append, List.append_assoc, field_cons_succ]
    refine ⟨field_le_append _ _ _ (by omega), ?_, ?_⟩
    · rw [field_le_skip _ _ _ (by omega)]; exact field_le_append _ _ _ (by omega)
    · rw [field_le_skip _ _ _ (by omega), field_le_skip _ _ _ (by omega)]; exact field_le _ _ (by omega)
  have fixed : ynOf (byteAt r.enc 0) = some (!r.track) := by
    cases hr : r.track <;> simp [BankSettings.enc, hr, ynOf]
  have one_byte : (byteAt r.enc 2).toNat = r.up ∧ (byteAt r.enc 3).toNat = r.down ∧
      (byteAt r.enc 4).toNat = r.fixedThreshold ∧ (byteAt r.enc 6).toNat = r.factor := by
    simp only [BankSettings.enc, List.cons_append, byteAt_cons_zero, byteAt_cons_succ]
    exact ⟨byte_toNat _ (by omega), byte_toNat _ (by omega), byte_toNat _ (by omega), byte_toNat _ (by omega)⟩
  have factor : byteAt r.enc 6 ≠ 0 := fun hz => by
    have := one_byte.2.2.2
    rw [hz] at this
    have : r.factor = 0 := this.symm
    omega
  have legal : ¬(r.s0 = 0 ∨ r.s1 = 0 ∨ byteAt r.enc 6 = 0 ∨ r.up ≤ r.down) := by
    simp only [factor, false_or]; omega
  simp only [BankSettings.dec, h, fixed, one_byte, if_neg legal, clamp_eq _ _ _ hi hi', clamp_eq _ _ _ h0 h0',
    clamp_eq _ _ _ h1 h1', clamp_eq _ _ _ hf hf']
  simp [BankSettings.enc]

theorem ChanSettings.dec_enc (r : ChanSettings) (hd : r.debounce ≤ 65535) : ChanSettings.dec r.enc = some r := by
  have h : field r.enc 3 4 = r.debounce := by
    simp only [ChanSettings.enc, List.cons_append, List.nil_append, field_cons_succ]
    exact field_le _ _ (by omega)
  simp only [ChanSettings.dec, h, clamp_eq _ _ _ (Nat.zero_le _) hd]
  obtain ⟨enabled, debounce, rising, falling⟩ := r
  cases rising <;> cases falling <;> simp [ChanSettings.enc]

theorem RateSettings.dec_enc (r : RateSettings) (hp : 1 ≤ r.ppr) (hp' : r.ppr ≤ 4) (hl : r.lowRpm ≤ r.highRpm)
    (hh : r.highRpm ≤ 65535) (hs : 100 ≤ r.stall) (hs' : r.stall ≤ 5000) (he : 1 ≤ r.expected) (he' : r.expected ≤ 50000)
    (ht : r.tolerance ≤ 50000) : RateSettings.dec r.enc = some r := by
  have h : field r.enc 4 2 = r.lowRpm ∧ field r.enc 6 2 = r.highRpm ∧ field r.enc 8 2 = r.stall ∧
      field r.enc 10 2 = r.expected ∧ field r.enc 12 2 = r.tolerance := by
    simp only [RateSettings.enc, List.cons_append, List.nil_append, List.append_assoc, field_cons_succ]
    refine ⟨field_le_append _ _ _ (by omega), ?_, ?_, ?_, ?_⟩
    all_goals rw [field_le_skip _ _ _ (by omega)]
    · exact field_le_append _ _ _ (by omega)
    all_goals rw [field_le_skip _ _ _ (by omega)]
    · exact field_le_append _ _ _ (by omega)
    all_goals rw [field_le_skip _ _ _ (by omega)]
    · exact field_le_append _ _ _ (by omega)
    · rw [field_le_skip _ _ _ (by omega)]; exact field_le _ _ (by omega)
  have ppr : (byteAt r.enc 3).toNat = r.ppr := byte_toNat _ (by omega)
  have legal : ¬(r.ppr = 0 ∨ 4 < r.ppr ∨ r.highRpm < r.lowRpm ∨ r.expected = 0) := by omega
  simp only [RateSettings.dec, h, ppr, if_neg legal, clamp_eq _ _ _ hs hs', clamp_eq _ _ _ he he',
    clamp_eq _ _ _ (Nat.zero_le _) ht]
  simp [RateSettings.enc]

/-! ## Code port, console, matcher, drive and scan settings -/

theorem CodeSettings.dec_enc (r : CodeSettings) (hw : r.foldWindow ≤ 60000) (hi : r.ignoreList.length ≤ 4) :
    CodeSettings.dec r.enc = some r := by
  have window : field r.enc 8 2 = r.foldWindow := by
    rw [CodeSettings.enc, field_append _ _ _ _ (by simp [padTo_length 4 r.ignoreList hi])]
    exact field_le _ _ (by omega)
  have count : (byteAt r.enc 3).toNat = r.ignoreList.length := byte_toNat _ (by omega)
  have list : (r.enc.drop 4).take r.ignoreList.length = r.ignoreList := take_padTo _ _
  have legal : ¬4 < r.ignoreList.length := by omega
  simp only [CodeSettings.dec, window, count, list, if_neg legal, clamp_eq _ _ _ (Nat.zero_le _) hw]
  simp [CodeSettings.enc]

theorem ConsSettings.dec_enc (r : ConsSettings) (hg : 1 ≤ r.idleGap) (hg' : r.idleGap ≤ 255) :
    ConsSettings.dec r.enc = some r := by
  have gap : (byteAt r.enc 3).toNat = r.idleGap := byte_toNat _ (by omega)
  simp only [ConsSettings.dec, gap, clamp_eq _ _ _ hg hg']
  simp [ConsSettings.enc]

theorem MatchSettings.dec_enc (r : MatchSettings) (hp : 1 ≤ r.pattern.length) (hp' : r.pattern.length ≤ 32) :
    MatchSettings.dec r.enc = some r := by
  have count : (byteAt r.enc 3).toNat = r.pattern.length := byte_toNat _ (by omega)
  have pattern : (r.enc.drop 4).take r.pattern.length = r.pattern := by
    simpa [MatchSettings.enc] using take_padTo (n := 32) r.pattern []
  have legal : ¬(r.pattern.length = 0 ∨ 32 < r.pattern.length) := by omega
  simp only [MatchSettings.dec, count, pattern, if_neg legal]
  simp [MatchSettings.enc]

theorem DrivePart.dec_enc (r : DrivePart) (hp : r.values.prescaler ≤ 14) (ha : 1 ≤ r.values.a) (ha' : r.values.a ≤ 65535)
    (hb : 1 ≤ r.values.b) (hb' : r.values.b ≤ 65535) : DrivePart.dec r.enc = some r := by
  have h : field r.enc 6 2 = r.values.a ∧ field r.enc 8 2 = r.values.b := by
    simp only [DrivePart.enc, List.cons_append, List.nil_append, field_cons_succ]
    exact ⟨field_le_append _ _ _ (by omega), (field_le_skip _ _ _ le_rfl).trans (field_le _ _ (by omega))⟩
  have prescaler : (byteAt r.enc 3).toNat = r.values.prescaler := byte_toNat _ (by omega)
  have legal : ¬(14 < r.values.prescaler ∨ r.values.a = 0 ∨ r.values.b = 0) := by omega
  simp only [DrivePart.dec, h, prescaler, if_neg legal]
  simp [DrivePart.enc]

theorem ScanSettings.dec_enc (r : ScanSettings) (hd : 2 ≤ r.divider) (hd' : r.divider ≤ 1000) :
    ScanSettings.dec r.enc = some r := by
  have h : field r.enc 0 2 = r.divider := field_le_append _ _ _ (by omega)
  have flags : byteAt r.enc 2 = yn r.irCheck ∧ byteAt r.enc 3 = yn r.trst :=
    ⟨byteAt_le_skip _ _ (by omega), byteAt_le_skip _ _ (by omega)⟩
  simp [ScanSettings.dec, h, flags, clamp_eq _ _ _ hd hd']

/-- Settles O20: the round trip of each record. -/
theorem settingsReadBack : Obligations.SettingsReadBack :=
  ⟨RunSettings.dec_enc, StoreSettings.dec_enc, BankSettings.dec_enc, ChanSettings.dec_enc, RateSettings.dec_enc,
    CodeSettings.dec_enc, ConsSettings.dec_enc, MatchSettings.dec_enc, DrivePart.dec_enc, ScanSettings.dec_enc⟩

/-! ## Slots of one length -/

/-- A slot of a list of slots stands where the lengths of those before it say. -/
theorem drop_flatMap {α : Type} {f : α → Bytes} {m : Nat} (l : List α) (hf : ∀ a ∈ l, (f a).length = m) (n : Nat) :
    (l.flatMap f).drop (m * n) = (l.drop n).flatMap f := by
  induction n generalizing l with
  | zero => simp
  | succ n ih =>
    cases l with
    | nil => simp
    | cons a l =>
      have ha : (f a).length = m := hf a (by simp)
      rw [List.flatMap_cons, Nat.mul_succ, Nat.add_comm, ← List.drop_drop, List.drop_left' ha, List.drop_succ_cons]
      exact ih l fun x hx => hf x (by simp [hx])

theorem flatMap_length {α : Type} {f : α → Bytes} {m : Nat} (l : List α) (hf : ∀ a ∈ l, (f a).length = m) :
    (l.flatMap f).length = m * l.length := by
  induction l with
  | nil => simp
  | cons a l ih =>
    rw [List.flatMap_cons, List.length_append, hf a (by simp), ih fun x hx => hf x (by simp [hx]), List.length_cons,
      Nat.mul_succ, Nat.add_comm]

/-- What follows the first `n` slots of a layout is the `n`-th slot, then the rest. -/
theorem drop_slots {α : Type} {f : α → Bytes} {m : Nat} {l : List α} (hf : ∀ a ∈ l, (f a).length = m) {pre rest : Bytes}
    {n : Nat} (h : n < l.length) : ∃ tail, (pre ++ (l.flatMap f ++ rest)).drop (pre.length + m * n) = f l[n] ++ tail := by
  refine ⟨(l.drop (n + 1)).flatMap f ++ rest, ?_⟩
  have hle : m * n ≤ (l.flatMap f).length := by rw [flatMap_length l hf]; exact Nat.mul_le_mul le_rfl h.le
  rw [← List.drop_drop, List.drop_left, List.drop_append_of_le_length hle, drop_flatMap l hf,
    List.drop_eq_getElem_cons h, List.flatMap_cons, List.append_assoc]

theorem byteAt_drop (b : Bytes) (off i : Nat) : byteAt (b.drop off) i = byteAt b (off + i) := by
  simp [byteAt]

theorem field_drop (b : Bytes) (k off n : Nat) : field (b.drop k) off n = field b (k + off) n := by
  simp [field]

/-! ## The step entry -/

@[simp] theorem Action.enc_length (a : Action) : a.enc.length = 4 := by cases a <;> rfl

theorem Action.dec_enc (a : Action) (tail : Bytes) : Action.dec (byteAt (a.enc ++ tail) 0) (byteAt (a.enc ++ tail) 1)
    (byteAt (a.enc ++ tail) 2) = some a := by
  cases a <;> simp [Action.enc, Action.dec]

/-- The action slots read back. -/
theorem decActions_slots {pre rest : Bytes} (hpre : pre.length = 20) (l : List Action) (n : Nat) (h : n ≤ l.length) :
    decActions (pre ++ (l.flatMap Action.enc ++ rest)) n = some (l.take n) := by
  induction n with
  | zero => simp [decActions]
  | succ n ih =>
    obtain ⟨tail, hs⟩ := drop_slots (f := Action.enc) (fun a _ => a.enc_length) (pre := pre) (rest := rest)
      (show n < l.length from h)
    have hb (i : Nat) : byteAt (pre ++ (l.flatMap Action.enc ++ rest)) (20 + i + 4 * n) = byteAt (l[n].enc ++ tail) i := by
      rw [← hs, byteAt_drop, hpre]; congr 1; omega
    simp only [decActions, ih (by omega), Option.bind_eq_bind, Option.bind_some, hb 0, hb 1, hb 2, Action.dec_enc]
    rw [List.take_add_one, List.getElem?_eq_getElem (show n < l.length from h)]
    rfl

theorem Anchor.dec_enc (a : Anchor) : Anchor.dec (byteAt a.enc 0) (byteAt a.enc 1) = some a := by
  cases a <;> simp [Anchor.enc, Anchor.dec]

/-- R22: the conditions whose parameters lie in the values their source allows. -/
def Cond.legal (c : Cond) : Prop :=
  (∀ v m, c = .code v m ∨ c = .lastCode v m → v &&& ~~~m = 0) ∧ (∀ m st, c = .rate m st → st ≠ .off) ∧
    ∀ t o, c = .scan t o → o = .match_ ∨ o = .mismatch ∨ o = .fault

theorem Cond.dec_enc (c : Cond) (h : c.legal) :
    Cond.dec (byteAt c.enc 0) (byteAt c.enc 1) (byteAt c.enc 2) = some c := by
  obtain ⟨values, rates, outcomes⟩ := h
  cases c with
  | code v m => simp [Cond.enc, Cond.dec, valueInMask, values v m (.inl rfl)]
  | lastCode v m => simp [Cond.enc, Cond.dec, valueInMask, values v m (.inr rfl)]
  | rate m st => simp [Cond.enc, Cond.dec, rates m st rfl]
  | scan t o =>
    rcases outcomes t o rfl with rfl | rfl | rfl <;> simp [Cond.enc, Cond.dec, ScanOutcome.code, ScanOutcome.decCond]
  | rail b up => cases up <;> simp [Cond.enc, Cond.dec]
  | _ => simp [Cond.enc, Cond.dec]

theorem Anchor.enc_bytes (a : Anchor) : ∃ x y, a.enc = [x, y] := by cases a <;> exact ⟨_, _, rfl⟩

theorem Cond.enc_bytes (c : Cond) : ∃ x y z, c.enc = [x, y, z] := by cases c <;> exact ⟨_, _, _, rfl⟩

theorem StepEntry.enc_length {e : StepEntry} (ha : e.actions.length ≤ 4) : e.enc.length = 36 := by
  obtain ⟨x, y, hx⟩ := e.anchor.enc_bytes
  obtain ⟨p, q, r, hp⟩ := e.cond.enc_bytes
  have slots : (padTo 16 (e.actions.flatMap Action.enc)).length = 16 :=
    padTo_length _ _ (by rw [flatMap_length _ fun a _ => a.enc_length]; omega)
  simp [StepEntry.enc, hx, hp, slots]

theorem StepEntry.dec_enc {e : StepEntry} (hmin : e.windowMin ≤ 4000000000) (hmax : e.windowMax ≤ 4000000000)
    (hc : e.count ≤ 255) (ha : e.actions.length ≤ 4) (hl : e.cond.legal) : StepEntry.dec e.enc = some e := by
  obtain ⟨x, y, hx⟩ := e.anchor.enc_bytes
  obtain ⟨p, q, r, hp⟩ := e.cond.enc_bytes
  have anchor := e.anchor.dec_enc
  have cond := e.cond.dec_enc hl
  rw [hx] at anchor
  rw [hp] at cond
  have windows : field e.enc 12 4 = e.windowMin ∧ field e.enc 16 4 = e.windowMax := by
    simp only [StepEntry.enc, hx, hp, List.cons_append, List.nil_append, List.append_assoc, field_cons_succ]
    exact ⟨field_le_append _ _ _ (by omega),
      (field_le_skip _ _ _ le_rfl).trans (field_le_append _ _ _ (by omega))⟩
  have numbers : (byteAt e.enc 10).toNat = e.count ∧ (byteAt e.enc 11).toNat = e.actions.length := by
    simp only [StepEntry.enc, hx, hp, List.cons_append, List.nil_append, byteAt_cons_zero, byteAt_cons_succ]
    exact ⟨byte_toNat _ (by omega), byte_toNat _ (by omega)⟩
  have actions : decActions e.enc e.actions.length = some e.actions := by
    have hpre : ([e.kind.code, yn e.required] ++ e.anchor.enc ++ e.cond.enc ++ [yn e.earlyFails, yn (!e.stopOnFail), e.label,
        byte e.count, byte e.actions.length] ++ le 4 e.windowMin ++ le 4 e.windowMax).length = 20 := by
      simp [hx, hp]
    have := decActions_slots hpre (rest := List.replicate (16 - (e.actions.flatMap Action.enc).length) 0) e.actions
      e.actions.length le_rfl
    simpa [StepEntry.enc, padTo] using this
  have few : ¬4 < e.actions.length := by omega
  have bounds : ¬(windowBound < e.windowMin ∨ windowBound < e.windowMax) := by
    unfold windowBound; omega
  simp only [StepEntry.dec, windows, numbers, actions, if_neg few, if_neg bounds]
  simp only [StepEntry.enc, hx, hp, List.cons_append, List.nil_append, byteAt_cons_zero, byteAt_cons_succ] at anchor cond ⊢
  simp [anchor, cond]

/-- Settles O21: the length of an entry and its round trip. -/
theorem stepEntriesReadBack : Obligations.StepEntriesReadBack := fun _ hmin hmax hc ha hv hr hs =>
  ⟨StepEntry.enc_length ha, StepEntry.dec_enc hmin hmax hc ha ⟨hv, hr, hs⟩⟩

/-! ## The job body -/

/-- R126: the operations whose lengths, counts and out values lie in their ranges. -/
def ScanOp.legal : ScanOp → Prop
  | .tapReset => True
  | .irScan n out => 1 ≤ n ∧ n ≤ 64 ∧ out.toNat < 2 ^ n
  | .drScan n out => 1 ≤ n ∧ n ≤ 128 ∧ out.toNat < 2 ^ n
  | .idle m => 1 ≤ m ∧ m ≤ 65535

@[simp] theorem ScanOp.enc_length (o : ScanOp) : o.enc.length = 20 := by cases o <;> simp [ScanOp.enc]

theorem ScanOp.dec_enc (o : ScanOp) (h : o.legal) : ScanOp.dec o.enc = some o := by
  cases o with
  | tapReset => simp [ScanOp.enc, ScanOp.dec]
  | irScan n out =>
    obtain ⟨h1, h2, h3⟩ := h
    have hf : field (ScanOp.irScan n out).enc 2 2 = n ∧ field (ScanOp.irScan n out).enc 4 16 = out.toNat := by
      simp only [ScanOp.enc, List.cons_append, List.nil_append, field_cons_succ]
      exact ⟨field_le_append _ _ _ (by omega),
        (field_le_skip _ _ _ le_rfl).trans (field_le _ _ (by have := out.isLt; omega))⟩
    have legal : ¬(n = 0 ∨ 64 < n ∨ 2 ^ n ≤ out.toNat) := by omega
    simp only [ScanOp.dec, hf, if_neg legal]
    simp [ScanOp.enc]
  | drScan n out =>
    obtain ⟨h1, h2, h3⟩ := h
    have hf : field (ScanOp.drScan n out).enc 2 2 = n ∧ field (ScanOp.drScan n out).enc 4 16 = out.toNat := by
      simp only [ScanOp.enc, List.cons_append, List.nil_append, field_cons_succ]
      exact ⟨field_le_append _ _ _ (by omega),
        (field_le_skip _ _ _ le_rfl).trans (field_le _ _ (by have := out.isLt; omega))⟩
    have legal : ¬(n = 0 ∨ 128 < n ∨ 2 ^ n ≤ out.toNat) := by omega
    simp only [ScanOp.dec, hf, if_neg legal]
    simp [ScanOp.enc]
  | idle m =>
    obtain ⟨h1, h2⟩ := h
    have hf : field (ScanOp.idle m).enc 2 2 = m := by
      simp only [ScanOp.enc, List.cons_append, List.nil_append, field_cons_succ]
      exact field_le_append _ _ _ (by omega)
    have some_ticks : m ≠ 0 := by omega
    simp only [ScanOp.dec, hf, if_neg some_ticks]
    simp [ScanOp.enc]

/-- The operation slots read back. -/
theorem decOps_slots {pre rest : Bytes} (hpre : pre.length = 4) (l : List ScanOp) (hl : ∀ o ∈ l, o.legal) (n : Nat)
    (h : n ≤ l.length) : decOps (pre ++ (l.flatMap ScanOp.enc ++ rest)) n = some (l.take n) := by
  induction n with
  | zero => simp [decOps]
  | succ n ih =>
    obtain ⟨tail, hs⟩ := drop_slots (f := ScanOp.enc) (fun o _ => o.enc_length) (pre := pre) (rest := rest)
      (show n < l.length from h)
    rw [hpre] at hs
    simp only [decOps, ih (by omega), Option.bind_eq_bind, Option.bind_some, hs,
      List.take_left' (ScanOp.enc_length _), ScanOp.dec_enc _ (hl _ (List.getElem_mem _))]
    rw [List.take_add_one, List.getElem?_eq_getElem (show n < l.length from h)]
    rfl

@[simp] theorem encCompare_length (c : Option Compare) : (encCompare c).length = 32 := by
  cases c <;> simp [encCompare]

theorem JobBody.slots_length {j : JobBody} (h : j.ops.length ≤ 8) :
    (padTo 160 (j.ops.flatMap ScanOp.enc)).length = 160 :=
  padTo_length _ _ (by rw [flatMap_length _ fun o _ => o.enc_length]; omega)

theorem JobBody.enc_length {j : JobBody} (h : j.ops.length ≤ 8) : j.enc.length = 196 := by
  simp [JobBody.enc, JobBody.slots_length h]

/-- R126: the compare reads back. -/
theorem decCompare_enc {j : JobBody} (h : j.ops.length ≤ 8)
    (hc : ∀ c, j.compare = some c → ∃ n, lastDrLength j.ops = some n ∧ c.mask.toNat < 2 ^ n) :
    decCompare j.enc j.ops = some j.compare := by
  have given : byteAt j.enc 1 = yn j.compare.isSome := rfl
  cases hj : j.compare with
  | none => simp [decCompare, given, hj, yn, ynOf]
  | some c =>
    obtain ⟨n, hn, hm⟩ := hc c hj
    have hf : field j.enc 164 16 = c.expected.toNat ∧ field j.enc 180 16 = c.mask.toNat := by
      have hlen : ([byte j.ops.length, yn j.compare.isSome, 0, 0] ++ padTo 160 (j.ops.flatMap ScanOp.enc)).length = 164 := by
        simp [JobBody.slots_length h]
      have behind (i : Nat) : field j.enc (164 + i) 16 = field (encCompare j.compare) i 16 := by
        rw [JobBody.enc, ← field_drop, List.drop_left' hlen]
      rw [behind 0, behind 16, hj]
      exact ⟨field_le_append _ _ _ (by have := c.expected.isLt; omega),
        (field_le_skip _ _ _ le_rfl).trans (field_le _ _ (by have := c.mask.isLt; omega))⟩
    simp [decCompare, given, hj, hn, hf, hm, ynOf, yn]

theorem JobBody.dec_enc {j : JobBody} (h1 : 1 ≤ j.ops.length) (h8 : j.ops.length ≤ 8)
    (hsum : (j.ops.map ScanOp.bits).sum ≤ 512) (hl : ∀ o ∈ j.ops, o.legal)
    (hc : ∀ c, j.compare = some c → ∃ n, lastDrLength j.ops = some n ∧ c.mask.toNat < 2 ^ n) :
    JobBody.dec j.enc = some j := by
  have count : (byteAt j.enc 0).toNat = j.ops.length := byte_toNat _ (by omega)
  have ops : decOps j.enc j.ops.length = some j.ops := by
    have := decOps_slots (pre := [byte j.ops.length, yn j.compare.isSome, 0, 0])
      (rest := List.replicate (160 - (j.ops.flatMap ScanOp.enc).length) 0 ++ encCompare j.compare) rfl j.ops hl _ le_rfl
    simpa [JobBody.enc, padTo] using this
  have some_ops : ¬(j.ops.length = 0 ∨ 8 < j.ops.length) := by omega
  have few_bits : ¬512 < (j.ops.map ScanOp.bits).sum := by omega
  simp only [JobBody.dec, count, if_neg some_ops]
  simp [ops, if_neg few_bits, decCompare_enc h8 hc]

/-- Settles O22: the length of a body and its round trip. -/
theorem jobBodiesReadBack : Obligations.JobBodiesReadBack := by
  intro j h1 h8 hsum hir hdr hidle hc
  refine ⟨JobBody.enc_length h8, JobBody.dec_enc h1 h8 hsum (fun o ho => ?_) hc⟩
  cases o with
  | tapReset => trivial
  | irScan n out => exact hir n out ho
  | drScan n out => exact hdr n out ho
  | idle m => exact hidle m ho

end Sys2Proof.Machine

end


section
/-! The layout of a trace record: its header and what stands behind it. -/

namespace Sys2Proof.Machine

/-! ## The header and the bytes behind it (12.4) -/

/-- The sixteen bytes before the fields of a record's kind. -/
def Stored.header (r : Stored) : Bytes :=
  [r.record.body.kind, r.record.body.source, byte r.record.units, r.record.body.flags] ++ le 6 r.seq
    ++ le 5 r.record.time ++ [r.record.body.aux]

theorem Stored.bytes_eq (r : Stored) : r.bytes = r.header ++ r.record.body.rest := rfl

theorem Stored.header_length (r : Stored) : r.header.length = 16 := by simp [Stored.header]

theorem Stored.byteAt_behind (r : Stored) (i : Nat) : byteAt r.bytes (16 + i) = byteAt r.record.body.rest i :=
  byteAt_append_right r.header_length _ i

theorem Stored.field_behind (r : Stored) (i n : Nat) : field r.bytes (16 + i) n = field r.record.body.rest i n := by
  rw [r.bytes_eq, ← field_drop, List.drop_left' r.header_length]

theorem Stored.drop_header (r : Stored) : r.bytes.drop 16 = r.record.body.rest := List.drop_left' r.header_length

/-- R54: the bytes of a record are eight times its size in units, where the fields of its kind fill the rest. -/
theorem Stored.header_fields (r : Stored) (hs : r.seq < 2 ^ 48) (ht : r.record.time < 2 ^ 40) {units : Nat}
    {flags : Byte} (hu : r.record.units = units) (hlt : units < 256) (hf : r.record.body.flags = flags)
    (hrest : 16 + r.record.body.rest.length = 8 * units) :
    r.record.units = units ∧ r.bytes.length = 8 * units ∧ byteAt r.bytes 0 = r.record.body.kind ∧
      byteAt r.bytes 1 = r.record.body.source ∧ (byteAt r.bytes 2).toNat = units ∧
      byteAt r.bytes 3 = flags ∧ field r.bytes 4 6 = r.seq ∧ field r.bytes 10 5 = r.record.time ∧
      byteAt r.bytes 15 = r.record.body.aux := by
  refine ⟨hu, ?_, rfl, rfl, ?_, hf, ?_, ?_, rfl⟩
  · rw [r.bytes_eq, List.length_append, r.header_length, hrest]
  · exact (byte_toNat _ (by omega)).trans hu
  · simp only [Stored.bytes, List.cons_append, List.nil_append, List.append_assoc, field_cons_succ]
    exact field_le_append _ _ _ (by omega)
  · simp only [Stored.bytes, List.cons_append, List.nil_append, List.append_assoc, field_cons_succ]
    rw [field_le_skip _ _ _ le_rfl]
    exact field_le_append _ _ _ (by omega)

/-- Bytes behind the header that all hold one value. -/
theorem constant_behind {b rest : Bytes} {off lo hi : Nat} {v : Byte} (hb : ∀ k, byteAt b (off + k) = byteAt rest k)
    (hv : ∀ k, lo ≤ k → k ≤ hi → byteAt rest k = v) : ∀ i, off + lo ≤ i → i ≤ off + hi → byteAt b i = v := by
  intro i h h'
  obtain ⟨k, rfl⟩ := Nat.exists_eq_add_of_le (show off ≤ i by omega)
  exact (hb k).trans (hv k (by omega) (by omega))

/-! ## The fields of a kind (12.5) -/

/-- Three flags as the bits of a byte. -/
theorem flagByte_eq (b0 b1 b2 : Bool) :
    flagByte b0 b1 b2 = byte ((if b0 then 1 else 0) + (if b1 then 2 else 0) + if b2 then 4 else 0) := by
  cases b0 <;> cases b1 <;> cases b2 <;> rfl

@[simp] theorem StartSource.enc_length (src : StartSource) : src.enc.length = 3 := by cases src <;> rfl

/-- A content padded with zeros reads 0 behind it. -/
theorem byteAt_padTo (n : Nat) (b : Bytes) (i : Nat) : byteAt (padTo n b) i = byteAt b i := by
  by_cases h : i < b.length
  · simp [byteAt, padTo, List.getElem?_append_left h]
  · have hb : b[i]? = none := List.getElem?_eq_none (by omega)
    have hp : (padTo n b).getD i 0 = 0 := by
      rw [padTo, List.getD_eq_getElem?_getD, List.getElem?_append_right (by omega), List.getElem?_replicate]
      split <;> rfl
    rw [byteAt, hp, byteAt, List.getD_eq_getElem?_getD, hb]; rfl

/-- R54: a text of 1 to 56 bytes takes as many units as its bytes fill. -/
theorem text_units {n : Nat} (h : n ≤ 56) : 2 + ceilDiv n 8 = 2 + (n + 7) / 8 ∧ 2 + (n + 7) / 8 < 256 ∧
    n ≤ 8 * ceilDiv n 8 := by
  unfold ceilDiv; omega

/-- The numbers of the enumerations. -/
theorem codes_listed :
    [StartSource.station, .edge 5 .rising, .edge 6 .falling, .railUp 3].map StartSource.enc =
      [[0, 0, 0], [1, 5, 0], [1, 6, 1], [2, 3, 0]] ∧
    [EndCause.allResolved, .limit, .endAction, .stopOnFail, .abort, .armTimeout].map EndCause.code = [0, 1, 2, 3, 4, 5] ∧
    [Verdict.pass, .fail, .notStarted, .aborted].map Verdict.code = [0, 1, 2, 3] ∧
    [StepState.pending, .opened, .matched, .held, .early, .missed, .violated, .failed, .skipped, .cancelled].map
      StepState.code = [0, 1, 2, 3, 4, 5, 6, 7, 8, 9] ∧
    [RateState.off, .low, .ok, .high, .stall].map RateState.code = [0, 1, 2, 3, 4] ∧
    [RateMode.tach, .clock].map RateMode.code = [0, 1] ∧
    [DriveMode.released, .low, .high, .pulseRunning, .pulseIdle].map DriveMode.code = [0, 1, 2, 3, 4] ∧
    [DriveCause.station, .step, .rail, .oneShotDone].map DriveCause.code = [0, 1, 2, 3] ∧
    [ScanOutcome.match_, .mismatch, .done, .fault, .cancelled].map ScanOutcome.code = [0, 1, 2, 3, 4] ∧
    [none, some FaultReason.rail, some .irCheck, some .queueFull].map faultCode = [255, 1, 2, 3] :=
  ⟨rfl, rfl, rfl, rfl, rfl, rfl, rfl, rfl, rfl, rfl⟩

/-- Settles O23: the header by `Stored.header_fields`, and the fields of each kind. -/
theorem recordsFillTheirUnits : Obligations.RecordsFillTheirUnits := by
  refine ⟨codes_listed, fun r hs ht htext hmark => ?_⟩
  have header {units : Nat} {flags : Byte} := r.header_fields hs ht (units := units) (flags := flags)
  have behind := r.byteAt_behind
  have fields := r.field_behind
  have start := r.drop_header
  obtain ⟨seq, time, body⟩ := r
  cases body with
  | runArmed src =>
    refine ⟨header rfl (by decide) rfl (by simp [RecBody.rest]), ?_,
      constant_behind (lo := 3) (hi := 6) behind fun k h h' => ?_, ?_⟩
    · rw [start]; exact List.take_left' src.enc_length
    · cases src <;> interval_cases k <;> rfl
    · cases src <;> rfl
  | runStarted src =>
    refine ⟨header rfl (by decide) rfl (by simp [RecBody.rest]), ?_,
      constant_behind (lo := 3) (hi := 6) behind fun k h h' => ?_, ?_⟩
    · rw [start]; exact List.take_left' src.enc_length
    · cases src <;> interval_cases k <;> rfl
    · cases src <;> rfl
  | runEnded src cause v ff =>
    refine ⟨header rfl (by decide) rfl (by simp [RecBody.rest]), ?_, ?_, ?_, fun hf => ?_, fun k o hf => ?_, ?_⟩
    · rw [start]
      simp only [RecBody.rest, List.append_assoc]
      exact List.take_left' src.enc_length
    · cases src <;> rfl
    · cases src <;> rfl
    · subst hf
      refine constant_behind (lo := 5) (hi := 6) behind fun k h h' => ?_
      cases src <;> interval_cases k <;> rfl
    · subst hf
      cases src <;> exact ⟨rfl, rfl⟩
    · cases src <;> rcases ff with _ | ⟨k, o⟩ <;> rfl
  | edge c level retimed =>
    exact header (units := 2) rfl (by decide) (flagByte_eq retimed false false) rfl
  | level b code present change =>
    exact header (units := 2) rfl (by decide) (flagByte_eq change present false) rfl
  | code code count last =>
    refine ⟨header rfl (by decide) rfl (by simp [RecBody.rest]), fun hc => ?_, fun hl => ?_, rfl⟩
    · rw [fields 0]; exact field_le_append _ _ _ (by omega)
    · rw [fields 2]
      exact (field_le_skip _ _ _ le_rfl).trans (field_le_append _ _ _ (by omega))
  | text p d b err brk =>
    obtain ⟨hb, hb'⟩ := htext p d b err brk rfl
    obtain ⟨hu, hlt, hfit⟩ := text_units hb'
    have h := header (units := 2 + (b.length + 7) / 8) hu hlt (flagByte_eq err brk false) (by
      simp only [RecBody.rest, padTo_length _ _ hfit]; unfold ceilDiv; omega)
    refine ⟨?_, fun i _ => (behind i).trans (byteAt_padTo _ _ _)⟩
    cases d <;> exact h
  | rate m st reading mode =>
    refine ⟨header rfl (by decide) rfl (by simp [RecBody.rest]), fun hr => ?_, rfl,
      constant_behind (lo := 3) (hi := 7) behind fun k h h' => ?_⟩
    · rw [fields 0]; exact field_le_append _ _ _ (by omega)
    · interval_cases k <;> rfl
  | drive c mode cause => exact header (units := 2) rfl (by decide) rfl rfl
  | step k outcome label count clipped lookback refused =>
    refine ⟨header (units := 3) rfl (by decide) (flagByte_eq clipped lookback refused) rfl, rfl, rfl,
      constant_behind (lo := 2) (hi := 7) behind fun k h h' => ?_⟩
    interval_cases k <;> rfl
  | scan cls o reason inserted capture len =>
    refine ⟨?_, rfl, rfl, constant_behind (lo := 2) (hi := 7) behind fun k h h' => ?_, ?_⟩
    · cases cls with
      | host tag => exact header (units := 5) rfl (by decide) (flagByte_eq false inserted false) (by simp [RecBody.rest])
      | step n => exact header (units := 5) rfl (by decide) (flagByte_eq true inserted false) (by simp [RecBody.rest])
    · interval_cases k <;> rfl
    · rw [fields 8]
      simp only [RecBody.rest, List.cons_append, List.nil_append, field_cons_succ]
      exact (field_le_skip _ _ _ le_rfl).trans (field_le _ _ (by have := capture.isLt; omega))
  | mark byStep label =>
    have hl := padTo_length 16 label (hmark byStep label rfl)
    exact ⟨header rfl (by decide) rfl (by simp [RecBody.rest, hl]), fun i _ => (behind i).trans (byteAt_padTo _ _ _)⟩
  | trig src => cases src <;> exact header (units := 2) rfl (by decide) rfl rfl
  | gap count =>
    refine ⟨header rfl (by decide) rfl (by simp [RecBody.rest]), fun hc => ?_,
      constant_behind (lo := 6) (hi := 7) behind fun k h h' => ?_⟩
    · rw [fields 0]; exact field_le_append _ _ _ (by omega)
    · interval_cases k <;> rfl

end Sys2Proof.Machine

end


section
/-! The validation at ARM, and the state that an accepted ARM loads. -/

namespace Sys2Proof.Machine

/-! ## Each check of R28 -/

section
variable {s : State} {e : StepEntry}

theorem anchorOk_iff {plan : Plan} {k : Fin 64} :
    anchorOk plan k e = true ↔ ∀ j, e.anchor = .step j → j < k ∧ plan[j] ≠ none := by
  unfold anchorOk
  cases h : e.anchor with
  | start => simp
  | step j => simp [Option.isSome_iff_ne_none]

theorem StepEntry.kindOk_iff : e.kindOk = true ↔ (e.kind = .check ↔ e.cond.isEvent = false) := by
  unfold StepEntry.kindOk
  split <;> cases e.cond.isEvent <;> simp_all

theorem StepEntry.windowOk_iff : e.windowOk = true ↔ (e.kind ≠ .check → e.windowMin ≤ e.windowMax) := by
  simp [StepEntry.windowOk, or_iff_not_imp_left]

theorem StepEntry.countOk_iff : e.countOk = true ↔ (e.kind = .await → 1 ≤ e.count) := by
  simp [StepEntry.countOk, or_iff_not_imp_left, Nat.succ_le_iff]

theorem State.condOk_iff : s.condOk e.cond = true ↔
    (∀ c d, e.cond = .edge c d → s.mc[c].settings.enabled = true) ∧
    (∀ c l, e.cond = .level c l → s.mc[c].settings.enabled = true) ∧
    (∀ m st, e.cond = .rate m st ∨ e.cond = .rateState m st → s.rm[m].settings.enabled = true) ∧
    (∀ m, e.cond = .text m → s.tm[m].settings.enabled = true) ∧
    (∀ t o, e.cond = .scan t o → s.sc.staged[t] ≠ none) ∧
    (∀ v m, e.cond = .code v m ∨ e.cond = .lastCode v m → s.cdp.settings.enabled = true) := by
  cases h : e.cond <;> simp [State.condOk, Option.isSome_iff_ne_none]

theorem State.actionSources_iff :
    e.actions.all s.actionSourceOk = true ↔ ∀ t, Action.scan t ∈ e.actions → s.sc.staged[t] ≠ none := by
  rw [List.all_eq_true]
  constructor
  · intro h t ht
    simpa [State.actionSourceOk, Option.isSome_iff_ne_none] using h _ ht
  · intro h a ha
    cases a with
    | scan t => simpa [State.actionSourceOk, Option.isSome_iff_ne_none] using h t ha
    | _ => rfl

theorem State.actionsPermitted_iff :
    e.actions.all s.actionPermitted = true ↔ ∀ c op, Action.drive c op ∈ e.actions → s.permitMask.getLsbD c.val = true := by
  rw [List.all_eq_true]
  constructor
  · intro h c op ha
    exact h _ ha
  · intro h a ha
    cases a with
    | drive c op => exact h c op ha
    | _ => rfl

theorem StepEntry.orderOk_iff :
    e.orderOk = true ↔ ∀ i, e.actions[i]? = some .endRun → i + 1 = e.actions.length := by
  rw [StepEntry.orderOk, List.all_eq_true]
  constructor
  · intro h i hi
    obtain ⟨hlt, heq⟩ := List.getElem?_eq_some_iff.1 hi
    by_contra hne
    have hmem : e.actions[i] ∈ e.actions.dropLast := by
      rw [List.mem_iff_getElem]
      exact ⟨i, by rw [List.length_dropLast]; omega, List.getElem_dropLast _⟩
    simpa [heq] using h _ hmem
  · intro h a ha
    obtain ⟨i, hi, rfl⟩ := List.mem_iff_getElem.1 ha
    rw [List.length_dropLast] at hi
    rw [List.getElem_dropLast, bne_iff_ne]
    intro heq
    have := h i (List.getElem?_eq_some_iff.2 ⟨by omega, heq⟩)
    omega

/-- R28: a step without a fault is one that passes every check. -/
theorem State.stepFault_none_iff {k : Fin 64} : s.stepFault k e = none ↔
    anchorOk s.ste.staged k e = true ∧ e.kindOk = true ∧ e.windowOk = true ∧ e.countOk = true ∧
      s.condOk e.cond = true ∧ e.actions.all s.actionSourceOk = true ∧ e.actions.all s.actionPermitted = true ∧
      e.orderOk = true := by
  refine ⟨s.stepFault_none k e, fun ⟨h1, h2, h3, h4, h5, h6, h7, h8⟩ => ?_⟩
  simp [State.stepFault, h1, h2, h3, h4, h5, h6, h7, h8]

/-! ## The fault that a step reports (R27) -/

/-- The check that a reason names. -/
def State.fails (s : State) (k : Fin 64) (e : StepEntry) : Reason → Prop
  | .anchor => anchorOk s.ste.staged k e = false
  | .kind => e.kindOk = false
  | .window => e.windowOk = false
  | .count => e.countOk = false
  | .source => s.condOk e.cond = false ∨ ∃ t, Action.scan t ∈ e.actions ∧ s.sc.staged[t] = none
  | .denied => ∃ c op, Action.drive c op ∈ e.actions ∧ s.permitMask.getLsbD c.val = false
  | .order => e.orderOk = false
  | .empty | .start => False

theorem State.sources_fail {k : Fin 64} (h : (s.condOk e.cond && e.actions.all s.actionSourceOk) = false) :
    s.fails k e .source := by
  rcases Bool.and_eq_false_iff.1 h with hc | ha
  · exact .inl hc
  · by_contra hn
    refine Bool.eq_false_iff.1 ha (State.actionSources_iff.2 fun t ht hs => hn (.inr ⟨t, ht, hs⟩))

theorem State.permits_fail {k : Fin 64} (h : e.actions.all s.actionPermitted = false) : s.fails k e .denied := by
  by_contra hn
  refine Bool.eq_false_iff.1 h (State.actionsPermitted_iff.2 fun c op hc => ?_)
  by_contra hm
  exact hn ⟨c, op, hc, Bool.eq_false_iff.2 hm⟩

/-- R27: the reason is the first check that fails: it does fail, and the ones before it pass. -/
theorem State.stepFault_some {k : Fin 64} {r : Reason} (h : s.stepFault k e = some r) :
    (r = .anchor ∨ anchorOk s.ste.staged k e = true) ∧
      (r = .anchor ∨ r = .kind ∨ e.kindOk = true) ∧
      (r = .anchor ∨ r = .kind ∨ r = .window ∨ e.windowOk = true) ∧
      (r = .anchor ∨ r = .kind ∨ r = .window ∨ r = .count ∨ e.countOk = true) ∧
      (r = .denied ∨ r = .order → s.condOk e.cond = true ∧ ∀ t, Action.scan t ∈ e.actions → s.sc.staged[t] ≠ none) ∧
      (r = .order → ∀ c op, Action.drive c op ∈ e.actions → s.permitMask.getLsbD c.val = true) ∧
      s.fails k e r := by
  unfold State.stepFault at h
  split at h
  · rename_i h1
    cases h
    exact ⟨.inl rfl, .inl rfl, .inl rfl, .inl rfl, by simp, by simp, by simpa [State.fails] using h1⟩
  rename_i h1
  replace h1 : anchorOk s.ste.staged k e = true := by simpa using h1
  split at h
  · rename_i h2
    cases h
    exact ⟨.inr h1, by simp, by simp, by simp, by simp, by simp, by simpa [State.fails] using h2⟩
  rename_i h2
  replace h2 : e.kindOk = true := by simpa using h2
  split at h
  · rename_i h3
    cases h
    exact ⟨.inr h1, by simp [h2], by simp, by simp, by simp, by simp, by simpa [State.fails] using h3⟩
  rename_i h3
  replace h3 : e.windowOk = true := by simpa using h3
  split at h
  · rename_i h4
    cases h
    exact ⟨.inr h1, by simp [h2], by simp [h3], by simp, by simp, by simp, by simpa [State.fails] using h4⟩
  rename_i h4
  replace h4 : e.countOk = true := by simpa using h4
  split at h
  · rename_i h5
    cases h
    exact ⟨.inr h1, by simp [h2], by simp [h3], by simp [h4], by simp, by simp, State.sources_fail (Bool.not_eq_true' _ ▸ h5)⟩
  rename_i h5
  obtain ⟨hcond, hsources⟩ : s.condOk e.cond = true ∧ e.actions.all s.actionSourceOk = true := by
    rw [← Bool.and_eq_true]; simpa using h5
  have named := State.actionSources_iff.1 hsources
  split at h
  · rename_i h6
    cases h
    exact ⟨.inr h1, by simp [h2], by simp [h3], by simp [h4], fun _ => ⟨hcond, named⟩, by simp,
      State.permits_fail (by simpa using h6)⟩
  rename_i h6
  have permitted := State.actionsPermitted_iff.1 (show e.actions.all s.actionPermitted = true by simpa using h6)
  split at h
  · rename_i h7
    cases h
    exact ⟨.inr h1, by simp [h2], by simp [h3], by simp [h4], fun _ => ⟨hcond, named⟩, fun _ => permitted,
      by simpa [State.fails] using h7⟩
  · cases h

end

/-! ## The fault that the validation reports -/

/-- In the list of all numbers those before one are the lower ones. -/
theorem mem_before_of_lt {n : Nat} {l₁ l₂ : List (Fin n)} {k j : Fin n} (h : List.finRange n = l₁ ++ k :: l₂) (hj : j < k) :
    j ∈ l₁ := by
  have hlen : l₁.length < (List.finRange n).length := by rw [h]; simp
  have hk : l₁.length = k.val := by
    have hget : (List.finRange n)[l₁.length]'hlen = k := by
      rw [List.getElem_of_eq h]; simp
    rw [← hget]; simp
  have hj' : j.val < l₁.length := by omega
  have hget : (List.finRange n)[j.val]'(by simp) = l₁[j.val] := by
    rw [List.getElem_of_eq h, List.getElem_append_left hj']
  rw [show j = l₁[j.val] by rw [← hget]; simp]
  exact List.getElem_mem hj'

variable {s : State}

theorem State.planFault_none_iff : s.planFault = none ↔
    ∀ (k : Fin 64) (e : StepEntry), s.ste.staged[k] = some e → s.stepFault k e = none := by
  unfold State.planFault
  rw [List.findSome?_eq_none_iff]
  constructor
  · intro h k e hk
    simpa [hk] using h k (List.mem_finRange k)
  · intro h k _
    cases hk : s.ste.staged[k] with
    | none => rfl
    | some e => simp [h k e hk]

/-- R27: the fault reported is that of the lowest-numbered step that has one. -/
theorem State.planFault_some {k : Fin 64} {r : Reason} (h : s.planFault = some (k, r)) :
    (∀ (j : Fin 64) (e : StepEntry), j < k → s.ste.staged[j] = some e → s.stepFault j e = none) ∧
      ∃ e, s.ste.staged[k] = some e ∧ s.stepFault k e = some r := by
  obtain ⟨l₁, k', l₂, hl, hk', before⟩ := List.findSome?_eq_some_iff.1 h
  cases hs : s.ste.staged[k'] with
  | none => simp [hs] at hk'
  | some e =>
    simp only [hs, Option.map_eq_some_iff] at hk'
    obtain ⟨r', hr, heq⟩ := hk'
    cases heq
    refine ⟨fun j e' hj hs' => ?_, e, hs, hr⟩
    simpa [hs'] using before j (mem_before_of_lt hl hj)

theorem State.startOk_iff : s.startOk = true ↔
    ∀ c d, s.rc.staged.source = .edge c d → s.mc[c].settings.enabled = true := by
  unfold State.startOk
  split
  · rename_i c d h
    exact ⟨fun he c' d' h' => by cases h.symm.trans h'; exact he, fun he => he c d h⟩
  · rename_i h
    exact iff_of_true rfl fun c d hc => absurd hc (h c d)

/-- A plan with no used step. -/
theorem State.planEmpty_iff : ((List.finRange 64).all fun k => s.ste.staged[k].isNone) = true ↔
    ∀ k : Fin 64, s.ste.staged[k] = none := by
  simp [List.all_eq_true]

theorem State.planEmpty_or (s : State) : (∀ k : Fin 64, s.ste.staged[k] = none) ∨ ∃ k : Fin 64, s.ste.staged[k] ≠ none := by
  by_cases h : ∀ k : Fin 64, s.ste.staged[k] = none
  · exact .inl h
  · exact .inr (not_forall.1 h)

theorem State.validate_of_empty (h : ∀ k : Fin 64, s.ste.staged[k] = none) : s.validate = some (none, .empty) :=
  if_pos (State.planEmpty_iff.2 h)

theorem State.validate_of_used (h : ∃ k : Fin 64, s.ste.staged[k] ≠ none) : s.validate =
    match s.planFault with
    | some (k, r) => some (some k, r)
    | none => if s.startOk then none else some (none, .start) :=
  if_neg fun he => not_exists.2 (fun k hk => hk (State.planEmpty_iff.1 he k)) h

/-- R27: what passes. -/
theorem State.validate_none_iff : s.validate = none ↔ (∃ k : Fin 64, s.ste.staged[k] ≠ none) ∧ s.startOk = true ∧
    ∀ (k : Fin 64) (e : StepEntry), s.ste.staged[k] = some e → s.stepFault k e = none := by
  rcases s.planEmpty_or with h | h
  · rw [State.validate_of_empty h]
    simp [h]
  · rw [State.validate_of_used h, ← State.planFault_none_iff]
    cases hp : s.planFault with
    | none => simpa using fun _ => h
    | some f => simp

/-- R27: the faults reported with no step. -/
theorem State.validate_noStep {r : Reason} (hv : s.validate = some (none, r)) :
    (r = .empty ∧ ∀ j : Fin 64, s.ste.staged[j] = none) ∨
      (r = .start ∧ (∃ j : Fin 64, s.ste.staged[j] ≠ none) ∧
        (∃ c d, s.rc.staged.source = .edge c d ∧ s.mc[c].settings.enabled = false) ∧
        ∀ (j : Fin 64) (e : StepEntry), s.ste.staged[j] = some e → s.stepFault j e = none) := by
  rcases s.planEmpty_or with h | h
  · rw [State.validate_of_empty h] at hv
    cases hv
    exact .inl ⟨rfl, h⟩
  · rw [State.validate_of_used h] at hv
    cases hp : s.planFault with
    | some f => simp [hp] at hv
    | none =>
      simp only [hp] at hv
      split at hv
      · cases hv
      · rename_i hs
        cases hv
        refine .inr ⟨rfl, h, ?_, State.planFault_none_iff.1 hp⟩
        rw [State.startOk_iff] at hs
        push Not at hs
        obtain ⟨c, d, hc, hm⟩ := hs
        exact ⟨c, d, hc, Bool.eq_false_iff.2 hm⟩

/-- R27: the fault reported with a step. -/
theorem State.validate_step {k : Fin 64} {r : Reason} (hv : s.validate = some (some k, r)) : s.planFault = some (k, r) := by
  rcases s.planEmpty_or with h | h
  · rw [State.validate_of_empty h] at hv
    cases hv
  · rw [State.validate_of_used h] at hv
    cases hp : s.planFault with
    | some f => simpa [hp, Prod.ext_iff] using hv
    | none => simp [hp] at hv

/-- Settles O24: the checks by their `_iff` lemmas, the reports by `State.validate_noStep` and `State.planFault_some`. -/
theorem validationAtArm : Obligations.ValidationAtArm := by
  refine ⟨fun s => ?_, fun s k r hv => ?_⟩
  · simp only [State.validate_none_iff, State.startOk_iff, State.stepFault_none_iff, anchorOk_iff, StepEntry.kindOk_iff,
      StepEntry.windowOk_iff, StepEntry.countOk_iff, State.condOk_iff, State.actionSources_iff, State.actionsPermitted_iff,
      StepEntry.orderOk_iff, and_assoc]
  · cases k with
    | none => exact State.validate_noStep hv
    | some k =>
      obtain ⟨before, e, hk, hf⟩ := State.planFault_some (State.validate_step hv)
      obtain ⟨h1, h2, h3, h4, h5, h6, fails⟩ := State.stepFault_some hf
      exact ⟨before, e, hk, h1, h2, h3, h4, h5, h6, by cases r <;> exact fails⟩

/-! ## ARM -/

/-- Settles O25: the owner's work is `State.armRun`, field by field that of R6. -/
theorem armStartsARun : Obligations.ArmStartsARun := by
  intro s tag htake hidle hv
  have hl : s.live = false := by rcases hidle with h | h <;> simp [State.live, RunState.live, h]
  refine congrArg Host.Outcome.next (takeRequest_quiet (u := s.armRun) htake rfl rfl rfl ?_)
  have hl' : State.live { s with mp := s.mp.pop } = false := hl
  have hv' : State.validate { s with mp := s.mp.pop } = none := hv
  simp only [armOwner, hl', hv', Bool.false_eq_true, if_false]
  rfl

end Sys2Proof.Machine

end


section
/-! Jobs completed one after another (R129, R130, R131). -/

namespace Sys2Proof.Machine

/-! ## One job -/

/-- R131: the SCAN event of a job of outcome `o`, where it is a step job of the run. -/
def Job.event (j : Job) (time : Nat) (o : ScanOutcome) : Option Event :=
  match j.cls with
  | .step n => if j.current then some ⟨time, .scan n o⟩ else none
  | .host _ => none

/-- R131: the SCAN record of a result. -/
def ScanResult.record (r : ScanResult) (time : Nat) : Rec :=
  { time, body := .scan r.cls r.outcome r.reason r.inserted r.capture r.captureLen }

/-- R131: the completion of a job, block by block. -/
theorem State.completeJob_eq (s : State) (j : Job) (r : ScanResult) : s.completeJob j r = { s with
    sc := s.sc.addResult r
    fu := s.fu.raise .scanDone
    ts := { s.ts with input := s.ts.input ++ if s.live then [s.arriving .sc (r.record s.rc.timeBase)] else [] }
    ste := { s.ste with events := s.ste.events ++ (j.event s.rc.timeBase r.outcome).toList } } := by
  have hand : (s.setSc (s.sc.addResult r)).hand .sc (r.record s.rc.timeBase) = { s with
      sc := s.sc.addResult r
      ts := { s.ts with input := s.ts.input ++ if s.live then [s.arriving .sc (r.record s.rc.timeBase)] else [] } } := by
    cases hl : s.live with
    | true => rw [State.hand_of_live _ _ (by exact hl)]; rfl
    | false => rw [State.hand_of_idle _ _ (by exact hl)]; simp [State.setSc]
  unfold State.completeJob
  dsimp only
  rw [show ({ time := s.rc.timeBase, body := .scan r.cls r.outcome r.reason r.inserted r.capture r.captureLen } : Rec) =
    r.record s.rc.timeBase from rfl, hand]
  unfold Job.event
  cases j.cls with
  | host tag => simp [State.raise]
  | step n => cases j.current <;> simp [State.raise, State.handEvent]

/-! ## Several jobs -/

/-- Jobs completed in the order of the list, each with its result. -/
def State.completeAll (s : State) (l : List (Job × ScanResult)) : State := l.foldl (fun s c => s.completeJob c.1 c.2) s

/-- R131: the results, the newest first and at most 16. -/
def addResults (l : List (Job × ScanResult)) (results : List ScanResult) : List ScanResult :=
  l.foldl (fun rs c => (c.2 :: rs).take 16) results

/-- R131: the completions of a list of jobs, block by block. -/
theorem State.completeAll_eq (s : State) (l : List (Job × ScanResult)) : s.completeAll l = { s with
    sc := { s.sc with results := addResults l s.sc.results }
    fu := l.foldl (fun u _ => u.raise .scanDone) s.fu
    ts := { s.ts with input := s.ts.input ++
      if s.live then l.map fun c => s.arriving .sc (c.2.record s.rc.timeBase) else [] }
    ste := { s.ste with events := s.ste.events ++ l.filterMap fun c => c.1.event s.rc.timeBase c.2.outcome } } := by
  induction l generalizing s with
  | nil => simp [State.completeAll, addResults]
  | cons c l ih =>
    have hl : (s.completeJob c.1 c.2).live = s.live := (s.completeJob_frame c.1 c.2).live
    show (s.completeJob c.1 c.2).completeAll l = _
    rw [ih, hl, State.completeJob_eq]
    cases s.live <;> cases hc : c.1.event s.rc.timeBase c.2.outcome <;>
      simp [addResults, Sc.addResult, Config.scanQueueMax, State.arriving, hc]

/-- Only the newest 16 of a list matter to the newest 16 of a longer one. -/
theorem take_append_take {α : Type} (n : Nat) (a b : List α) : (a ++ b.take n).take n = (a ++ b).take n := by
  rw [List.take_append, List.take_append, List.take_take]
  congr 2
  omega

theorem addResults_eq (l : List (Job × ScanResult)) {results : List ScanResult} (h : results.length ≤ 16) :
    addResults l results = ((l.map Prod.snd).reverse ++ results).take 16 := by
  induction l generalizing results with
  | nil => simp [addResults, List.take_of_length_le h]
  | cons c l ih =>
    show addResults l ((c.2 :: results).take 16) = _
    rw [ih (by simp), take_append_take]
    simp

/-- R131: a completion raises SCAN_DONE. -/
theorem raiseAll_sets (l : List (Job × ScanResult)) (u : Fu) (h : l ≠ []) :
    (l.foldl (fun u _ => u.raise .scanDone) u).flags.getLsbD 12 = true := by
  obtain ⟨c, m, rfl⟩ : ∃ c m, l = m ++ [c] := ⟨_, _, (List.dropLast_concat_getLast h).symm⟩
  rw [List.foldl_append]
  exact Fu.raise_sets _ .scanDone

/-- The completions raise no other flag and clear none. -/
theorem raiseAll_kept (l : List (Job × ScanResult)) (u : Fu) :
    u.Kept (l.foldl (fun u _ => u.raise .scanDone) u) := by
  induction l generalizing u with
  | nil => exact .refl u
  | cons c l ih => exact (show u.Kept (u.raise .scanDone) from Fu.raise_keeps u _).trans (ih _)

/-! ## A cancellation -/

/-- R129: the jobs of a list completed CANCELLED. -/
def cancellations (js : List Job) : List (Job × ScanResult) := js.map fun j => (j, j.bareResult .cancelled none)

/-- R129: a cancellation marks the active job where it is meant, and completes the waiting ones meant. -/
theorem State.cancelWhere_eq (s : State) (p : Job → Bool) : s.cancelWhere p =
    (s.setSc ({ s.sc with queue := s.sc.queue.filter fun j => !p j }.markActive p)).completeAll
      (cancellations (s.sc.queue.filter p)) := by
  unfold State.cancelWhere State.cancelJobs State.completeAll cancellations
  rw [List.foldl_map]

/-- R129: the mark of the active job. -/
theorem markActive_job (c : Sc) (p : Job → Bool) :
    (c.markActive p).job = c.job.map fun a : Active => { a with cancel := a.cancel || p a.job } := by
  unfold Sc.markActive
  cases c.job with
  | none => rfl
  | some a => cases h : p a.job <;> simp [h]

/-- R129: the mark of the active job changes nothing else of the SC. -/
theorem markActive_eq (c : Sc) (p : Job → Bool) : c.markActive p =
    { c with job := c.job.map fun a : Active => { a with cancel := a.cancel || p a.job } } := by
  rw [← markActive_job]; rfl

end Sys2Proof.Machine

end


section
/-! What the end of a run leaves (R15, R16), whatever its cause. -/

namespace Sys2Proof.Machine

/-! ## The records of the end work -/

/-- R15: behind the records that wait go records of the end work, awaited by no request. -/
def State.Ends (s t : State) (recs : List Rec) : Prop :=
  ∃ work : List Waiting, t.ts.input = s.ts.input ++ work ∧ (∀ w ∈ work, w.endWork = true ∧ w.awaited = false) ∧
    work.map Waiting.record = recs

theorem State.Ends.refl {s t : State} (h : t.ts = s.ts) : s.Ends t [] := ⟨[], by simp [h], by simp, rfl⟩

theorem State.Ends.trans {s t u : State} {a b : List Rec} (h : s.Ends t a) (k : t.Ends u b) : s.Ends u (a ++ b) := by
  obtain ⟨l, hl, hlw, rfl⟩ := h
  obtain ⟨m, hm, hmw, rfl⟩ := k
  exact ⟨l ++ m, by rw [hm, hl, List.append_assoc], fun w hw => (List.mem_append.1 hw).elim (hlw w) (hmw w), by simp⟩

/-- R15, R52: one record of the end work. -/
theorem State.handEnd_ends {s u : State} (h : u.ts = s.ts) (src : RecSource) (r : Rec) : s.Ends (u.handEnd src r) [r] :=
  ⟨[{ record := r, source := src, reached := u.clock, endWork := true, awaited := false }],
    by simp [State.handEnd, State.enqueue, h], by simp, rfl⟩

/-! ## The cancellation of the steps (R15, step 1) -/

/-- R15: a used step that is PENDING or OPEN. -/
def Ste.isUnresolved (t : Ste) (k : Fin 64) : Bool :=
  t.active[k].isSome && t.evals[k].any fun v => decide (v.state = .pending ∨ v.state = .opened)

theorem StepState.not_terminal_iff (st : StepState) : st.terminal = false ↔ st = .pending ∨ st = .opened := by
  cases st <;> simp [StepState.terminal]

theorem Ste.isUnresolved_iff (t : Ste) (k : Fin 64) : t.isUnresolved k = true ↔
    ∃ e v, t.active[k] = some e ∧ t.evals[k] = some v ∧ v.state.terminal = false := by
  unfold Ste.isUnresolved
  cases ha : t.active[k] <;> cases hv : t.evals[k] <;> simp [StepState.not_terminal_iff]

/-- R15: a step in a terminal state, or of no entry, stays. -/
theorem cancelStep_of_resolved {s : State} {k : Fin 64} (h : s.ste.isUnresolved k = false) : cancelStep s k = s := by
  unfold cancelStep
  split
  · rename_i e v ha hv
    split
    · rfl
    · rename_i ht
      exact absurd ((s.ste.isUnresolved_iff k).2 ⟨e, v, ha, hv, Bool.eq_false_iff.2 ht⟩) (by simp [h])
  · rfl

/-- R15: a cancelled step. -/
def StepEval.cancelledAt (v : StepEval) (time : Nat) : StepEval := { v with state := .cancelled, resolution := some time }

/-- R15, R48: the STEP record of the cancellation of step `k`, where it is unresolved. -/
def State.cancellation (s : State) (k : Fin 64) : Option Rec :=
  match s.ste.active[k], s.ste.evals[k] with
  | some e, some v => some (cancelledRecord s.rc.timeBase k e v)
  | _, _ => none

theorem cancelStep_of_unresolved {s : State} {k : Fin 64} {e : StepEntry} {v : StepEval} (ha : s.ste.active[k] = some e)
    (hv : s.ste.evals[k] = some v) (ht : v.state.terminal = false) : cancelStep s k =
      ((s.setEval k (v.cancelledAt s.rc.timeBase)).setSte { s.ste with
        evals := s.ste.evals.set k (some (v.cancelledAt s.rc.timeBase)) k.isLt, order := s.ste.order ++ [k] }).handEnd .run
          (cancelledRecord s.rc.timeBase k e v) := by
  unfold cancelStep
  simp only [ha, hv, ht, Bool.false_eq_true, if_false]
  rfl

/-- What the cancellation of the steps of a list leaves. -/
structure State.Cancels (s t : State) (l : List (Fin 64)) : Prop where
  eq : t = { s with
    ste := { s.ste with evals := t.ste.evals, order := t.ste.order }, ts := { s.ts with input := t.ts.input } }
  evals : ∀ k : Fin 64, t.ste.evals[k] =
    if k ∈ l ∧ s.ste.isUnresolved k = true then s.ste.evals[k].map fun v => v.cancelledAt s.rc.timeBase else s.ste.evals[k]
  order : t.ste.order = s.ste.order ++ l.filter s.ste.isUnresolved
  records : s.Ends t ((l.filter s.ste.isUnresolved).filterMap s.cancellation)

theorem State.cancelAll_cancels (s : State) {l : List (Fin 64)} (hl : l.Nodup) : s.Cancels (l.foldl cancelStep s) l := by
  induction l generalizing s with
  | nil => exact ⟨rfl, by simp, by simp, .refl rfl⟩
  | cons k l ih =>
    obtain ⟨hk, hl⟩ := List.nodup_cons.1 hl
    rw [List.foldl_cons]
    by_cases hu : s.ste.isUnresolved k = true
    · obtain ⟨e, v, ha, hv, ht⟩ := (s.ste.isUnresolved_iff k).1 hu
      have heq := cancelStep_of_unresolved ha hv ht
      have hget (j : Fin 64) : (cancelStep s k).ste.evals[j] =
          if k = j then some (v.cancelledAt s.rc.timeBase) else s.ste.evals[j] := by
        rw [heq]; exact s.setEval_get k j _
      have same (j : Fin 64) (hj : j ∈ l) : (cancelStep s k).ste.isUnresolved j = s.ste.isUnresolved j ∧
          (cancelStep s k).cancellation j = s.cancellation j := by
        have hne : k ≠ j := fun h => hk (h ▸ hj)
        have hev : (cancelStep s k).ste.evals[j] = s.ste.evals[j] := by rw [hget, if_neg hne]
        have hac : (cancelStep s k).ste.active = s.ste.active := by rw [heq]; rfl
        have htb : (cancelStep s k).rc = s.rc := by rw [heq]; rfl
        exact ⟨by unfold Ste.isUnresolved; rw [hev, hac], by unfold State.cancellation; rw [hev, hac, htb]⟩
      have hfilter : l.filter (cancelStep s k).ste.isUnresolved = l.filter s.ste.isUnresolved :=
        List.filter_congr fun j hj => (same j hj).1
      obtain ⟨ieq, ievals, iorder, irecords⟩ := ih (cancelStep s k) hl
      generalize l.foldl cancelStep (cancelStep s k) = t at ieq ievals iorder irecords ⊢
      refine ⟨?_, fun j => ?_, ?_, ?_⟩
      · rw [ieq, heq]; rfl
      · have htb : (cancelStep s k).rc = s.rc := by rw [heq]; rfl
        rw [ievals, hget, htb]
        by_cases hj : k = j
        · subst hj
          simp [hk, hu, hv]
        · by_cases hm : j ∈ l
          · simp [hj, Ne.symm hj, (same j hm).1]
          · simp [hj, Ne.symm hj, hm]
      · rw [iorder, hfilter, List.filter_cons_of_pos hu, heq]
        exact List.append_assoc _ _ _
      · have hr : s.Ends (cancelStep s k) [cancelledRecord s.rc.timeBase k e v] := by
          rw [heq]; exact State.handEnd_ends rfl _ _
        rw [hfilter, List.filterMap_congr fun j hj => (same j (List.mem_filter.1 hj).1).2] at irecords
        have hc : s.cancellation k = some (cancelledRecord s.rc.timeBase k e v) := by simp [State.cancellation, ha, hv]
        rw [List.filter_cons_of_pos hu, List.filterMap_cons_some hc]
        exact hr.trans irecords
    · rw [Bool.not_eq_true] at hu
      rw [cancelStep_of_resolved hu]
      obtain ⟨ieq, ievals, iorder, irecords⟩ := ih s hl
      refine ⟨ieq, fun j => ?_, ?_, ?_⟩
      · rw [ievals]
        by_cases hj : j = k
        · subst hj; simp [hu]
        · simp [hj]
      · rw [iorder, List.filter_cons_of_neg (by simp [hu])]
      · rwa [List.filter_cons_of_neg (by simp [hu])]

/-! ## The pending records of the sources (R15, step 2) -/

/-- R107: the records of an open fragment that closes. -/
def State.fragmentRecords (s : State) (p : Fin 2) (d : TextDir) : List Rec :=
  (s.cp[p].fragment d).toList.map fun f => { time := f.first, body := .text p d f.bytes f.error f.brk }

theorem Cp.setFragment_get (c : Cp) (d d' : TextDir) (f : Option Fragment) :
    (c.setFragment d f).fragment d' = if d = d' then f else c.fragment d' := by
  cases d <;> cases d' <;> rfl

/-- R15: the close of a fragment, and the fragments left open. -/
theorem State.closeFragment_ends (s : State) (p : Fin 2) (d : TextDir) :
    s.Ends (s.closeFragment true p d false) (s.fragmentRecords p d) ∧
      ∀ q d', (s.closeFragment true p d false).cp[q].fragment d' = if p = q ∧ d = d' then none else s.cp[q].fragment d' := by
  unfold State.closeFragment State.fragmentRecords
  cases hf : s.cp[p].fragment d with
  | none =>
    refine ⟨.refl rfl, fun q d' => ?_⟩
    dsimp only
    split
    · rename_i h
      obtain ⟨rfl, rfl⟩ := h
      exact hf
    · rfl
  | some f =>
    constructor
    · have : (f.brk || false) = f.brk := Bool.or_false _
      dsimp only
      rw [this]
      exact State.handEnd_ends rfl _ _
    · intro q d'
      show (s.setCp p (s.cp[p].setFragment d none)).cp[q].fragment d' = _
      rw [State.setCp_get]
      by_cases hp : p = q
      · subst hp
        rw [if_pos rfl, Cp.setFragment_get]
        by_cases hd : d = d' <;> simp [hd]
      · simp [hp]

theorem State.closeCode_ends (s : State) : s.Ends (s.closeCode true)
    (s.cdp.pending.toList.map fun p => { time := p.first, body := .code p.code p.count p.last }) := by
  unfold State.closeCode
  cases h : s.cdp.pending with
  | none => exact .refl rfl
  | some p => exact State.handEnd_ends rfl _ _

theorem State.closeCode_cp (s : State) (ending : Bool) : (s.closeCode ending).cp = s.cp := by
  unfold State.closeCode
  split
  · rfl
  · rw [State.handClose_eq]; rfl

/-- R15: the sources hand over the records that they hold open, the code port's first. -/
theorem State.closeSources_ends (s : State) : s.Ends s.closeSources s.closingRecords ∧
    ∀ (p : Fin 2) (d : TextDir), s.closeSources.cp[p].fragment d = none := by
  have hcode := s.closeCode_ends
  have hcp := s.closeCode_cp true
  unfold State.closeSources
  dsimp only
  generalize s.closeCode true = s0 at hcode hcp ⊢
  obtain ⟨h1, k1⟩ := s0.closeFragment_ends 0 .rx
  generalize s0.closeFragment true 0 .rx false = s1 at h1 k1 ⊢
  obtain ⟨h2, k2⟩ := s1.closeFragment_ends 0 .tx
  generalize s1.closeFragment true 0 .tx false = s2 at h2 k2 ⊢
  obtain ⟨h3, k3⟩ := s2.closeFragment_ends 1 .rx
  generalize s2.closeFragment true 1 .rx false = s3 at h3 k3 ⊢
  obtain ⟨h4, k4⟩ := s3.closeFragment_ends 1 .tx
  generalize s3.closeFragment true 1 .tx false = s4 at h4 k4 ⊢
  constructor
  · have f1 : s0.fragmentRecords 0 .rx = s.fragmentRecords 0 .rx := by rw [State.fragmentRecords, hcp]; rfl
    have f2 : s1.fragmentRecords 0 .tx = s.fragmentRecords 0 .tx := by
      rw [State.fragmentRecords, k1, if_neg (by decide), hcp]; rfl
    have f3 : s2.fragmentRecords 1 .rx = s.fragmentRecords 1 .rx := by
      rw [State.fragmentRecords, k2, if_neg (by decide), k1, if_neg (by decide), hcp]; rfl
    have f4 : s3.fragmentRecords 1 .tx = s.fragmentRecords 1 .tx := by
      rw [State.fragmentRecords, k3, if_neg (by decide), k2, if_neg (by decide), k1, if_neg (by decide), hcp]; rfl
    have := (((hcode.trans (f1 ▸ h1)).trans (f2 ▸ h2)).trans (f3 ▸ h3)).trans (f4 ▸ h4)
    simpa [State.closingRecords, State.fragmentRecords] using this
  · intro p d
    rw [k4, k3, k2, k1]
    match p, d with
    | 0, .rx => simp
    | 0, .tx => simp
    | 1, .rx => simp
    | 1, .tx => simp

/-- R15: the sources change nothing else. -/
theorem State.closeSources_eq (s : State) : s.closeSources = { s with
    ts := { s.ts with input := s.closeSources.ts.input }, cdp := { s.cdp with pending := none }
    cp := s.closeSources.cp } := by
  have code : ∀ u : State, u.closeCode true = { u with
      ts := { u.ts with input := (u.closeCode true).ts.input }, cdp := { u.cdp with pending := none } } := fun u => by
    unfold State.closeCode
    split
    · rename_i h; rw [← h]
    · rfl
  have fragment : ∀ (u : State) (p : Fin 2) (d : TextDir), u.closeFragment true p d false = { u with
      ts := { u.ts with input := (u.closeFragment true p d false).ts.input }
      cp := (u.closeFragment true p d false).cp } := fun u p d => by
    unfold State.closeFragment
    split
    · rfl
    · rfl
  unfold State.closeSources
  dsimp only
  have h0 := code s
  generalize s.closeCode true = s0 at h0 ⊢
  have h1 := fragment s0 0 .rx
  generalize s0.closeFragment true 0 .rx false = s1 at h1 ⊢
  have h2 := fragment s1 0 .tx
  generalize s1.closeFragment true 0 .tx false = s2 at h2 ⊢
  have h3 := fragment s2 1 .rx
  generalize s2.closeFragment true 1 .rx false = s3 at h3 ⊢
  rw [fragment s3 1 .tx, h3, h2, h1, h0]

/-! ## The first failing step and the verdict (R16) -/

theorem StepState.success_iff (st : StepState) : st.success = true ↔ st = .matched ∨ st = .held := by
  cases st <;> simp [StepState.success]

/-- R16: the model's failing step is that of the statements. -/
theorem Ste.failing_iff (t : Ste) (k j : Fin 64) (o : StepState) :
    t.failing k = some (j, o) ↔ j = k ∧ t.failedStep k o := by
  unfold Ste.failing Ste.failedStep
  split
  · rename_i e v ha hv
    have ok : v.state.success = false ↔ v.state ≠ .matched ∧ v.state ≠ .held := by
      rw [← Bool.not_eq_true, StepState.success_iff, not_or]
    constructor
    · intro h
      split at h
      · rename_i hc
        cases h
        simp only [Bool.and_eq_true, Bool.not_eq_true'] at hc
        exact ⟨rfl, e, v, ha, hv, hc.1, rfl, ok.1 hc.2⟩
      · cases h
    · rintro ⟨rfl, e', v', ha', hv', hr, rfl, ho⟩
      cases ha.symm.trans ha'
      cases hv.symm.trans hv'
      rw [if_pos (by simp [hr, ok.2 ho])]
  · rename_i h
    refine ⟨fun h => (by cases h), ?_⟩
    rintro ⟨-, e, v, ha, hv, -⟩
    exact absurd hv (h e v ha)

theorem Ste.failing_none_iff (t : Ste) (k : Fin 64) : t.failing k = none ↔ ∀ o, ¬t.failedStep k o := by
  cases h : t.failing k with
  | none => simpa using fun o ho => by simpa [h] using (t.failing_iff k k o).2 ⟨rfl, ho⟩
  | some f =>
    obtain ⟨j, o⟩ := f
    exact iff_of_false (by simp) fun hn => hn o ((t.failing_iff k j o).1 h).2

/-- R16: the verdict fixed at the end is the one that the statements give. -/
theorem Ste.verdict_is (t : Ste) (cause : EndCause) : t.verdictIs cause (t.verdict cause) := by
  have judged : ((∀ k o, ¬t.failedStep k o) →
      (if (List.finRange 64).all (fun k => (t.failing k).isNone) then Verdict.pass else .fail) = .pass) ∧
      ((∃ k o, t.failedStep k o) →
        (if (List.finRange 64).all (fun k => (t.failing k).isNone) then Verdict.pass else .fail) = .fail) := by
    have all_iff : ((List.finRange 64).all fun k => (t.failing k).isNone) = true ↔ ∀ k o, ¬t.failedStep k o := by
      simp [List.all_eq_true, Ste.failing_none_iff]
    refine ⟨fun h => if_pos (all_iff.2 h), fun ⟨k, o, h⟩ => if_neg fun ha => all_iff.1 ha k o h⟩
  cases cause with
  | armTimeout => rfl
  | abort => rfl
  | allResolved | limit | endAction | stopOnFail => exact judged

/-- R16: the first failing step is the earliest in the resolution order. -/
theorem Ste.firstFail_some {t : Ste} {v : Verdict} {k : Fin 64} {o : StepState} (h : t.firstFail v = some (k, o)) :
    v = .fail ∧ t.failedStep k o ∧ ∃ before after, t.order = before ++ k :: after ∧
      ∀ j ∈ before, ∀ o', ¬t.failedStep j o' := by
  unfold Ste.firstFail at h
  split at h
  · rename_i hv
    obtain ⟨before, j, after, ho, hj, hb⟩ := List.findSome?_eq_some_iff.1 h
    obtain ⟨rfl, hf⟩ := (t.failing_iff j k o).1 hj
    exact ⟨hv, hf, before, after, ho, fun j hj => (t.failing_none_iff j).1 (hb j hj)⟩
  · cases h

theorem Ste.firstFail_of_ne {t : Ste} {v : Verdict} (h : v ≠ .fail) : t.firstFail v = none := if_neg h

/-- R16: under FAIL the earliest step of the resolution order that failed is the first failing one. -/
theorem Ste.firstFail_eq {t : Ste} {before after : List (Fin 64)} {k : Fin 64} {o : StepState}
    (ho : t.order = before ++ k :: after) (hk : t.failedStep k o) (hb : ∀ j ∈ before, ∀ o', ¬t.failedStep j o') :
    t.firstFail .fail = some (k, o) := by
  unfold Ste.firstFail
  rw [if_pos rfl, List.findSome?_eq_some_iff]
  exact ⟨before, k, after, ho, (t.failing_iff k k o).2 ⟨rfl, hk⟩, fun j hj => (t.failing_none_iff j).2 (hb j hj)⟩

/-- R16: only the plan, the evaluation records and the resolution order matter. -/
theorem Ste.firstFail_congr {t u : Ste} (ha : t.active = u.active) (hv : t.evals = u.evals) (ho : t.order = u.order)
    (v : Verdict) : t.firstFail v = u.firstFail v := by
  have hf : t.failing = u.failing := by funext k; unfold Ste.failing; rw [ha, hv]
  unfold Ste.firstFail
  rw [hf, ho]

/-! ## The end of a run (R15) -/

/-- R15: the state after the end work but for the cancellation of the step jobs, block by block. -/
theorem State.closed_eq (s : State) (cause : EndCause) : ∃ c : State,
    State.Cancels (s.setRc { s.rc with runState := .ended }) c (List.finRange 64) ∧
    s.closed cause = { s with
      rc := { s.rc with
        runState := .ended, cause := some cause, verdict := some (c.ste.verdict cause)
        firstFail := c.ste.firstFail (c.ste.verdict cause) }
      fu := s.fu.raise .runEnd
      ste := { s.ste with evals := c.ste.evals, order := c.ste.order }
      ts := { s.ts with input := (s.closed cause).ts.input }
      cdp := { s.cdp with pending := none }
      cp := c.closeSources.cp } ∧
    s.Ends (s.closed cause) (State.cancelledRecords s ++ s.closingRecords ++ [{
      time := s.rc.timeBase
      body := .runEnded s.rc.active.source cause (c.ste.verdict cause) (c.ste.firstFail (c.ste.verdict cause)) }]) := by
  have hc : State.Cancels (s.setRc { s.rc with runState := .ended }) _ _ := State.cancelAll_cancels _ (List.nodup_finRange 64)
  refine ⟨(s.setRc { s.rc with runState := .ended }).cancelSteps, hc, ?_⟩
  change State.Cancels _ (s.setRc { s.rc with runState := .ended }).cancelSteps _ at hc
  unfold State.closed
  generalize (s.setRc { s.rc with runState := .ended }).cancelSteps = c at hc ⊢
  have heq := c.closeSources_eq
  have hends := c.closeSources_ends.1
  generalize c.closeSources = d at heq hends ⊢
  have hce := hc.eq
  have hste : d.ste = c.ste := by rw [heq]
  have hrc : d.rc = { s.rc with runState := .ended } := by rw [heq, hce]; rfl
  have hclosing : c.closingRecords = s.closingRecords := by
    have h1 : c.cdp = s.cdp := by rw [hce]; rfl
    have h2 : c.cp = s.cp := by rw [hce]; rfl
    rw [State.closingRecords, h1, h2]; rfl
  constructor
  · have hd : d = { s with
        rc := { s.rc with runState := .ended }, ste := { s.ste with evals := c.ste.evals, order := c.ste.order }
        ts := { s.ts with input := d.ts.input }, cdp := { s.cdp with pending := none }, cp := d.cp } := by
      rw [heq, hce]; rfl
    unfold State.closeRun
    rw [hste, hrc]
    dsimp only [State.setRc, State.handEnd, State.enqueue, State.raise]
    rw [hd]
  · have h1 : s.Ends c s.cancelledRecords := hc.records
    rw [hclosing] at hends
    refine (h1.trans hends).trans ?_
    unfold State.closeRun
    rw [hste, hrc]
    exact State.handEnd_ends (u := d.setRc _) rfl _ _

/-- R15, R16: the end of a run of any cause. -/
theorem State.endRun_runEnded (s : State) (cause : EndCause) : RunEnded s (s.endRun cause) cause := by
  obtain ⟨c, hc, hu, hends⟩ := s.closed_eq cause
  have hcp := c.closeSources_ends.2
  rw [State.endRun_eq]
  generalize s.closed cause = u at hu hends ⊢
  have hlive : (u.setSc ({ u.sc with queue := u.sc.queue.filter fun j => !j.isStep }.markActive Job.isStep)).live = false := by
    show u.live = false
    rw [hu]; rfl
  have hsc : u.sc = s.sc := by rw [hu]
  have hactive : c.ste.active = s.ste.active := by rw [hc.eq]; rfl
  rw [State.cancelWhere_eq, State.completeAll_eq, hlive, hsc]
  have hevals (k : Fin 64) := hc.evals k
  simp only [List.mem_finRange, true_and] at hevals
  refine {
    state := by rw [hu]; rfl
    time := by rw [hu]; rfl
    cause := by rw [hu]; rfl
    verdict := ⟨c.ste.verdict cause, by rw [hu]; rfl, ?_⟩
    firstFail := fun v hv => ?_
    cancelled := fun k e v he hv ht => ?_
    kept := fun k v hv ht => ?_
    order := ?_
    records := ⟨c.ste.verdict cause, by rw [hu]; rfl, ?_⟩
    closed := ⟨by rw [hu]; rfl, fun p d => ?_⟩
    flag := ?_
    jobs := ?_
    completed := ⟨fun hr => ?_, fun hne => ?_, ?_⟩
    board := by rw [hu]; exact ⟨rfl, rfl, rfl, rfl, rfl⟩ }
  · -- the verdict is that of the evaluation after the cancellations
    have h := c.ste.verdict_is cause
    unfold Ste.verdictIs Ste.failedStep at h ⊢
    rw [hu]
    rw [hactive] at h
    exact h
  · have hv' : v = c.ste.verdict cause := by rw [hu] at hv; exact (Option.some.inj hv).symm
    subst hv'
    show u.rc.firstFail = _
    have hste : u.ste = { s.ste with evals := c.ste.evals, order := c.ste.order } := by rw [hu]
    have hrc : u.rc.firstFail = c.ste.firstFail (c.ste.verdict cause) := by rw [hu]
    rw [hrc]
    have h1 : u.ste.active = c.ste.active := by rw [hste, hactive]
    have h2 : u.ste.evals = c.ste.evals := by rw [hste]
    have h3 : u.ste.order = c.ste.order := by rw [hste]
    exact (Ste.firstFail_congr h1 h2 h3 _).symm
  · show u.ste.evals[k] = _
    rw [hu]
    have hun : (s.setRc { s.rc with runState := .ended }).ste.isUnresolved k = true :=
      (Ste.isUnresolved_iff _ k).2 ⟨e, v, he, hv, ht⟩
    have := hevals k
    rw [if_pos hun] at this
    refine this.trans ?_
    show Option.map _ s.ste.evals[k] = _
    rw [hv]; rfl
  · show u.ste.evals[k] = _
    rw [hu]
    have hun : ¬(s.setRc { s.rc with runState := .ended }).ste.isUnresolved k = true := fun h => by
      obtain ⟨e', v', -, hv', ht'⟩ := (Ste.isUnresolved_iff _ k).1 h
      cases hv.symm.trans hv'
      simp [ht] at ht'
    have := hevals k
    rw [if_neg hun] at this
    exact this.trans hv
  · show u.ste.order = _
    rw [hu]
    exact hc.order
  · obtain ⟨work, hin, hw, hrecs⟩ := hends
    refine ⟨work, ?_, hw, ?_⟩
    · exact (List.append_nil _).trans hin
    · rw [hrecs, hu]; rfl
  · show u.cp[p].fragment d = none
    rw [hu]; exact hcp p d
  · refine raiseAll_kept _ _ 1 ?_
    show u.fu.flags.getLsbD 1 = true
    rw [hu]; exact Fu.raise_sets _ .runEnd
  · rw [markActive_eq]
    rfl
  · show addResults _ s.sc.results = _
    rw [addResults_eq _ hr]
    simp [cancellations, Job.bareResult, Function.comp_def]
  · exact raiseAll_sets _ _ (by simpa [cancellations] using hne)
  · show u.ste.events ++ _ = _
    rw [hu]
    congr 1
    simp only [cancellations, List.filterMap_map]
    refine List.filterMap_congr fun j _ => ?_
    simp only [Function.comp, Job.event, Job.bareResult]
    cases j.cls <;> rfl

end Sys2Proof.Machine

end


section
/-! The ends of a run and the refused run requests (R5, R9, R11 to R16). -/

namespace Sys2Proof.Machine

/-! ## Owners of refused requests -/

/-- A request refused by its owner is answered and changes nothing else. -/
theorem takeRequest_refused {c : Instr} {s : State} {k t : Byte} {owner : State → Answer} {st : Status}
    (h : s.mp.canTake c = true) (hb : c.bodyOk = true)
    (ho : owner { s with mp := s.mp.pop } = refuse { s with mp := s.mp.pop } st) :
    takeRequest c k t owner s = s.answered k t st [] := takeRequest_unchanged h hb ho

/-- An accepted request leaves its owner's state with a reply. -/
theorem takeRequest_accepted {c : Instr} {s u : State} {k t : Byte} {owner : State → Answer} {b : Bytes}
    (h : s.mp.canTake c = true) (hb : c.bodyOk = true) (ho : owner { s with mp := s.mp.pop } = okay u b) :
    ∃ m : Mp, takeRequest c k t owner s = { u with mp := m } ∧
      m.reply = some { kind := k, tag := t, status := .ok, body := b } := by
  obtain ⟨m, hm⟩ := State.beside_eq s ((okay u b).send k t)
  exact ⟨_, by rw [takeRequest_of_taken k t owner h hb, ho, hm]; rfl, rfl⟩

theorem State.live_of {s : State} (h : s.rc.runState = .armed ∨ s.rc.runState = .running) : s.live = true := by
  rcases h with h | h <;> simp [State.live, RunState.live, h]

theorem State.not_live_of {s : State} (h : s.rc.runState = .idle ∨ s.rc.runState = .ended) : s.live = false := by
  rcases h with h | h <;> simp [State.live, RunState.live, h]

/-- Settles O28: each owner's first branch. -/
theorem refusedRunRequests : Obligations.RefusedRunRequests := by
  refine fun s tag => ⟨fun ht hr => ?_, fun k r ht hr hv => ?_, fun ht hr => ?_, fun cause rest hr hq => ?_⟩
  · exact congrArg Host.Outcome.next (takeRequest_refused ht rfl (if_pos (State.live_of (s := { s with mp := _ }) hr)))
  · refine congrArg Host.Outcome.next (takeRequest_unchanged ht rfl ?_)
    have hl : State.live { s with mp := s.mp.pop } = false := State.not_live_of hr
    have hv' : State.validate { s with mp := s.mp.pop } = some (k, r) := hv
    simp only [armOwner, hl, hv', Bool.false_eq_true, if_false]
    cases k <;> rfl
  · exact congrArg Host.Outcome.next (takeRequest_refused ht rfl (if_neg (Bool.eq_false_iff.1 (State.not_live_of hr))))
  · simp only [exec, execEndRequest, hq, if_neg hr]; rfl

/-! ## The ends taken (R12, R13, R14) -/

/-- R15: the RC after an end. -/
theorem State.endRun_rc (s : State) (cause : EndCause) : ∃ v f, (s.endRun cause).rc =
    { s.rc with runState := .ended, cause := some cause, verdict := some v, firstFail := f } := by
  obtain ⟨c, -, hu, -⟩ := s.closed_eq cause
  refine ⟨c.ste.verdict cause, c.ste.firstFail (c.ste.verdict cause), ?_⟩
  rw [State.endRun_eq, State.cancelWhere_eq, State.completeAll_eq]
  exact congrArg State.rc hu

/-- The MP is no part of the end of a run. -/
theorem RunEnded.with_mp {s t : State} {cause : EndCause} (h : RunEnded s t cause) (m : Mp) :
    RunEnded s { t with mp := m } cause where
  state := h.state
  time := h.time
  cause := h.cause
  verdict := h.verdict
  firstFail := h.firstFail
  cancelled := h.cancelled
  kept := h.kept
  order := h.order
  records := h.records
  closed := h.closed
  flag := h.flag
  jobs := h.jobs
  completed := h.completed
  board := h.board

/-- R15: what an end that is taken begins with and leaves. -/
theorem State.takeEnd_ends (s : State) (cause : EndCause) : ∃ u, EndBegins (Config.choose s.choices) s u ∧
    RunEnded u (s.takeEnd cause) cause ∧ (s.takeEnd cause).rc.endRequests = u.rc.endRequests := by
  refine ⟨_, State.settleEnd_begins _ s, State.endRun_runEnded _ cause, ?_⟩
  obtain ⟨v, f, h⟩ := State.endRun_rc { s.settleEnd (Config.choose s.choices) with
    choices := (s.settleEnd (Config.choose s.choices)).choices + 1 } cause
  unfold State.takeEnd
  dsimp only
  rw [h]

theorem State.limitDue_of {s : State} {l : Nat} (hr : s.rc.runState = .running) (hl : s.rc.limitTime = some l)
    (hle : l ≤ s.rc.timeBase) : s.limitDue = true := by simp [State.limitDue, hr, hl, hle]

/-- Settles O27: each of the three ends is `State.takeEnd`. -/
theorem endsTakeEffect : Obligations.EndsTakeEffect := by
  refine ⟨fun s tag ht hr => ?_, fun s l hr hl hle => ?_, fun s cause rest hr hq => ?_⟩
  · obtain ⟨u, hu, he, -⟩ := State.takeEnd_ends { s with mp := s.mp.pop } .abort
    have ho : abortOwner { s with mp := s.mp.pop } = okay (State.takeEnd { s with mp := s.mp.pop } .abort) [] :=
      if_pos (State.live_of (s := { s with mp := _ }) hr)
    generalize State.takeEnd { s with mp := s.mp.pop } .abort = t at he ho
    obtain ⟨m, hm, hreply⟩ := takeRequest_accepted (k := 0x14) (t := tag) ht rfl ho
    exact ⟨u, { t with mp := m }, hu, congrArg Host.Outcome.next hm, he.with_mp m, hreply⟩
  · obtain ⟨u, hu, he, -⟩ := State.takeEnd_ends s .limit
    refine ⟨u, _, hu, ?_, he, (State.takeEnd_frame s .limit).2.2.1⟩
    simp only [exec, execLimitExpiry, State.limitDue_of hr hl hle, if_true]
  · obtain ⟨u, hu, he, hq'⟩ := State.takeEnd_ends (s.setRc { s.rc with endRequests := rest }) cause
    refine ⟨u, _, hu, ?_, he, hq'⟩
    simp only [exec, execEndRequest, hq, if_pos hr]

/-! ## The arm timeout (R11) -/

/-- R10: the work at start leaves the run RUNNING. -/
theorem State.startRun_running (s : State) (time : Nat) : (s.startRun time).rc.runState = .running := by
  obtain ⟨u, h1, h2⟩ := State.startRun_frames s time
  rw [h2.eq]
  show u.rc.runState = _
  rw [h1.eq]
  rfl

/-- R9, R32: a delivery after which the run is ARMED has not touched the run or a step. -/
theorem State.deliver_armed {s : State} {x : Event} (h : (s.deliver x).rc.runState = .armed) :
    (s.deliver x).rc = s.rc ∧ (s.deliver x).ste.evals = s.ste.evals := by
  have hap : (s.setSte (s.ste.append x)).ste.evals = s.ste.evals := by
    show (s.ste.append x).evals = _
    rw [(Ste.append_spec s.ste x).1]
  unfold State.deliver at h ⊢
  split at h
  · exact ⟨rfl, rfl⟩
  · exact ⟨rfl, rfl⟩
  · dsimp only at h ⊢
    split at h
    · rw [State.startRun_running] at h; cases h
    · rename_i hs
      rw [if_neg hs]
      exact ⟨rfl, hap⟩
  · rename_i hr
    have hrun : (s.deliverRunning x).rc.runState = .running := by
      have hf := offers_stepFrame x (s.setSte (s.ste.append x)) (s.setSte (s.ste.append x)).ste.openSteps
      unfold State.deliverRunning
      dsimp only
      generalize List.foldl _ _ _ = u at hf ⊢
      show u.rc.runState = _
      rw [hf.eq]
      exact hr
    rw [hrun] at h; cases h

/-- R9, R32: the same of the deliveries of the oldest events. -/
theorem State.deliverFirst_armed {n : Nat} {s : State} (h : (s.deliverFirst n).rc.runState = .armed) :
    (s.deliverFirst n).rc = s.rc ∧ (s.deliverFirst n).ste.evals = s.ste.evals := by
  induction n generalizing s with
  | zero => exact ⟨rfl, rfl⟩
  | succ n ih =>
    obtain ⟨h1, h2⟩ := ih h
    have one : (s.deliverNext).rc = s.rc ∧ s.deliverNext.ste.evals = s.ste.evals := by
      have ha : s.deliverNext.rc.runState = .armed := by rw [← h1]; exact h
      unfold State.deliverNext at ha ⊢
      split at ha
      · exact ⟨rfl, rfl⟩
      · exact State.deliver_armed ha
    exact ⟨h1.trans one.1, h2.trans one.2⟩

/-- Settles O29: the deliveries keep the time base and the active settings, and those that start no run every step too. -/
theorem armTimeoutEndsTheRun : Obligations.ArmTimeoutEndsTheRun := by
  refine ⟨fun s hr ht hs => ?_, fun s hr hlt => ?_, fun s hr => ?_⟩
  · have hframe : DeliverFrame s s.settle := State.settle_frame s
    have hdue : s.armTimeoutDue = true := s.armTimeoutDue_iff.2 ⟨hr, by omega⟩
    have hthen : s.settle.armTimeoutDue = true ↔ s.settle.rc.runState = .armed := by
      rw [State.armTimeoutDue_iff]
      show _ ∧ _ ↔ _
      rw [hframe.timeBase, hframe.active]
      exact and_iff_left (by omega)
    refine ⟨s.settle, _, s.settle_delivered, congrArg Host.Outcome.next (if_pos hdue), fun hne => ?_, fun ha => ?_⟩
    · rw [if_neg (mt hthen.1 hne)]
    · rw [if_pos (hthen.2 ha)]
      obtain ⟨hrc, hev⟩ : s.settle.rc = s.rc ∧ s.settle.ste.evals = s.ste.evals := State.deliverFirst_armed ha
      have hplan : s.settle.ste.active = s.ste.active := by rw [hframe.eq]
      have he := State.endRun_runEnded s.settle .armTimeout
      obtain ⟨v, f, hrc'⟩ := State.endRun_rc s.settle .armTimeout
      refine ⟨he, ?_, ?_, ?_, fun k e v hk hv hp => ?_⟩
      · obtain ⟨v, hv, hi⟩ := he.verdict
        rw [hv]; exact congrArg some hi
      · rw [he.time, hrc, ht]
      · rw [hrc', hrc]; exact hs
      · have := he.cancelled k e v (by rw [hplan, hk]) (by rw [hev, hv]) (by simp [hp, StepState.terminal])
        rw [this, hrc, ht]
  · have : ¬s.armTimeoutDue = true := fun h => by have := (s.armTimeoutDue_iff.1 h).2; omega
    exact congrArg Host.Outcome.next (if_neg this)
  · have : ¬s.armTimeoutDue = true := fun h => by rw [(s.armTimeoutDue_iff.1 h).1] at hr; cases hr
    exact congrArg Host.Outcome.next (if_neg this)

/-! ## The first failing step (R16) -/

/-- R16: what an end leaves as the first failing step. -/
theorem RunEnded.failing {s t : State} {cause : EndCause} (h : RunEnded s t cause) :
    (∀ v, t.rc.verdict = some v → v ≠ .fail → t.rc.firstFail = none) ∧
    (t.rc.verdict = some .fail → ∀ (before after : List (Fin 64)) (k : Fin 64) (o : StepState),
      t.ste.order = before ++ k :: after → t.ste.failedStep k o → (∀ j ∈ before, ∀ o', ¬t.ste.failedStep j o') →
      t.rc.firstFail = some (k, o)) := by
  refine ⟨fun v hv hne => ?_, fun hv before after k o ho hk hb => ?_⟩
  · rw [h.firstFail v hv]; exact Ste.firstFail_of_ne hne
  · rw [h.firstFail _ hv]; exact Ste.firstFail_eq ho hk hb

/-- Settles O30: the search of the resolution order, and `RunEnded.failing` of the ends. -/
theorem firstFailingStep : Obligations.FirstFailingStep := by
  refine ⟨fun t v k o => ⟨Ste.firstFail_some, Ste.firstFail_of_ne, fun hv hk hf hn => ?_⟩, fun s l hr hl hle => ?_,
    fun s t why h => h.failing⟩
  · unfold Ste.firstFail at hn
    rw [if_pos hv, List.findSome?_eq_none_iff] at hn
    exact (t.failing_none_iff k).1 (hn k hk) o hf
  · obtain ⟨u, hu, he, -⟩ := State.takeEnd_ends s .limit
    refine ⟨u, _, hu, ?_, he.order, fun hne => ?_, he.failing.2⟩
    · simp only [exec, execLimitExpiry, State.limitDue_of hr hl hle, if_true]
    · obtain ⟨v, hv, -⟩ := he.verdict
      exact he.failing.1 v hv fun h => hne (h ▸ hv)

end Sys2Proof.Machine

end


section
/-! The fields of a settings record on receipt (12.2, 12.6): which bytes they take and which they refuse. -/

namespace Sys2Proof.Machine

/-! ## Single fields -/

theorem indexOf_of_le {n : Nat} {b : Byte} (h : n ≤ b.toNat) : indexOf n b = none := dif_neg (by omega)

theorem indexOf_of_val {n : Nat} {b : Byte} {i : Fin n} (h : b.toNat = i.val) : indexOf n b = some i := by
  have : b.toNat < n := h ▸ i.isLt
  rw [indexOf, dif_pos this]
  exact congrArg some (Fin.ext h)

theorem indexOf_lt {n : Nat} {b : Byte} {i : Fin n} (h : indexOf n b = some i) : b.toNat < n := by
  by_contra hn
  rw [indexOf_of_le (by omega)] at h
  cases h

theorem byte_eq_iff {b c : Byte} : b = c ↔ b.toNat = c.toNat := BitVec.toNat_inj.symm

theorem ynOf_of_le {b : Byte} (h : b.toNat ≤ 1) : ynOf b = some (decide (b = 1)) := by
  have : b = 0 ∨ b = 1 := by
    simp only [byte_eq_iff]
    change b.toNat = 0 ∨ b.toNat = 1
    omega
  rcases this with rfl | rfl <;> rfl

theorem ynOf_of_lt {b : Byte} (h : 2 ≤ b.toNat) : ynOf b = none := by
  have h0 : b ≠ 0 := by rintro rfl; exact absurd h (by decide)
  have h1 : b ≠ 1 := by rintro rfl; exact absurd h (by decide)
  rw [ynOf, if_neg h0, if_neg h1]

theorem ynOf_le {b : Byte} {v : Bool} (h : ynOf b = some v) : b.toNat ≤ 1 := by
  rw [ynOf_eq_some h]; cases v <;> decide

@[simp] theorem ynOf_ite (v : Bool) : ynOf (if v then 1 else 0) = some v := ynOf_yn v

theorem copyDec_of_le {b : Byte} (h : 2 ≤ b.toNat) : copyDec b = none := by
  unfold copyDec
  split
  · omega
  · omega
  · rfl

/-! ## Enumerations -/

theorem Dir.dec_lt {b : Byte} {x : Dir} (h : Dir.dec b = some x) : b.toNat < 2 := by
  unfold Dir.dec at h; split at h <;> simp_all

theorem StoreMode.dec_lt {b : Byte} {x : StoreMode} (h : StoreMode.dec b = some x) : b.toNat < 4 := by
  unfold StoreMode.dec at h; split at h <;> simp_all

theorem RateMode.dec_lt {b : Byte} {x : RateMode} (h : RateMode.dec b = some x) : b.toNat < 2 := by
  unfold RateMode.dec at h; split at h <;> simp_all

theorem RateState.dec_lt {b : Byte} {x : RateState} (h : RateState.dec b = some x) : b.toNat < 5 := by
  unfold RateState.dec at h; split at h <;> simp_all

theorem Format.dec_lt {b : Byte} {x : Format} (h : Format.dec b = some x) : b.toNat < 3 := by
  unfold Format.dec at h; split at h <;> simp_all

theorem DriveOp.dec_lt {b : Byte} {x : DriveOp} (h : DriveOp.dec b = some x) : b.toNat < 5 := by
  unfold DriveOp.dec at h; split at h <;> simp_all

theorem StepKind.dec_lt {b : Byte} {x : StepKind} (h : StepKind.dec b = some x) : b.toNat < 3 := by
  unfold StepKind.dec at h; split at h <;> simp_all

theorem StartSource.dec_lt {k p d : Byte} {src : StartSource} (h : StartSource.dec k p d = some src) :
    k.toNat < 3 ∧ (k = 1 → p.toNat < 24 ∧ d.toNat < 2) ∧ (k = 2 → p.toNat < 4) := by
  unfold StartSource.dec at h
  split at h
  · rename_i hk
    exact ⟨by omega, fun he => by simp [he] at hk, fun he => by simp [he] at hk⟩
  · rename_i hk
    simp only [Option.bind_eq_bind, Option.bind_eq_some_iff] at h
    obtain ⟨c, hc, d', hd, -⟩ := h
    exact ⟨by omega, fun _ => ⟨indexOf_lt hc, Dir.dec_lt hd⟩, fun he => by simp [he] at hk⟩
  · rename_i hk
    obtain ⟨b, hb, -⟩ := Option.map_eq_some_iff.1 h
    exact ⟨by omega, fun he => by simp [he] at hk, fun _ => indexOf_lt hb⟩
  · cases h

/-! ## A PUT whose record its owner refuses -/

/-- R135: a record that does not decode is refused with RANGE. -/
theorem dec_none {α : Type} {x : Option α} (h : ∀ a, x ≠ some a) : x = none := Option.eq_none_iff_forall_ne_some.2 h

/-- R133: the owner takes a request whose body length its kind allows. -/
theorem Instr.bodyOk_of {c : Instr} {k t : Byte} {b : Bytes} (h : c.entry = some (.frame k t b))
    (hb : bodyAllowed k b = true) : c.bodyOk = true := by
  rw [Instr.bodyOk, h]; exact hb

/-! ## The run settings (R2, R3) -/

/-- Settles O32: what `RunSettings.dec` takes and refuses, and the two copies. -/
theorem runSettingsArePutAndRead : Obligations.RunSettingsArePutAndRead := by
  refine fun s tag => ⟨fun b src ft hb hsrc hft ht => ?_, fun b hb ht hbad => ?_, fun ht => ?_, fun ht => ?_,
    fun copy hc ht => ?_⟩
  · have hdec : RunSettings.dec b = some
        { source := src, fromTrigger := ft, armTimeout := max 1 (min 5000000 (field b 4 4))
          limit := max 1 (min 5000000 (field b 8 4)) } := by
      have hs : StartSource.dec (byteAt b 0) (byteAt b 1) (byteAt b 2) = some src := by
        cases src with
        | station => simp [StartSource.dec, show byteAt b 0 = 0 from hsrc]
        | edge c d =>
          obtain ⟨h0, h1, h2⟩ := hsrc
          have hd : Dir.dec (byteAt b 2) = some d := by rw [h2]; cases d <;> rfl
          simp [StartSource.dec, h0, indexOf_of_val h1, hd]
        | railUp k =>
          obtain ⟨h0, h1⟩ := hsrc
          simp [StartSource.dec, h0, indexOf_of_val h1]
      have hy : ynOf (byteAt b 3) = some ft := by rw [hft]; exact ynOf_ite ft
      simp [RunSettings.dec, hs, hy, clamp]
    refine congrArg Host.Outcome.next
      (takeRequest_quiet (u := s.setRc _) ht (Instr.bodyOk_of rfl (by simp [bodyAllowed, hb])) rfl rfl ?_)
    simp only [runsetPutOwner, hdec]
    rfl
  · have hdec : RunSettings.dec b = none := dec_none fun r hr => by
      simp only [RunSettings.dec, Option.bind_eq_bind, Option.bind_eq_some_iff] at hr
      obtain ⟨src, hs, -⟩ := hr
      obtain ⟨h1, h2, h3⟩ := StartSource.dec_lt hs
      rcases hbad with h | ⟨he, h⟩ | ⟨he, h⟩
      · omega
      · have := h2 he; omega
      · have := h3 he; omega
    refine congrArg Host.Outcome.next (takeRequest_refused ht (Instr.bodyOk_of rfl (by simp [bodyAllowed, hb])) ?_)
    simp only [runsetPutOwner, hdec]
  · exact congrArg Host.Outcome.next (takeRequest_unchanged ht rfl rfl)
  · exact congrArg Host.Outcome.next (takeRequest_unchanged ht rfl rfl)
  · refine congrArg Host.Outcome.next (takeRequest_refused ht rfl ?_)
    simp only [runsetGetOwner, copyDec_of_le hc]

/-! ## The store settings and the store's report (R56, R69) -/

/-- A field behind one that may hold "none". -/
theorem field_leOrNone_skip {m off : Nat} (v : Option Nat) (b : Bytes) (n : Nat) (h : m ≤ off) :
    field (leOrNone m v ++ b) off n = field b (off - m) n := by
  simp [field, List.drop_append, List.drop_eq_nil_of_le, h]

/-- A byte behind a field that may hold "none". -/
theorem byteAt_leOrNone_skip {m i : Nat} (v : Option Nat) (b : Bytes) (h : m ≤ i) :
    byteAt (leOrNone m v ++ b) i = byteAt b (i - m) := by
  simp [byteAt, List.getElem?_append_right, h]

/-- A field that holds "none" reads as ones. -/
theorem field_none (b : Bytes) : field (leOrNone 6 none ++ b) 0 6 = 2 ^ 48 - 1 := by
  rw [field, List.drop_zero, List.take_left' (leOrNone_length 6 none)]
  rfl

theorem field_some {n v : Nat} (b : Bytes) (h : v < 256 ^ n) : field (leOrNone n (some v) ++ b) 0 n = v :=
  field_le_append n v b h

theorem StoreSettings.dec_of_mode {b : Bytes} {m : StoreMode} (h : byteAt b 0 = m.code) : StoreSettings.dec b =
    some { mode := m, quota := max 16 (min 32000 (field b 2 2)), watermark := min 32768 (field b 4 2) } := by
  simp [StoreSettings.dec, h, clamp]

/-- Settles O38: the record as decoded, and the report read field by field. -/
theorem storeIsSetAndReported : Obligations.StoreIsSetAndReported := by
  refine fun s tag => ⟨fun b m hb hm ht => ?_, fun b hb hm ht => ?_, fun ht => ?_⟩
  · have hdec : StoreSettings.dec b = _ := StoreSettings.dec_of_mode (m := m) (by rw [hm]; cases m <;> rfl)
    refine congrArg Host.Outcome.next (takeRequest_quiet (u := s.setTs _) ht (Instr.bodyOk_of rfl (by simp [bodyAllowed, hb]))
      rfl rfl ?_)
    simp only [storeSetOwner, hdec, StoreSettings.enc]
    rw [hm]
    cases m <;> rfl
  · have hdec : StoreSettings.dec b = none := dec_none fun r hr => by
      simp only [StoreSettings.dec, Option.bind_eq_bind, Option.bind_eq_some_iff] at hr
      obtain ⟨m, hm', -⟩ := hr
      have := StoreMode.dec_lt hm'
      omega
    refine congrArg Host.Outcome.next (takeRequest_refused ht (Instr.bodyOk_of rfl (by simp [bodyAllowed, hb])) ?_)
    simp only [storeSetOwner, hdec]
  · refine ⟨s.ts.report, congrArg Host.Outcome.next (takeRequest_unchanged ht rfl rfl), by simp [Ts.report], ?_⟩
    simp only [Ts.report, List.cons_append, List.nil_append, List.append_assoc, field_cons_succ, byteAt_cons_zero,
      byteAt_cons_succ, field_le_skip, field_leOrNone_skip, byteAt_le_skip, byteAt_leOrNone_skip, Nat.reduceLeDiff,
      Nat.reduceSub]
    refine ⟨by cases s.ts.state <;> rfl, by cases s.ts.active.mode <;> rfl, fun h => field_le_append _ _ _ h,
      fun h => field_le_append _ _ _ h, fun h => field_le_append _ _ _ h, fun h => ?_, fun r hr h => ?_, fun r hr h => ?_,
      fun h => field_le_append _ _ _ h, ?_, fun h => ?_, fun n hn h => ?_, fun h => field_le_append _ _ _ h,
      fun h => field_le_append _ _ _ h, fun h => field_le _ _ h⟩
    · rw [h]; exact ⟨field_none _, field_none _⟩
    · rw [hr]; exact field_some _ h
    · rw [hr]; exact field_some _ h
    · rfl
    · rw [h]; exact field_none _
    · rw [hn]; exact field_some _ h

end Sys2Proof.Machine

end


section
/-! The plan requests (R24 to R26). -/

namespace Sys2Proof.Machine

/-! ## Reading the bytes of an entry -/

/-- A field is made of its bytes. -/
theorem field_congr {b c : Bytes} {off n : Nat} (hb : off + n ≤ b.length) (hc : off + n ≤ c.length)
    (h : ∀ i < n, byteAt b (off + i) = byteAt c (off + i)) : field b off n = field c off n := by
  unfold field
  congr 1
  refine List.ext_getElem (by simp; omega) fun i h1 _ => ?_
  have hi : i < n := by simp at h1; omega
  have := h i hi
  simpa [byteAt, List.getElem?_eq_getElem, show off + i < b.length by omega, show off + i < c.length by omega] using this

/-- The actions of a list of slots are those of its bytes. -/
theorem decActions_some {b : Bytes} {n : Nat} {l : List Action} (h : decActions b n = some l) :
    ∀ i < n, ∃ a, Action.dec (byteAt b (20 + 4 * i)) (byteAt b (21 + 4 * i)) (byteAt b (22 + 4 * i)) = some a := by
  induction n generalizing l with
  | zero => intro i hi; omega
  | succ n ih =>
    simp only [decActions, Option.bind_eq_bind, Option.bind_eq_some_iff] at h
    obtain ⟨as, has, a, ha, -⟩ := h
    intro i hi
    by_cases hn : i = n
    · exact ⟨a, hn ▸ ha⟩
    · exact ih has i (by omega)

/-- The actions are read from the bytes that the slots use. -/
theorem decActions_congr {b c : Bytes} {n : Nat}
    (h : ∀ i < n, Action.dec (byteAt b (20 + 4 * i)) (byteAt b (21 + 4 * i)) (byteAt b (22 + 4 * i)) =
      Action.dec (byteAt c (20 + 4 * i)) (byteAt c (21 + 4 * i)) (byteAt c (22 + 4 * i))) :
    decActions b n = decActions c n := by
  induction n with
  | zero => rfl
  | succ n ih => simp only [decActions, ih fun i hi => h i (by omega), h n (by omega)]

/-! ## The bytes that R24 takes -/

/-- R22, R24: the parameters that a condition's source allows. -/
def Cond.takes (src p q : Byte) : Prop :=
  match src.toNat with
  | 0 | 6 => p.toNat < 24 ∧ q.toNat < 2
  | 1 | 9 => p &&& ~~~q = 0
  | 2 => p.toNat < 8
  | 3 => p.toNat < 4 ∧ q ≠ 0 ∧ q.toNat < 5
  | 4 => p.toNat < 4 ∧ (q = 2 ∨ q = 3)
  | 5 => p.toNat < 8 ∧ q ≠ 2 ∧ q.toNat < 4
  | 7 => p.toNat < 4 ∧ q.toNat < 2
  | 8 => p.toNat < 4 ∧ q.toNat < 5
  | 10 => True
  | _ => False

theorem ScanOutcome.decCond_lt {b : Byte} {o : ScanOutcome} (h : ScanOutcome.decCond b = some o) : b ≠ 2 ∧ b.toNat < 4 := by
  refine ⟨fun he => ?_, ?_⟩
  · subst he; cases h
  · unfold ScanOutcome.decCond at h; split at h <;> simp_all

/-- R24: a condition that is taken has such parameters. -/
theorem Cond.dec_takes {src p q : Byte} {c : Cond} (h : Cond.dec src p q = some c) : Cond.takes src p q := by
  unfold Cond.dec at h
  unfold Cond.takes
  split at h <;> rename_i hk <;> simp only [hk]
  · obtain ⟨c, hc, d, hd, -⟩ := by simpa only [Option.bind_eq_bind, Option.bind_eq_some_iff] using h
    exact ⟨indexOf_lt hc, Dir.dec_lt hd⟩
  · split at h
    · rename_i hv; exact beq_iff_eq.1 hv
    · cases h
  · obtain ⟨m, hm, -⟩ := Option.map_eq_some_iff.1 h
    exact indexOf_lt hm
  · obtain ⟨m, hm, st, hst, hoff⟩ := by simpa only [Option.bind_eq_bind, Option.bind_eq_some_iff] using h
    refine ⟨indexOf_lt hm, ?_, RateState.dec_lt hst⟩
    rintro rfl
    cases hst
    cases hoff
  · obtain ⟨m, hm, h⟩ := by simpa only [Option.bind_eq_bind, Option.bind_eq_some_iff] using h
    refine ⟨indexOf_lt hm, ?_⟩
    split at h
    · rename_i hq; exact .inl (byte_eq_iff.2 hq)
    · rename_i hq; exact .inr (byte_eq_iff.2 hq)
    · cases h
  · obtain ⟨m, hm, o, ho, -⟩ := by simpa only [Option.bind_eq_bind, Option.bind_eq_some_iff] using h
    exact ⟨indexOf_lt hm, ScanOutcome.decCond_lt ho⟩
  · obtain ⟨c, hc, l, hl, -⟩ := by simpa only [Option.bind_eq_bind, Option.bind_eq_some_iff] using h
    exact ⟨indexOf_lt hc, Nat.lt_succ_of_le (ynOf_le hl)⟩
  · obtain ⟨c, hc, l, hl, -⟩ := by simpa only [Option.bind_eq_bind, Option.bind_eq_some_iff] using h
    exact ⟨indexOf_lt hc, Nat.lt_succ_of_le (ynOf_le hl)⟩
  · obtain ⟨m, hm, st, hst, -⟩ := by simpa only [Option.bind_eq_bind, Option.bind_eq_some_iff] using h
    exact ⟨indexOf_lt hm, RateState.dec_lt hst⟩
  · split at h
    · rename_i hv; exact beq_iff_eq.1 hv
    · cases h
  · cases h

theorem Anchor.dec_bounds {k n : Byte} {a : Anchor} (h : Anchor.dec k n = some a) :
    k.toNat ≤ 1 ∧ (k = 1 → n.toNat < 64) := by
  unfold Anchor.dec at h
  split at h
  · rename_i hk; exact ⟨by omega, fun he => by simp [he] at hk⟩
  · rename_i hk
    obtain ⟨j, hj, -⟩ := Option.map_eq_some_iff.1 h
    exact ⟨by omega, fun _ => indexOf_lt hj⟩
  · cases h

theorem Action.dec_bounds {k p q : Byte} {a : Action} (h : Action.dec k p q = some a) :
    k.toNat ≤ 4 ∧ (k = 0 → p.toNat < 8 ∧ q.toNat < 5) ∧ (k = 1 → p.toNat < 8) := by
  unfold Action.dec at h
  split at h <;> rename_i hk
  · obtain ⟨c, hc, op, hop, -⟩ := by simpa only [Option.bind_eq_bind, Option.bind_eq_some_iff] using h
    exact ⟨by omega, fun _ => ⟨indexOf_lt hc, DriveOp.dec_lt hop⟩, fun he => by simp [he] at hk⟩
  · obtain ⟨t, ht, -⟩ := Option.map_eq_some_iff.1 h
    exact ⟨by omega, fun he => by simp [he] at hk, fun _ => indexOf_lt ht⟩
  · exact ⟨by omega, fun he => by simp [he] at hk, fun he => by simp [he] at hk⟩
  · exact ⟨by omega, fun he => by simp [he] at hk, fun he => by simp [he] at hk⟩
  · exact ⟨by omega, fun he => by simp [he] at hk, fun he => by simp [he] at hk⟩
  · cases h

/-- R24: what the bytes of an entry that is taken hold. -/
theorem StepEntry.dec_parts {b : Bytes} {e : StepEntry} (h : StepEntry.dec b = some e) :
    (byteAt b 0).toNat < 3 ∧ (∃ a, Anchor.dec (byteAt b 2) (byteAt b 3) = some a) ∧
      Cond.takes (byteAt b 4) (byteAt b 5) (byteAt b 6) ∧ (byteAt b 8).toNat ≤ 1 ∧ (byteAt b 11).toNat ≤ 4 ∧
      (∃ l, decActions b (byteAt b 11).toNat = some l) ∧ field b 12 4 ≤ 4000000000 ∧ field b 16 4 ≤ 4000000000 := by
  simp only [StepEntry.dec, Option.bind_eq_bind, Option.bind_eq_some_iff] at h
  obtain ⟨k, hk, r, -, a, ha, c, hc, e, -, co, hco, h⟩ := h
  split at h
  · cases h
  · rename_i hn
    obtain ⟨l, hl, h⟩ := Option.bind_eq_some_iff.1 h
    split at h
    · cases h
    · rename_i hw
      unfold windowBound at hw
      exact ⟨StepKind.dec_lt hk, ⟨a, ha⟩, Cond.dec_takes hc, ynOf_le hco, by omega, ⟨l, hl⟩, by omega, by omega⟩

/-! ## The bytes that an entry uses (12.6) -/

/-- The bytes of a list agree with those of an entry wherever the entry uses them. -/
def StepEntry.spelledBy (e : StepEntry) (b : Bytes) : Prop :=
  b.length = 36 ∧ ∀ i < 36, e.unused i = false → byteAt b i = byteAt e.enc i

section
variable {e : StepEntry} {b : Bytes}

theorem StepEntry.spelledBy.anchor (h : e.spelledBy b) :
    Anchor.dec (byteAt b 2) (byteAt b 3) = Anchor.dec (byteAt e.enc 2) (byteAt e.enc 3) := by
  rw [h.2 2 (by decide) rfl]
  cases ha : e.anchor with
  | start =>
    have : byteAt e.enc 2 = 0 := by simp [StepEntry.enc, ha, Anchor.enc]
    rw [this]; rfl
  | step k => rw [h.2 3 (by decide) (by simp [StepEntry.unused, ha])]

theorem StepEntry.spelledBy.cond (h : e.spelledBy b) : Cond.dec (byteAt b 4) (byteAt b 5) (byteAt b 6) =
    Cond.dec (byteAt e.enc 4) (byteAt e.enc 5) (byteAt e.enc 6) := by
  obtain ⟨x, y, hx⟩ := e.anchor.enc_bytes
  have h4 : byteAt e.enc 4 = byteAt e.cond.enc 0 := by
    obtain ⟨p, q, r, hp⟩ := e.cond.enc_bytes
    simp [StepEntry.enc, hx, hp]
  rw [h.2 4 (by decide) rfl, h4]
  by_cases h5 : e.unused 5 = true
  · have : e.cond = .always := by simpa [StepEntry.unused] using h5
    rw [this]; rfl
  · rw [h.2 5 (by decide) (Bool.eq_false_iff.2 h5)]
    by_cases h6 : e.unused 6 = true
    · obtain ⟨m, hm⟩ : ∃ m, e.cond = .text m := by
        cases hc : e.cond <;> simp [StepEntry.unused, hc] at h5 h6 ⊢
      rw [hm]; rfl
    · rw [h.2 6 (by decide) (Bool.eq_false_iff.2 h6)]

/-- 12.6: byte `j` of an action slot is not used. -/
def slotUnused : Option Action → Nat → Bool
  | none, _ | some _, 3 | some (.scan _), 2 | some (.mark _), 2 | some .trigger, 1 | some .trigger, 2
  | some .endRun, 1 | some .endRun, 2 => true
  | _, _ => false

theorem StepEntry.unused_slot (e : StepEntry) {i j k : Nat} (hj : j < 4) (hk : k = 20 + 4 * i + j) :
    e.unused k = slotUnused e.actions[i]? j := by
  have hi : (k - 20) / 4 = i := by omega
  have hm : (k - 20) % 4 = j := by omega
  unfold StepEntry.unused
  split
  · omega
  · omega
  · omega
  · rw [hi, hm, decide_eq_true (show 20 ≤ k by omega), Bool.true_and]
    rfl

theorem StepEntry.spelledBy.action (h : e.spelledBy b) {i : Nat} (hl : e.actions.length ≤ 4) (hi : i < e.actions.length) :
    Action.dec (byteAt b (20 + 4 * i)) (byteAt b (21 + 4 * i)) (byteAt b (22 + 4 * i)) =
      Action.dec (byteAt e.enc (20 + 4 * i)) (byteAt e.enc (21 + 4 * i)) (byteAt e.enc (22 + 4 * i)) := by
  have at_ : e.actions[i]? = some e.actions[i] := List.getElem?_eq_getElem hi
  have read (j k : Nat) (hj : j < 4) (hk : k = 20 + 4 * i + j) (hu : slotUnused (some e.actions[i]) j = false) :
      byteAt b k = byteAt e.enc k := h.2 k (by omega) (by rw [e.unused_slot hj hk, at_, hu])
  have kind : byteAt e.enc (20 + 4 * i) = byteAt e.actions[i].enc 0 := by
    obtain ⟨x, y, hx⟩ := e.anchor.enc_bytes
    obtain ⟨p, q, r, hp⟩ := e.cond.enc_bytes
    obtain ⟨tail, hs⟩ := drop_slots (f := Action.enc) (fun a _ => a.enc_length)
      (pre := [e.kind.code, yn e.required] ++ e.anchor.enc ++ e.cond.enc ++ [yn e.earlyFails, yn (!e.stopOnFail), e.label,
        byte e.count, byte e.actions.length] ++ le 4 e.windowMin ++ le 4 e.windowMax)
      (rest := List.replicate (16 - (e.actions.flatMap Action.enc).length) 0) hi
    have := congrArg (fun l => byteAt l 0) hs
    simp only [byteAt_drop] at this
    have hpre : ([e.kind.code, yn e.required] ++ e.anchor.enc ++ e.cond.enc ++ [yn e.earlyFails, yn (!e.stopOnFail), e.label,
        byte e.count, byte e.actions.length] ++ le 4 e.windowMin ++ le 4 e.windowMax).length = 20 := by
      simp [hx, hp]
    rw [hpre] at this
    have hap : byteAt (e.actions[i].enc ++ tail) 0 = byteAt e.actions[i].enc 0 := by cases e.actions[i] <;> rfl
    rw [← hap, ← this]
    simp [StepEntry.enc, padTo, mul_comm]
  rw [read 0 (20 + 4 * i) (by omega) rfl (by cases e.actions[i] <;> rfl), kind]
  cases ha : e.actions[i] with
  | drive c op => rw [read 1 _ (by omega) (by omega) (by rw [ha]; rfl), read 2 _ (by omega) (by omega) (by rw [ha]; rfl)]
  | scan t => rw [read 1 _ (by omega) (by omega) (by rw [ha]; rfl)]; rfl
  | mark c => rw [read 1 _ (by omega) (by omega) (by rw [ha]; rfl)]; rfl
  | trigger => rfl
  | endRun => rfl

/-- The unused bytes play no part. -/
theorem StepEntry.spelledBy.dec (h : e.spelledBy b) (hl : e.actions.length ≤ 4) : StepEntry.dec b = StepEntry.dec e.enc := by
  have plain (i : Nat) (hi : i < 20) (hu : e.unused i = false) : byteAt b i = byteAt e.enc i := h.2 i (by omega) hu
  have hlen := StepEntry.enc_length hl
  have windows : field b 12 4 = field e.enc 12 4 ∧ field b 16 4 = field e.enc 16 4 := by
    constructor
    · refine field_congr (by rw [h.1]; omega) (by rw [hlen]; omega) fun i hi => plain _ (by omega) ?_
      interval_cases i <;> rfl
    · refine field_congr (by rw [h.1]; omega) (by rw [hlen]; omega) fun i hi => plain _ (by omega) ?_
      interval_cases i <;> rfl
  have number : (byteAt e.enc 11).toNat = e.actions.length := by
    obtain ⟨x, y, hx⟩ := e.anchor.enc_bytes
    obtain ⟨p, q, r, hp⟩ := e.cond.enc_bytes
    simp only [StepEntry.enc, hx, hp, List.cons_append, List.nil_append, byteAt_cons_zero, byteAt_cons_succ]
    exact byte_toNat _ (by omega)
  have actions : decActions b (byteAt e.enc 11).toNat = decActions e.enc (byteAt e.enc 11).toNat :=
    decActions_congr fun i hi => h.action hl (by omega)
  unfold StepEntry.dec
  rw [windows.1, windows.2, h.anchor, h.cond, plain 0 (by decide) rfl, plain 1 (by decide) rfl, plain 7 (by decide) rfl,
    plain 8 (by decide) rfl, plain 9 (by decide) rfl, plain 10 (by decide) rfl, plain 11 (by decide) rfl, actions]

end

/-! ## PLAN_PUT, PLAN_GET and PLAN_WIPE -/

theorem bodyOk_planPut {tag n used : Byte} {b : Bytes} (h : b.length = 36 ∨ b.length = 0 ∧ used = 0) :
    (Instr.planPut tag n used b).bodyOk = true := by
  refine Instr.bodyOk_of rfl ?_
  rcases h with h | ⟨h, rfl⟩ <;> simp [bodyAllowed, h]

theorem indexOf_byte64 (k : Fin 64) : indexOf 64 (byte k.val) = some k := indexOf_byte 64 k (by decide)

/-- R24: the values outside those of R22, R23 and R24. -/
theorem StepEntry.dec_refused {b : Bytes}
    (h : 2 < (byteAt b 0).toNat ∨ 1 < (byteAt b 2).toNat ∨ (byteAt b 2 = 1 ∧ 64 ≤ (byteAt b 3).toNat) ∨
      10 < (byteAt b 4).toNat ∨ 1 < (byteAt b 8).toNat ∨ 4 < (byteAt b 11).toNat ∨
      4000000000 < field b 12 4 ∨ 4000000000 < field b 16 4 ∨
      ((byteAt b 4 = 0 ∨ byteAt b 4 = 6) ∧ (24 ≤ (byteAt b 5).toNat ∨ 2 ≤ (byteAt b 6).toNat)) ∨
      ((byteAt b 4 = 1 ∨ byteAt b 4 = 9) ∧ byteAt b 5 &&& ~~~byteAt b 6 ≠ 0) ∨
      (byteAt b 4 = 2 ∧ 8 ≤ (byteAt b 5).toNat) ∨
      (byteAt b 4 = 3 ∧ (4 ≤ (byteAt b 5).toNat ∨ byteAt b 6 = 0 ∨ 5 ≤ (byteAt b 6).toNat)) ∨
      (byteAt b 4 = 4 ∧ (4 ≤ (byteAt b 5).toNat ∨ (byteAt b 6 ≠ 2 ∧ byteAt b 6 ≠ 3))) ∨
      (byteAt b 4 = 5 ∧ (8 ≤ (byteAt b 5).toNat ∨ byteAt b 6 = 2 ∨ 4 ≤ (byteAt b 6).toNat)) ∨
      (byteAt b 4 = 7 ∧ (4 ≤ (byteAt b 5).toNat ∨ 2 ≤ (byteAt b 6).toNat)) ∨
      (byteAt b 4 = 8 ∧ (4 ≤ (byteAt b 5).toNat ∨ 5 ≤ (byteAt b 6).toNat)) ∨
      ∃ i : Fin 4, i.val < (byteAt b 11).toNat ∧ let o := 20 + 4 * i.val
        (4 < (byteAt b o).toNat ∨ (byteAt b o = 0 ∧ (8 ≤ (byteAt b (o + 1)).toNat ∨ 5 ≤ (byteAt b (o + 2)).toNat)) ∨
          (byteAt b o = 1 ∧ 8 ≤ (byteAt b (o + 1)).toNat))) : StepEntry.dec b = none := dec_none fun e he => by
  obtain ⟨kind, ⟨a, ha⟩, cond, cont, few, ⟨l, hl⟩, wmin, wmax⟩ := StepEntry.dec_parts he
  obtain ⟨anchor, anchor'⟩ := Anchor.dec_bounds ha
  have takes {src p q : Byte} (h : Cond.takes src p q) : src.toNat ≤ 10 := by
    unfold Cond.takes at h
    split at h
    on_goal -1 => exact h.elim
    all_goals omega
  rcases h with h | h | ⟨h1, h⟩ | h | h | h | h | h | ⟨h1 | h1, h⟩ | ⟨h1 | h1, h⟩ | ⟨h1, h⟩ | ⟨h1, h⟩ | ⟨h1, h⟩ | ⟨h1, h⟩ |
    ⟨h1, h⟩ | ⟨h1, h⟩ | ⟨i, hi, h⟩
  · omega
  · omega
  · have := anchor' h1; omega
  · have := takes cond; omega
  · omega
  · omega
  · omega
  · omega
  · rw [h1] at cond; have := cond; change _ ∧ _ at this; omega
  · rw [h1] at cond; have := cond; change _ ∧ _ at this; omega
  · rw [h1] at cond; exact h cond
  · rw [h1] at cond; exact h cond
  · rw [h1] at cond; change _ < _ at cond; omega
  · rw [h1] at cond
    obtain ⟨c1, c2, c3⟩ := cond
    rcases h with h | h | h
    · omega
    · exact c2 h
    · omega
  · rw [h1] at cond
    obtain ⟨c1, c2⟩ := cond
    rcases h with h | ⟨h2, h3⟩
    · omega
    · exact c2.elim h2 h3
  · rw [h1] at cond
    obtain ⟨c1, c2, c3⟩ := cond
    rcases h with h | h | h
    · omega
    · exact c2 h
    · omega
  · rw [h1] at cond; have := cond; change _ ∧ _ at this; omega
  · rw [h1] at cond; have := cond; change _ ∧ _ at this; omega
  · obtain ⟨a, ha⟩ := decActions_some hl i.val hi
    obtain ⟨a1, a2, a3⟩ := Action.dec_bounds ha
    have e1 : 20 + 4 * i.val + 1 = 21 + 4 * i.val := by omega
    have e2 : 20 + 4 * i.val + 2 = 22 + 4 * i.val := by omega
    dsimp only at h
    rw [e1, e2] at h
    rcases h with h | ⟨h1, h⟩ | ⟨h1, h⟩
    · omega
    · have := a2 h1; omega
    · have := a3 h1; omega

/-- Settles O33: what `StepEntry.dec` takes and refuses, and the two copies. -/
theorem planIsPutReadAndWiped : Obligations.PlanIsPutReadAndWiped := by
  refine fun s tag => ⟨fun k e hmin hmax hc ha hv hr hs b hb hu ht => ?_, fun k b hb ht => ?_, fun n used b hb ht hbad => ?_,
    fun k => ⟨fun ht => ?_, fun ht => ?_⟩, fun n copy hbad ht => ?_, fun ht => ?_⟩
  · have hdec : StepEntry.dec b = some e :=
      (StepEntry.spelledBy.dec ⟨hb, hu⟩ ha).trans (StepEntry.dec_enc hmin hmax hc ha ⟨hv, hr, hs⟩)
    refine congrArg Host.Outcome.next (takeRequest_quiet (u := s.setSte _) ht (bodyOk_planPut (.inl hb)) rfl rfl ?_)
    simp only [planPutOwner, indexOf_byte64, planEntryOf, show ynOf 1 = some true from rfl, hdec, Option.map_some]
    rfl
  · have hok : (Instr.planPut tag (byte k.val) 0 b).bodyOk = true := bodyOk_planPut (hb.symm.imp_right fun h => ⟨h, rfl⟩)
    refine congrArg Host.Outcome.next (takeRequest_quiet (u := s.setSte _) ht hok rfl rfl ?_)
    simp only [planPutOwner, indexOf_byte64, planEntryOf, show ynOf 0 = some false from rfl]
    rfl
  · refine congrArg Host.Outcome.next (takeRequest_refused ht (bodyOk_planPut hb) ?_)
    rcases hbad with h | ⟨rfl, h⟩
    · simp only [planPutOwner, indexOf_of_le h]
    · simp only [planPutOwner, planEntryOf, show ynOf 1 = some true from rfl, StepEntry.dec_refused h, Option.map_none]
      cases indexOf 64 n <;> rfl
  · refine congrArg Host.Outcome.next (takeRequest_unchanged ht rfl ?_)
    simp only [planGetOwner, indexOf_byte64, show copyDec 0 = some false from rfl]
    cases s.ste.staged[k] <;> simp [encPlanEntry, okay]
  · refine congrArg Host.Outcome.next (takeRequest_unchanged ht rfl ?_)
    simp only [planGetOwner, indexOf_byte64, show copyDec 1 = some true from rfl]
    cases s.ste.active[k] <;> simp [encPlanEntry, okay]
  · refine congrArg Host.Outcome.next (takeRequest_refused ht rfl ?_)
    rcases hbad with h | h
    · simp only [planGetOwner, indexOf_of_le h]
    · simp only [planGetOwner, copyDec_of_le h]
      cases indexOf 64 n <;> rfl
  · exact congrArg Host.Outcome.next (takeRequest_quiet (u := s.setSte _) ht rfl rfl rfl rfl)

end Sys2Proof.Machine

end


section
/-! The channel and monitor requests (R82, R87, R89, R95). -/

namespace Sys2Proof.Machine

/-! ## The settings (12.6) -/

/-- The bits of a trace byte. -/
theorem traceBits {b : Byte} (h : b.toNat ≤ 3) :
    b.getLsbD 0 = decide (b.toNat % 2 = 1) ∧ b.getLsbD 1 = decide (2 ≤ b.toNat) := by
  have : b = BitVec.ofNat 8 b.toNat := by simp
  generalize b.toNat = n at h this
  interval_cases n <;> subst this <;> decide

theorem ChanSettings.dec_of {r : Bytes} (h0 : (byteAt r 0).toNat ≤ 1) (h1 : (byteAt r 1).toNat ≤ 3) :
    ChanSettings.dec r = some {
      enabled := decide (byteAt r 0 = 1), debounce := min 65535 (field r 3 4)
      traceRising := decide ((byteAt r 1).toNat % 2 = 1), traceFalling := decide (2 ≤ (byteAt r 1).toNat) } := by
  obtain ⟨t0, t1⟩ := traceBits h1
  simp only [ChanSettings.dec, ynOf_of_le h0, Option.bind_eq_bind, Option.bind_some,
    if_neg (show ¬3 < (byteAt r 1).toNat by omega),
    t0, t1, clamp, Nat.zero_max]

theorem ChanSettings.dec_refused {r : Bytes} (h : 4 ≤ (byteAt r 1).toNat) : ChanSettings.dec r = none := by
  cases hy : ynOf (byteAt r 0) with
  | none => simp [ChanSettings.dec, hy]
  | some v => simp [ChanSettings.dec, hy, show 3 < (byteAt r 1).toNat by omega]

theorem RateSettings.dec_of {r : Bytes} {mode : RateMode} {c : Fin 24} (h0 : (byteAt r 0).toNat ≤ 1)
    (h1 : byteAt r 1 = if mode = .tach then 0 else 1) (h2 : byteAt r 2 = byte c.val) (h3 : 1 ≤ (byteAt r 3).toNat)
    (h3' : (byteAt r 3).toNat ≤ 4) (h4 : field r 4 2 ≤ field r 6 2) (h5 : field r 10 2 ≠ 0) :
    RateSettings.dec r = some {
      enabled := decide (byteAt r 0 = 1), mode, channel := c, ppr := (byteAt r 3).toNat
      lowRpm := field r 4 2, highRpm := field r 6 2, stall := max 100 (min 5000 (field r 8 2))
      expected := min 50000 (field r 10 2), tolerance := min 50000 (field r 12 2) } := by
  have hm : RateMode.dec (byteAt r 1) = some mode := by rw [h1]; cases mode <;> rfl
  have hc : indexOf 24 (byteAt r 2) = some c := by rw [h2]; exact indexOf_byte 24 c (by decide)
  have he : max 1 (min 50000 (field r 10 2)) = min 50000 (field r 10 2) := by omega
  have hn : ¬((byteAt r 3).toNat = 0 ∨ 4 < (byteAt r 3).toNat ∨ field r 6 2 < field r 4 2 ∨ field r 10 2 = 0) := by omega
  simp only [RateSettings.dec, ynOf_of_le h0, hm, hc, Option.bind_eq_bind, Option.bind_some, if_neg hn, clamp, Nat.zero_max, he]

theorem RateSettings.dec_refused {r : Bytes} (h : 2 ≤ (byteAt r 1).toNat ∨ 24 ≤ (byteAt r 2).toNat ∨ byteAt r 3 = 0 ∨
    5 ≤ (byteAt r 3).toNat ∨ field r 6 2 < field r 4 2 ∨ field r 10 2 = 0) : RateSettings.dec r = none :=
      dec_none fun x hx => by
  simp only [RateSettings.dec, Option.bind_eq_bind, Option.bind_eq_some_iff] at hx
  obtain ⟨e, -, m, hm, c, hc, hx⟩ := hx
  split at hx
  · cases hx
  · rename_i hn
    have hm := RateMode.dec_lt hm
    have hc := indexOf_lt hc
    have h3 : byteAt r 3 = 0 → (byteAt r 3).toNat = 0 := fun h => by rw [h]; rfl
    rcases h with h | h | h | h | h | h
    · omega
    · omega
    · exact hn (.inl (h3 h))
    · omega
    · omega
    · omega

theorem indexOf_byte24 (c : Fin 24) : indexOf 24 (byte c.val) = some c := indexOf_byte 24 c (by decide)
theorem indexOf_byte4 (m : Fin 4) : indexOf 4 (byte m.val) = some m := indexOf_byte 4 m (by decide)

theorem bodyOk_chanSet {tag n : Byte} {r : Bytes} (h : r.length = 7) : (Instr.chanSet tag n r).bodyOk = true :=
  Instr.bodyOk_of rfl (by simp [bodyAllowed, h])

theorem bodyOk_rateSet {tag n : Byte} {r : Bytes} (h : r.length = 14) : (Instr.rateSet tag n r).bodyOk = true :=
  Instr.bodyOk_of rfl (by simp [bodyAllowed, h])

/-! ## The report of the channels (R87) -/

theorem Mc.report_eq (m : Mc) : m.report = [yn m.settings.enabled,
    (if m.settings.traceRising then 1 else 0) + (if m.settings.traceFalling then 2 else 0)] ++ le 2 m.settings.debounce ++
      [yn m.level, yn m.pending.isSome] := rfl

@[simp] theorem Mc.report_length (m : Mc) : m.report.length = 6 := by simp [Mc.report_eq]

/-- Settles O47: the decoded settings, and the reports slot by slot. -/
theorem channelsAndMonitorsAreSetAndQueried : Obligations.ChannelsAndMonitorsAreSetAndQueried := by
  refine fun s tag => ⟨fun c => ?_, fun c r hr ht h0 h1 => ⟨fun hs => ?_, fun hs => ?_⟩, fun n r hr ht hbad => ?_, fun ht => ?_,
    fun m r mode c hr ht h0 h1 h2 h3 h3' h4 h5 => ?_, fun n r hr ht hbad => ?_, fun m ht => ?_,
    fun n hn ht => ?_⟩
  · rfl
  · refine congrArg Host.Outcome.next (takeRequest_quiet (u := s.setMc c _) ht (bodyOk_chanSet hr) rfl rfl ?_)
    have hl : State.live { s with mp := s.mp.pop } = false := State.not_live_of hs
    simp only [chanSetOwner, indexOf_byte24, ChanSettings.dec_of h0 h1, hl, Bool.false_eq_true, if_false]
    rfl
  · refine congrArg Host.Outcome.next (takeRequest_refused ht (bodyOk_chanSet hr) ?_)
    have hl : State.live { s with mp := s.mp.pop } = true := State.live_of hs
    simp only [chanSetOwner, indexOf_byte24, ChanSettings.dec_of h0 h1, hl, if_true]
  · refine congrArg Host.Outcome.next (takeRequest_refused ht (bodyOk_chanSet hr) ?_)
    rcases hbad with h | h
    · simp only [chanSetOwner, indexOf_of_le h]
    · simp only [chanSetOwner, ChanSettings.dec_refused h]
      cases indexOf 24 n <;> rfl
  · refine ⟨s.mc.toList.flatMap Mc.report, congrArg Host.Outcome.next (takeRequest_unchanged ht rfl rfl), ?_, fun c => ?_⟩
    · rw [flatMap_length _ fun m _ => m.report_length, Vector.length_toList]
    · obtain ⟨tail, hs⟩ := drop_slots (f := Mc.report) (fun m _ => m.report_length) (pre := []) (rest := [])
        (show c.val < s.mc.toList.length by simp)
      have hget : s.mc.toList[c.val]'(by simp) = s.mc[c] := by simp
      simp only [List.nil_append, List.append_nil, List.length_nil, Nat.zero_add, hget] at hs
      have byte_ (i : Nat) : byteAt (s.mc.toList.flatMap Mc.report) (6 * c.val + i) = byteAt (s.mc[c].report ++ tail) i := by
        rw [← hs, byteAt_drop]
      have field_ (i n : Nat) : field (s.mc.toList.flatMap Mc.report) (6 * c.val + i) n =
          field (s.mc[c].report ++ tail) i n := by
        rw [← hs, field_drop, Nat.add_comm]
      have h0 := byte_ 0
      simp only [Nat.add_zero] at h0
      simp only [h0, byte_, field_, Mc.report_eq, List.cons_append, List.nil_append, List.append_assoc, byteAt_cons_zero,
        byteAt_cons_succ, field_cons_succ, byteAt_le_skip, Nat.reduceLeDiff, Nat.reduceSub]
      refine ⟨rfl, ?_, fun h => field_le_append _ _ _ (by omega), rfl, rfl⟩
      cases s.mc[c].settings.traceRising <;> cases s.mc[c].settings.traceFalling <;> rfl
  · intro set
    have hdec : RateSettings.dec r = some set := RateSettings.dec_of h0 h1 h2 h3 h3' h4 h5
    have hchannel : set.channel = c := rfl
    clear_value set
    refine ⟨fun hs => ?_, fun hs => ?_⟩
    · have hl : State.live { s with mp := s.mp.pop } = false := State.not_live_of hs
      refine ⟨set.install s.clock (s.rawIfPresent c), congrArg Host.Outcome.next
        (takeRequest_quiet (u := s.setRm m _) ht (bodyOk_rateSet hr) rfl rfl ?_), rfl, fun he => if_pos he, fun he hp => ?_,
        fun h => ?_⟩
      · simp only [rateSetOwner, indexOf_byte4, hdec, hl, Bool.false_eq_true, if_false, hchannel]
        rfl
      · exact (if_pos he).trans (if_pos hp)
      · by_cases he : set.enabled = true
        · have hp := h.resolve_left (by simp [he])
          exact (if_pos he).trans (if_neg (Bool.eq_false_iff.1 hp))
        · exact if_neg he
    · have hl : State.live { s with mp := s.mp.pop } = true := State.live_of hs
      refine congrArg Host.Outcome.next (takeRequest_refused ht (bodyOk_rateSet hr) ?_)
      simp only [rateSetOwner, indexOf_byte4, hdec, hl, if_true]
  · refine congrArg Host.Outcome.next (takeRequest_refused ht (bodyOk_rateSet hr) ?_)
    rcases hbad with h | h
    · simp only [rateSetOwner, indexOf_of_le h]
    · simp only [rateSetOwner, RateSettings.dec_refused h]
      cases indexOf 4 n <;> rfl
  · refine congrArg Host.Outcome.next (takeRequest_unchanged ht rfl ?_)
    simp only [rateQueryOwner, indexOf_byte4, Rm.report]
    cases s.rm[m].candidate <;> simp [okay]
  · refine congrArg Host.Outcome.next (takeRequest_refused ht rfl ?_)
    simp only [rateQueryOwner, indexOf_of_le hn]

end Sys2Proof.Machine

end


section
/-! The text matchers' requests, and the search for a literal pattern (R112, R114). -/

namespace Sys2Proof.Machine

/-! ## Equal letters (R112) -/

/-- What two equal bytes share: the lower case letter where case plays no part. -/
def letterOf (ci : Bool) (b : Byte) : Byte := if ci then foldCase b else b

theorem bytesEqual_iff (ci : Bool) (a b : Byte) : bytesEqual ci a b = true ↔ letterOf ci a = letterOf ci b := by
  cases ci <;> simp [bytesEqual, letterOf]

theorem runsEqual_iff (ci : Bool) (a b : Bytes) :
    runsEqual ci a b = true ↔ a.map (letterOf ci) = b.map (letterOf ci) := by
  induction a generalizing b with
  | nil => cases b <;> simp [runsEqual]
  | cons x xs ih => cases b <;> simp [runsEqual, ih, bytesEqual_iff]

theorem byte_add_toNat {a : Byte} (h : a.toNat ≤ 0x5A) : (a + 0x20).toNat = a.toNat + 0x20 := by
  rw [BitVec.toNat_add, show (0x20 : Byte).toNat = 0x20 from rfl]; omega

/-- R112: the statements' equality of letters. -/
theorem sameLetter_iff (ci : Bool) (a b : Byte) : sameLetter ci a b ↔ letterOf ci a = letterOf ci b := by
  cases ci with
  | false => simp [sameLetter, letterOf]
  | true =>
    simp only [sameLetter, letterOf, foldCase, if_true, true_and]
    by_cases ha : 0x41 ≤ a.toNat ∧ a.toNat ≤ 0x5A <;> by_cases hb : 0x41 ≤ b.toNat ∧ b.toNat ≤ 0x5A
    · simp only [if_pos ha, if_pos hb, byte_eq_iff, byte_add_toNat ha.2, byte_add_toNat hb.2]; omega
    · simp only [if_pos ha, if_neg hb, byte_eq_iff, byte_add_toNat ha.2]; omega
    · simp only [if_neg ha, if_pos hb, byte_eq_iff, byte_add_toNat hb.2]; omega
    · simp only [if_neg ha, if_neg hb, byte_eq_iff]; omega

/-! ## The search (R112) -/

section
variable {ci : Bool} {pattern : Bytes}

/-- R112: the bytes taken end with the first `n` bytes of the pattern, letter by letter. -/
def endsWith (ci : Bool) (pattern taken : Bytes) (n : Nat) : Prop :=
  n ≤ pattern.length ∧ (pattern.take n).map (letterOf ci) <:+ taken.map (letterOf ci)

theorem endsWithPrefix_iff (taken : Bytes) (n : Nat) : endsWithPrefix ci pattern taken n ↔ endsWith ci pattern taken n := by
  unfold endsWithPrefix endsWith
  refine and_congr_right fun hn => ?_
  have hlen : ((pattern.take n).map (letterOf ci)).length = n := by simp [hn]
  constructor
  · rintro ⟨ht, h⟩
    rw [List.suffix_iff_eq_drop, hlen, List.length_map]
    refine List.ext_getElem (by simp; omega) fun i hi _ => ?_
    have hi : i < n := hlen ▸ hi
    have := (sameLetter_iff ci _ _).1 (h i hi)
    simpa [byteAt, List.getElem?_eq_getElem, show i < pattern.length by omega,
      show taken.length - n + i < taken.length by omega] using this
  · intro h
    have ht : n ≤ taken.length := by have := h.length_le; rw [hlen, List.length_map] at this; exact this
    refine ⟨ht, fun i hi => (sameLetter_iff ci _ _).2 ?_⟩
    rw [List.suffix_iff_eq_drop, hlen, List.length_map] at h
    have := congrArg (fun l => l[i]?) h
    simpa [byteAt, List.getElem?_eq_getElem, hi, show i < pattern.length by omega,
      show taken.length - n + i < taken.length by omega] using this

/-- R112: the search for the longest prefix of at most `n` bytes. -/
theorem longestPrefix_longest {x : Bytes} {n : Nat} (hn : n ≤ pattern.length) (hx : n ≤ x.length) :
    longestPrefix ci pattern x n ≤ n ∧ endsWith ci pattern x (longestPrefix ci pattern x n) ∧
      ∀ k ≤ n, endsWith ci pattern x k → k ≤ longestPrefix ci pattern x n := by
  induction n with
  | zero => exact ⟨le_rfl, ⟨Nat.zero_le _, by simp [longestPrefix]⟩, fun k hk _ => hk⟩
  | succ n ih =>
    have ends : runsEqual ci (pattern.take (n + 1)) (x.drop (x.length - (n + 1))) = true ↔ endsWith ci pattern x (n + 1) := by
      rw [runsEqual_iff, endsWith, and_iff_right hn, List.suffix_iff_eq_drop]
      simp [hn, List.map_drop]
    unfold longestPrefix
    split
    · rename_i h
      exact ⟨le_rfl, ends.1 h, fun k hk _ => hk⟩
    · rename_i h
      obtain ⟨h1, h2, h3⟩ := ih (by omega) (by omega)
      refine ⟨by omega, h2, fun k hk he => ?_⟩
      by_cases hkn : k = n + 1
      · exact absurd (ends.2 (hkn ▸ he)) h
      · exact h3 k (by omega) he

/-- R112: the longest prefix that the bytes taken end with. -/
def longest (ci : Bool) (pattern taken : Bytes) (p : Nat) : Prop :=
  endsWith ci pattern taken p ∧ ∀ n, endsWith ci pattern taken n → n ≤ p

/-- R112: a prefix that the bytes taken end with after one more byte ended one byte shorter before it. -/
theorem endsWith_before {taken : Bytes} {b : Byte} {n : Nat} (h : endsWith ci pattern (taken ++ [b]) (n + 1)) :
    endsWith ci pattern taken n := by
  obtain ⟨hn, h⟩ := h
  refine ⟨by omega, ?_⟩
  rw [List.take_add_one, List.getElem?_eq_getElem (show n < pattern.length by omega)] at h
  simp only [Option.toList_some, List.map_append, List.map_cons, List.map_nil] at h
  obtain h | ⟨t, ht, hs⟩ := List.suffix_concat_iff.1 h
  · simp at h
  · exact (List.append_inj' ht rfl).1 ▸ hs

/-- R112: of a longest prefix, the prefixes after one more byte are those of the bytes matched and that byte. -/
theorem endsWith_append {taken : Bytes} {p : Nat} (h : longest ci pattern taken p) (b : Byte) (n : Nat) :
    endsWith ci pattern (taken ++ [b]) n ↔ n ≤ p + 1 ∧ endsWith ci pattern (pattern.take p ++ [b]) n := by
  obtain ⟨⟨hp, hs⟩, hmax⟩ := h
  have hall : (pattern.take p ++ [b]).map (letterOf ci) <:+ (taken ++ [b]).map (letterOf ci) := by
    obtain ⟨l, hl⟩ := hs
    exact ⟨l, by simp [← hl]⟩
  have hlen : ((pattern.take p ++ [b]).map (letterOf ci)).length = p + 1 := by simp [hp]
  constructor
  · intro hn
    have hle : n ≤ p + 1 := by
      cases n with
      | zero => omega
      | succ n => have := hmax n (endsWith_before hn); omega
    refine ⟨hle, hn.1, List.suffix_of_suffix_length_le hn.2 hall ?_⟩
    rw [hlen, List.length_map, List.length_take]
    omega
  · rintro ⟨-, hn⟩
    exact ⟨hn.1, hn.2.trans hall⟩

/-- R112: the progress after a good byte. -/
theorem Tm.advance_longest {t : Tm} {taken : Bytes} (hl : t.progress < t.settings.pattern.length)
    (h : longest t.settings.caseInsensitive t.settings.pattern taken t.progress) (b : Byte) :
    longest t.settings.caseInsensitive t.settings.pattern (taken ++ [b]) (t.advance b) := by
  obtain ⟨h1, h2, h3⟩ := longestPrefix_longest (ci := t.settings.caseInsensitive) (pattern := t.settings.pattern)
    (x := t.settings.pattern.take t.progress ++ [b]) (n := t.progress + 1) (by omega) (by simp; omega)
  have step := endsWith_append h b
  exact ⟨(step _).2 ⟨h1, h2⟩, fun n hn => h3 n ((step n).1 hn).1 ((step n).1 hn).2⟩

/-- R112: a matcher that takes bytes one after another, no hit among them. -/
def Tm.takes (t : Tm) (bytes : Bytes) : Tm := bytes.foldl (fun t b => { t with progress := t.advance b }) t

theorem Tm.takes_settings (t : Tm) (bytes : Bytes) : (t.takes bytes).settings = t.settings := by
  induction bytes generalizing t with
  | nil => rfl
  | cons b bs ih => exact ih _

theorem Tm.takes_longest (r : MatchSettings) (taken : Bytes) (hp : r.pattern ≠ [])
    (h : ∀ k < taken.length, (Tm.takes { settings := r, progress := 0 } (taken.take k)).progress < r.pattern.length) :
    longest r.caseInsensitive r.pattern taken (Tm.takes { settings := r, progress := 0 } taken).progress := by
  induction taken using List.reverseRecOn with
  | nil =>
    refine ⟨⟨Nat.zero_le _, by simp [Tm.takes]⟩, fun n hn => ?_⟩
    have hlen := hn.2.length_le
    have hle := hn.1
    have hne : r.pattern.length ≠ 0 := by simpa using hp
    rw [List.length_map, List.length_take, List.map_nil, List.length_nil] at hlen
    change n ≤ 0
    omega
  | append_singleton taken b ih =>
    have before : ∀ k ≤ taken.length, (taken ++ [b]).take k = taken.take k := fun k hk => List.take_append_of_le_length hk
    have ih := ih fun k hk => by
      rw [← before k hk.le]; exact h k (by simp; omega)
    have hl := h taken.length (by simp)
    rw [before _ le_rfl, List.take_length] at hl
    have hs := Tm.takes_settings { settings := r, progress := 0 } taken
    have hstep : Tm.takes { settings := r, progress := 0 } (taken ++ [b]) =
        { Tm.takes { settings := r, progress := 0 } taken with
          progress := (Tm.takes { settings := r, progress := 0 } taken).advance b } := List.foldl_append ..
    rw [hstep]
    generalize Tm.takes { settings := r, progress := 0 } taken = t at hl hs ih
    have := Tm.advance_longest (t := t) (taken := taken) (by rw [hs]; exact hl) (by rw [hs]; exact ih) b
    rwa [hs] at this

end

/-! ## The requests (R114) -/

theorem MatchSettings.dec_of {r : Bytes} {p : Fin 2} (h0 : (byteAt r 0).toNat ≤ 1) (h1 : byteAt r 1 = byte p.val)
    (h2 : (byteAt r 2).toNat ≤ 1) (h3 : 1 ≤ (byteAt r 3).toNat) (h3' : (byteAt r 3).toNat ≤ 32) :
    MatchSettings.dec r = some {
      enabled := decide (byteAt r 0 = 1), port := p, caseInsensitive := decide (byteAt r 2 = 1)
      pattern := (r.drop 4).take (byteAt r 3).toNat } := by
  have hp : indexOf 2 (byteAt r 1) = some p := by rw [h1]; exact indexOf_byte 2 p (by decide)
  have hn : ¬((byteAt r 3).toNat = 0 ∨ 32 < (byteAt r 3).toNat) := by omega
  simp only [MatchSettings.dec, ynOf_of_le h0, hp, ynOf_of_le h2, Option.bind_eq_bind, Option.bind_some, if_neg hn]

theorem MatchSettings.dec_refused {r : Bytes} (h : 2 ≤ (byteAt r 1).toNat ∨ byteAt r 3 = 0 ∨ 33 ≤ (byteAt r 3).toNat) :
    MatchSettings.dec r = none := dec_none fun x hx => by
  simp only [MatchSettings.dec, Option.bind_eq_bind, Option.bind_eq_some_iff] at hx
  obtain ⟨e, -, p, hp, c, -, hx⟩ := hx
  split at hx
  · cases hx
  · rename_i hn
    have hp := indexOf_lt hp
    rcases h with h | h | h
    · omega
    · exact hn (.inl (by rw [h]; rfl))
    · omega

theorem indexOf_byte8 (m : Fin 8) : indexOf 8 (byte m.val) = some m := indexOf_byte 8 m (by decide)

theorem bodyOk_matchSet {tag n : Byte} {r : Bytes} (h : r.length = 36) : (Instr.matchSet tag n r).bodyOk = true :=
  Instr.bodyOk_of rfl (by simp [bodyAllowed, h])

/-- Settles O53: the decoded settings, and `Tm.takes_longest`. -/
theorem matchersAreSetAndSearch : Obligations.MatchersAreSetAndSearch := by
  refine ⟨fun s tag => ⟨fun m r p hr ht h0 h1 h2 h3 h3' => ⟨fun hs => ?_, fun hs => ?_⟩, fun n r hr ht hbad => ?_,
    fun m ht => ?_,
    fun n hn ht => ?_⟩, fun r taken hp hh => ?_⟩
  · refine congrArg Host.Outcome.next (takeRequest_quiet (u := s.setTm m _) ht (bodyOk_matchSet hr) rfl rfl ?_)
    have hl : State.live { s with mp := s.mp.pop } = false := State.not_live_of hs
    simp only [matchSetOwner, indexOf_byte8, MatchSettings.dec_of h0 h1 h2 h3 h3', hl, Bool.false_eq_true, if_false]
    rfl
  · refine congrArg Host.Outcome.next (takeRequest_refused ht (bodyOk_matchSet hr) ?_)
    have hl : State.live { s with mp := s.mp.pop } = true := State.live_of hs
    simp only [matchSetOwner, indexOf_byte8, MatchSettings.dec_of h0 h1 h2 h3 h3', hl, if_true]
  · refine congrArg Host.Outcome.next (takeRequest_refused ht (bodyOk_matchSet hr) ?_)
    rcases hbad with h | h
    · simp only [matchSetOwner, indexOf_of_le h]
    · simp only [matchSetOwner, MatchSettings.dec_refused h]
      cases indexOf 8 n <;> rfl
  · refine congrArg Host.Outcome.next (takeRequest_unchanged ht rfl ?_)
    simp only [matchQueryOwner, indexOf_byte8]
    rfl
  · refine congrArg Host.Outcome.next (takeRequest_refused ht rfl ?_)
    simp only [matchQueryOwner, indexOf_of_le hn]
  · obtain ⟨h1, h2⟩ := Tm.takes_longest r taken hp hh
    exact ⟨(endsWithPrefix_iff _ _).2 h1, fun n hn => h2 n ((endsWithPrefix_iff _ _).1 hn)⟩

end Sys2Proof.Machine

end


section
/-! The console ports' requests (R104, R108, R109, R111). -/

namespace Sys2Proof.Machine

/-! ## The matchers restarted (R113) -/

/-- R113: the matchers of a list, restarted where they are bound to the port. -/
theorem foldl_restart (p : Fin 2) {l : List (Fin 8)} (hl : l.Nodup) (s : State) :
    l.foldl (fun s m => if s.tm[m].settings.port = p then s.setTm m s.tm[m].restart else s) s = { s with
      tm := Vector.ofFn fun m => if m ∈ l ∧ s.tm[m].settings.port = p then s.tm[m].restart else s.tm[m] } := by
  induction l generalizing s with
  | nil =>
    have : (Vector.ofFn fun m : Fin 8 => s.tm[m]) = s.tm := by ext; simp
    simp
  | cons k l ih =>
    obtain ⟨hk, hl⟩ := List.nodup_cons.1 hl
    rw [List.foldl_cons, ih hl]
    by_cases hp : s.tm[k].settings.port = p
    · rw [if_pos hp]
      have : (Vector.ofFn fun m => if m ∈ l ∧ (s.setTm k s.tm[k].restart).tm[m].settings.port = p then
            (s.setTm k s.tm[k].restart).tm[m].restart else (s.setTm k s.tm[k].restart).tm[m]) =
          Vector.ofFn fun m => if m ∈ k :: l ∧ s.tm[m].settings.port = p then s.tm[m].restart else s.tm[m] := by
        congr 1; funext m
        rw [State.setTm_get]
        by_cases hm : k = m
        · subst hm
          rw [if_pos rfl, if_neg fun h => hk h.1, if_pos ⟨List.mem_cons_self, hp⟩]
        · simp [hm, Ne.symm hm]
      rw [this]; rfl
    · rw [if_neg hp]
      congr 2; funext m
      by_cases hm : m = k
      · subst hm
        rw [if_neg fun h => hp h.2, if_neg fun h => hp h.2]
      · simp [hm]

/-- R113. -/
theorem State.restartMatchers_eq (s : State) (p : Fin 2) : s.restartMatchers p = { s with
    tm := Vector.ofFn fun m => if s.tm[m].settings.port = p then s.tm[m].restart else s.tm[m] } := by
  have := foldl_restart p (List.nodup_finRange 8) s
  simp only [List.mem_finRange, true_and] at this
  exact this

/-! ## The settings (12.6) -/

theorem indexOf_byte2 (p : Fin 2) : indexOf 2 (byte p.val) = some p := indexOf_byte 2 p (by decide)

theorem ConsSettings.dec_of {r : Bytes} {baud : Baud} {fmt : Format} (h0 : (byteAt r 0).toNat ≤ 1)
    (h1 : byteAt r 1 = byte baud.val) (h2 : byteAt r 2 = fmt.code) (h4 : (byteAt r 4).toNat ≤ 1) :
    ConsSettings.dec r = some {
      enabled := decide (byteAt r 0 = 1), baud, format := fmt, idleGap := max 1 (byteAt r 3).toNat
      echo := decide (byteAt r 4 = 1) } := by
  have hb : indexOf 8 (byteAt r 1) = some baud := by rw [h1]; exact indexOf_byte8 baud
  have hg : clamp 1 255 (byteAt r 3).toNat = max 1 (byteAt r 3).toNat := by
    have := (byteAt r 3).isLt
    unfold clamp; omega
  simp only [ConsSettings.dec, ynOf_of_le h0, hb, h2, Format.dec_code, ynOf_of_le h4, Option.bind_eq_bind, Option.bind_some, hg]

theorem ConsSettings.dec_refused {r : Bytes} (h : 8 ≤ (byteAt r 1).toNat ∨ 3 ≤ (byteAt r 2).toNat) :
    ConsSettings.dec r = none := dec_none fun x hx => by
  simp only [ConsSettings.dec, Option.bind_eq_bind, Option.bind_eq_some_iff] at hx
  obtain ⟨e, -, b, hb, f, hf, hx⟩ := hx
  have hb := indexOf_lt hb
  have hf := Format.dec_lt hf
  omega

/-! ## CONS_SET and CONS_SEND -/

theorem Cp.unsent_eq (c : Cp) : c.unsent = c.queue.length + if c.inFlight = none then 0 else 1 := by
  unfold Cp.unsent
  cases c.inFlight <;> rfl

/-- R104: an accepted CONS_SET, block by block. -/
theorem State.consSet_eq (s : State) (p : Fin 2) (r : ConsSettings) : s.consSet p r =
    { (s.raiseIf (decide (0 < s.cp[p].unsent)) .txDrop).setCp p ({ s.cp[p].dropTransmit with settings := r }.beginWait
        (s.readRx p) s.clock) with
      tm := Vector.ofFn fun m => if s.tm[m].settings.port = p then s.tm[m].restart else s.tm[m] } := by
  have hraise : ∀ (u : State) (b : Bool), (u.raiseIf b .txDrop) = { u with fu := if b then u.fu.raise .txDrop else u.fu } :=
    fun u b => by cases b <;> rfl
  unfold State.consSet State.dropTransmit
  dsimp only
  rw [State.restartMatchers_eq, hraise, hraise]
  have hget : (s.setCp p s.cp[p].dropTransmit).cp[p] = s.cp[p].dropTransmit := s.setCp_get_self p _
  show State.setCp _ p ({ (s.setCp p s.cp[p].dropTransmit).cp[p] with settings := r }.beginWait _ _) = _
  rw [hget]
  simp only [State.setCp, Vector.set_set]
  rfl

/-- R109: the transmitter after bytes joined its queue. -/
theorem Cp.transmit_append {c : Cp} {b xs : Bytes} {x : Byte} (h : c.queue ++ b = x :: xs) (clock : Nat) :
    ({ c with queue := c.queue ++ b }.transmit clock : Cp) = if c.inFlight = none then
        { c with queue := xs, inFlight := some { byte := x, started := clock, complete := false } }
      else { c with queue := c.queue ++ b } := by
  unfold Cp.transmit
  cases hf : c.inFlight with
  | none => simp [h]
  | some f => simp

theorem bodyOk_consSet {tag n : Byte} {r : Bytes} (h : r.length = 5) : (Instr.consSet tag n r).bodyOk = true :=
  Instr.bodyOk_of rfl (by simp [bodyAllowed, h])

theorem bodyOk_consSend {tag n : Byte} {b : Bytes} (h : b.length ≤ 255) : (Instr.consSend tag n b).bodyOk = true := by
  have hb : (byte b.length).toNat = b.length := byte_toNat _ (by omega)
  exact Instr.bodyOk_of rfl (by simp [bodyAllowed, hb]; omega)

/-! ## CONS_QUERY -/

/-- The bytes of CONS_QUERY's reply, one after another. -/
theorem State.consReport_eq (s : State) (p : Fin 2) : byte p.val :: s.consReport p =
    byte p.val :: yn s.cp[p].settings.enabled :: byte s.cp[p].settings.baud.val :: s.cp[p].settings.format.code ::
      byte s.cp[p].settings.idleGap :: yn s.cp[p].settings.echo :: s.receiverCode p :: yn s.cp[p].rxFragment.isSome ::
      (s.cp[p].rxFragment.elim 0 fun f => byte f.bytes.length) ::
      (s.cp[p].rxFragment.elim 0 fun f => yn f.error + 2 * yn f.brk) ::
      (le 5 (s.cp[p].rxFragment.elim 0 Fragment.first) ++ (yn s.cp[p].txFragment.isSome ::
        (s.cp[p].txFragment.elim 0 fun f => byte f.bytes.length) ::
        (le 5 (s.cp[p].txFragment.elim 0 Fragment.first) ++ (le 2 s.cp[p].queue.length ++ (yn s.cp[p].inFlight.isSome :: 0 ::
          le 4 s.cp[p].discards))))) := rfl

/-- A field of value 0 is made of zeros. -/
theorem byteAt_le_zero {n i : Nat} (b : Bytes) (h : i < n) : byteAt (le n 0 ++ b) i = 0 := by
  induction n generalizing i with
  | zero => omega
  | succ n ih =>
    cases i with
    | zero => rfl
    | succ i => exact ih (by omega)

/-- Settles O52: the decoded settings, the branches of CONS_SEND, and the report byte by byte. -/
theorem consolePortsAreSetAndFed : Obligations.ConsolePortsAreSetAndFed := by
  refine fun s tag => ⟨fun p r baud fmt hr ht h0 h1 h2 h4 => ?_, fun n r hr ht hbad => ?_,
    fun n b hb ht hbad => ?_,
    fun p b hb1 hb2 ht => ⟨fun he => ?_, fun he hu => ?_, fun he hu hf => ?_, fun he hu hf x xs hx => ?_⟩,
    fun p ht => ?_, fun n hn ht => ?_⟩
  · intro set c unsent
    have hdec : ConsSettings.dec r = some set := ConsSettings.dec_of h0 h1 (by rw [h2]; cases fmt <;> rfl) h4
    clear_value set
    have hu : s.cp[p].unsent = unsent := Cp.unsent_eq _
    refine ⟨fun hs => ⟨s.consSet p set, congrArg Host.Outcome.next (takeRequest_changed ht (bodyOk_consSet hr) ?_ ?_), ?_,
      fun m => ?_⟩, fun hs => ?_⟩
    · rw [State.consSet_eq]
      exact State.raiseIf_mp _ _ _
    · have hl : State.live { s with mp := s.mp.pop } = false := State.not_live_of hs
      simp only [consSetOwner, indexOf_byte2, hdec, hl, Bool.false_eq_true, if_false, State.consSet_eq]
      cases decide (0 < s.cp[p].unsent) <;> rfl
    · rw [State.consSet_eq, hu]
      unfold Cp.beginWait Cp.dropTransmit
      rw [hu]
      rfl
    · rw [State.consSet_eq]
      exact Vector.getElem_ofFn _
    · have hl : State.live { s with mp := s.mp.pop } = true := State.live_of hs
      refine congrArg Host.Outcome.next (takeRequest_refused ht (bodyOk_consSet hr) ?_)
      simp only [consSetOwner, indexOf_byte2, hdec, hl, if_true]
  · refine congrArg Host.Outcome.next (takeRequest_refused ht (bodyOk_consSet hr) ?_)
    rcases hbad with h | h
    · simp only [consSetOwner, indexOf_of_le h]
    · simp only [consSetOwner, ConsSettings.dec_refused h]
      cases indexOf 2 n <;> rfl
  · refine congrArg Host.Outcome.next (takeRequest_refused ht (bodyOk_consSend hb) ?_)
    rcases hbad with h | h
    · simp only [consSendOwner, indexOf_of_le h]
    · simp only [consSendOwner, if_pos h]
      cases indexOf 2 n <;> rfl
  · have hn : ¬(b.length = 0 ∨ 240 < b.length) := by omega
    have he' : s.cp[p].settings.enabled = false := Bool.eq_false_iff.2 he
    refine congrArg Host.Outcome.next (takeRequest_refused ht (bodyOk_consSend (by omega)) ?_)
    simp only [consSendOwner, indexOf_byte2, if_neg hn, he', Bool.not_false, if_true]
  · have hn : ¬(b.length = 0 ∨ 240 < b.length) := by omega
    have he' : s.cp[p].settings.enabled = true := he
    have hu' : s.lau[portBank p].present = false := Bool.eq_false_iff.2 hu
    refine congrArg Host.Outcome.next (takeRequest_refused ht (bodyOk_consSend (by omega)) ?_)
    simp only [consSendOwner, indexOf_byte2, if_neg hn, he', hu', Bool.not_true, Bool.not_false, Bool.false_eq_true, if_false,
      if_true]
  · have hn : ¬(b.length = 0 ∨ 240 < b.length) := by omega
    have he' : s.cp[p].settings.enabled = true := he
    have hu' : s.lau[portBank p].present = true := hu
    refine congrArg Host.Outcome.next (takeRequest_refused ht (bodyOk_consSend (by omega)) ?_)
    simp only [consSendOwner, indexOf_byte2, if_neg hn, he', hu', Bool.not_true, Bool.false_eq_true, if_false]
    exact if_pos hf
  · have hn : ¬(b.length = 0 ∨ 240 < b.length) := by omega
    have he' : s.cp[p].settings.enabled = true := he
    have hu' : s.lau[portBank p].present = true := hu
    have hf' : ¬Config.transmitMax < s.cp[p].queue.length + b.length := Nat.not_lt.2 hf
    refine congrArg Host.Outcome.next (takeRequest_quiet (u := s.setCp p _) ht (bodyOk_consSend (by omega)) rfl rfl ?_)
    simp only [consSendOwner, indexOf_byte2, if_neg hn, he', hu', Bool.not_true, Bool.false_eq_true, if_false, if_neg hf',
      State.consSend, Cp.transmit_append hx]
    rfl
  · refine ⟨byte p.val :: s.consReport p, congrArg Host.Outcome.next (takeRequest_unchanged ht rfl ?_), ?_, ?_⟩
    · simp only [consQueryOwner, indexOf_byte2]
      rfl
    · simp [State.consReport_eq]
    · rw [State.consReport_eq]
      simp only [field_cons_succ, byteAt_cons_zero, byteAt_cons_succ, field_le_skip, byteAt_le_skip, Nat.reduceLeDiff,
        Nat.reduceSub]
      refine ⟨trivial, rfl, ?_, fun hf i hi => ?_, fun f hf => ?_, fun hf i hi => ?_, fun f hf => ?_,
        fun h => field_le_append _ _ _ h,
        ?_, fun h => field_le _ _ h⟩
      · unfold State.receiverCode State.portLive
        cases s.cp[p].settings.enabled <;> cases s.lau[portBank p].present <;> rfl
      · rw [hf]
        rw [Nat.add_comm]
        simp only [byteAt_cons_succ]
        match i with
        | 0 | 1 | 2 => rfl
        | i + 3 => exact byteAt_le_zero _ (by omega)
      · rw [hf]
        refine ⟨rfl, rfl, ?_, fun h => field_le_append _ _ _ h⟩
        show (yn f.error + 2 * yn f.brk).toNat = _
        cases f.error <;> cases f.brk <;> rfl
      · rw [hf, show 15 + i = 5 + i + 10 by omega]
        simp only [byteAt_cons_succ]
        rw [byteAt_le_skip _ _ (by omega), Nat.add_sub_cancel_left]
        match i with
        | 0 | 1 => rfl
        | i + 2 => exact byteAt_le_zero _ (by omega)
      · rw [hf]
        exact ⟨rfl, rfl, fun h => field_le_append _ _ _ h⟩
      · cases s.cp[p].inFlight <;> rfl
  · refine congrArg Host.Outcome.next (takeRequest_refused ht rfl ?_)
    simp only [consQueryOwner, indexOf_of_le hn]

end Sys2Proof.Machine

end


section
/-! What a byte of a console port does (R105, R107, R112, R113), and the bit times (R105). -/

namespace Sys2Proof.Machine

/-! ## Bit times (R105) -/

theorem baudRate_eq (b : Baud) :
    baudRate b = [9600, 19200, 38400, 57600, 115200, 230400, 460800, 921600].getD b.val 0 := by
  revert b; decide

theorem baudRate_pos (b : Baud) : 0 < baudRate b := by revert b; decide

/-- R105: a number of half bit times, rounded up to a tick, has passed exactly where it has passed as a fraction. -/
theorem ConsSettings.halfBits_le (r : ConsSettings) (h n : Nat) :
    r.halfBits h ≤ n ↔ h * 100000000 ≤ 2 * n * baudRate r.baud := by
  have hp := baudRate_pos r.baud
  have hd : 0 < 2 * baudRate r.baud := by omega
  unfold ConsSettings.halfBits ceilDiv
  rw [show Config.coreHz = 100000000 from rfl, ← Nat.lt_add_one_iff, Nat.div_lt_iff_lt_mul hd, Nat.add_mul, Nat.one_mul]
  have : 2 * n * baudRate r.baud = n * (2 * baudRate r.baud) := by ring
  omega

/-- R105: the same of a time counted from a start. -/
theorem ConsSettings.halfBits_reached (r : ConsSettings) {h : Nat} (hh : 1 ≤ h) (start clock : Nat) :
    start + r.halfBits h ≤ clock ↔ h * 100000000 ≤ 2 * (clock - start) * baudRate r.baud := by
  rw [← r.halfBits_le]
  have : 1 ≤ r.halfBits h := by
    by_contra hn
    have := (r.halfBits_le h 0).1 (by omega)
    omega
  omega

/-- R105: the stop bit's number of a format. -/
theorem ConsSettings.stopBit_cases (r : ConsSettings) : r.stopBit = if r.format = .f8N1 then 9 else 10 := by
  unfold ConsSettings.stopBit
  cases r.format <;> rfl

theorem ConsSettings.frameBits_eq (r : ConsSettings) : r.format.frameBits = r.stopBit + 1 := by
  unfold ConsSettings.stopBit
  cases r.format <;> rfl

/-- R105: the stop bit's sample point. -/
theorem ConsSettings.samplePoint_reached (r : ConsSettings) (k start clock : Nat) :
    start + r.samplePoint k ≤ clock ↔ (2 * k + 1) * 100000000 ≤ 2 * (clock - start) * baudRate r.baud :=
  r.halfBits_reached (by omega) start clock

/-- R105: the frame time. -/
theorem ConsSettings.frameTime_reached (r : ConsSettings) (start clock : Nat) :
    start + r.frameTime ≤ clock ↔ (r.stopBit + 1) * 100000000 ≤ (clock - start) * baudRate r.baud := by
  rw [ConsSettings.frameTime, r.halfBits_reached (by rw [r.frameBits_eq]; omega), r.frameBits_eq, Nat.mul_assoc, Nat.mul_assoc]
  omega

/-! ## Fragments (R107, R109) -/

section
variable (s : State) (p : Fin 2) (d : TextDir)

/-- R107: a byte joins the fragment of a port outside a run nowhere. -/
theorem State.addByte_of_idle (h : s.live = false) (b : Byte) (t : Nat) (err : Bool) : s.addByte p d b t err = s := by
  simp [State.addByte, h]

/-- R107: a byte that leaves the fragment open. -/
theorem State.addByte_open {b : Byte} {t : Nat} {err : Bool} (hl : s.live = true)
    (h : ¬(b = 0x0A ∨ 56 ≤ (Fragment.add (s.cp[p].fragment d) b t err).bytes.length)) :
    s.addByte p d b t err = s.setCp p (s.cp[p].setFragment d (some (Fragment.add (s.cp[p].fragment d) b t err))) := by
  simp only [State.addByte, hl, if_true]
  exact if_neg h

/-- R107: a byte that closes the fragment. -/
theorem State.addByte_close {b : Byte} {t : Nat} {err : Bool} (hl : s.live = true)
    (h : b = 0x0A ∨ 56 ≤ (Fragment.add (s.cp[p].fragment d) b t err).bytes.length) :
    let f := Fragment.add (s.cp[p].fragment d) b t err
    s.addByte p d b t err = (s.setCp p (s.cp[p].setFragment d none)).enqueue (s.arriving (.cp p d)
      { time := f.first, body := .text p d f.bytes f.error f.brk }) := by
  intro f
  have hstep : s.addByte p d b t err = (s.setCp p (s.cp[p].setFragment d (some f))).closeFragment false p d false := by
    simp only [State.addByte, hl, if_true]
    exact if_pos h
  rw [hstep]
  simp only [State.closeFragment, State.setCp_get_self, Cp.setFragment_fragment, State.setCp_setCp,
    Cp.setFragment_setFragment, State.handClose, Bool.false_eq_true, if_false, Bool.or_false]
  unfold State.hand
  rw [if_pos (show (s.setCp p (s.cp[p].setFragment d none)).live = true from hl)]
  rfl

/-- R107: a byte changes nothing but the fragment, and the records that wait. -/
theorem State.addByte_eq (b : Byte) (t : Nat) (err : Bool) : s.addByte p d b t err = { s with
    cp := s.cp.set p (s.cp[p].setFragment d ((s.addByte p d b t err).cp[p].fragment d)) p.isLt
    ts := { s.ts with input := (s.addByte p d b t err).ts.input } } := by
  by_cases hl : s.live = true
  · by_cases h : b = 0x0A ∨ 56 ≤ (Fragment.add (s.cp[p].fragment d) b t err).bytes.length
    · have hget : ((s.setCp p (s.cp[p].setFragment d none)).cp[p]).fragment d = none := by
        rw [State.setCp_get_self, Cp.setFragment_fragment]
      rw [s.addByte_close p d hl h]
      simp only [State.enqueue, hget]
      rfl
    · have hget : ((s.setCp p (s.cp[p].setFragment d (some (Fragment.add (s.cp[p].fragment d) b t err)))).cp[p]).fragment d =
          some (Fragment.add (s.cp[p].fragment d) b t err) := by
        rw [State.setCp_get_self, Cp.setFragment_fragment]
      rw [s.addByte_open p d hl h, hget]
      rfl
  · rw [s.addByte_of_idle p d (Bool.eq_false_iff.2 hl)]
    have : s.cp[p].setFragment d (s.cp[p].fragment d) = s.cp[p] := by cases d <;> rfl
    rw [this]
    simp

/-- R107: what a byte does to the fragment of its port. -/
theorem State.addByte_takes (b : Byte) (t : Nat) (err : Bool) : FragmentTakes s (s.addByte p d b t err) p d b t err := by
  have stays (f : Fragment) : (s.setCp p (s.cp[p].setFragment d (some f))).cp[p].fragment d = some f := by
    rw [State.setCp_get_self, Cp.setFragment_fragment]
  have goes : (s.setCp p (s.cp[p].setFragment d none)).cp[p].fragment d = none := by
    rw [State.setCp_get_self, Cp.setFragment_fragment]
  constructor
  · intro hl
    rw [s.addByte_of_idle p d hl]
    exact ⟨rfl, rfl⟩
  · intro hl hf hb
    rw [s.addByte_open p d hl fun h => h.elim hb fun h => by rw [hf] at h; exact absurd h (by simp [Fragment.add]), hf]
    exact ⟨stays _, rfl⟩
  · intro hl hf hb
    rw [s.addByte_close p d hl (.inl hb), hf]
    exact ⟨goes, _, rfl, rfl⟩
  · intro f hl hf hb hlen
    rw [s.addByte_open p d hl fun h => h.elim hb fun h => by rw [hf] at h; simp [Fragment.add] at h; omega, hf]
    exact ⟨stays _, rfl⟩
  · intro f hl hf hb
    rw [s.addByte_close p d hl (hb.imp_right fun h => by rw [hf]; simp [Fragment.add]; omega), hf]
    exact ⟨goes, _, rfl, rfl⟩

end

/-! ## The matchers of a port (R112) -/

/-- R112: a matcher that has taken a good byte. -/
def Tm.took (t : Tm) (b : Byte) : Tm :=
  { t with progress := if t.advance b = t.settings.pattern.length then 0 else t.advance b }

/-- What the matchers of a list leave that take a byte which arrived at `time`. -/
structure State.Matched (s t : State) (p : Fin 2) (b : Byte) (time : Nat) (l : List (Fin 8)) : Prop where
  eq : t = { s with tm := t.tm, fu := t.fu, ste := { s.ste with events := t.ste.events } }
  tm : ∀ m : Fin 8, t.tm[m] = if m ∈ l ∧ s.listens m p = true then s.tm[m].took b else s.tm[m]
  grows : s.Grows t
  hit : ∀ m ∈ l, s.listens m p = true → s.tm[m].advance b = s.tm[m].settings.pattern.length →
    ({ time, body := .text m } : Event) ∈ t.ste.events ∧ t.fu.flags.getLsbD 11 = true

theorem State.matchByte_spec (s : State) (b : Byte) (time : Nat) (m : Fin 8) :
    ∃ u : Fu, ∃ e : List Event, State.matchByte b time s m =
      { s.setTm m (s.tm[m].took b) with fu := u, ste := { s.ste with events := s.ste.events ++ e } } ∧ s.fu.Kept u ∧
      (s.tm[m].advance b = s.tm[m].settings.pattern.length →
        ({ time, body := .text m } : Event) ∈ e ∧ u.flags.getLsbD 11 = true) := by
  unfold State.matchByte Tm.took
  dsimp only
  split
  · exact ⟨_, _, rfl, Fu.raise_keeps _ _, fun _ => ⟨List.mem_singleton_self _, Fu.raise_sets _ .textHit⟩⟩
  · rename_i h
    exact ⟨s.fu, [], by rw [List.append_nil]; rfl, .refl _, fun ha => absurd ha h⟩

theorem State.matchAll_matched (s : State) (p : Fin 2) (b : Byte) (time : Nat) {l : List (Fin 8)} (hl : l.Nodup) :
    s.Matched (l.foldl (fun s m => if s.listens m p then s.matchByte b time m else s) s) p b time l := by
  induction l generalizing s with
  | nil => exact ⟨rfl, by simp, .refl s, by simp⟩
  | cons k l ih =>
    obtain ⟨hk, hl⟩ := List.nodup_cons.1 hl
    rw [List.foldl_cons]
    by_cases hp : s.listens k p = true
    · rw [if_pos hp]
      obtain ⟨u, e, heq, hkept, hhit⟩ := s.matchByte_spec b time k
      have hget (m : Fin 8) : (State.matchByte b time s k).tm[m] = if k = m then s.tm[k].took b else s.tm[m] := by
        rw [heq]; exact s.setTm_get k m _
      have hlisten (m : Fin 8) : (State.matchByte b time s k).listens m p = s.listens m p := by
        unfold State.listens
        rw [hget]
        split
        · rename_i h; subst h; rfl
        · rfl
      obtain ⟨ieq, itm, igrows, ihit⟩ := ih (State.matchByte b time s k) hl
      generalize List.foldl _ _ l = t at ieq itm igrows ihit ⊢
      refine ⟨by rw [ieq, heq]; rfl, fun m => ?_, ?_, fun m hm hli ha => ?_⟩
      · rw [itm, hget, hlisten]
        by_cases hkm : k = m
        · subst hkm; rw [if_neg fun h => hk h.1, if_pos rfl, if_pos ⟨List.mem_cons_self, hp⟩]
        · simp [hkm, Ne.symm hkm]
      · refine State.Grows.trans ?_ igrows
        rw [heq]
        exact ⟨hkept, List.prefix_refl _, List.prefix_append _ _⟩
      · rcases List.mem_cons.1 hm with rfl | hm
        · obtain ⟨he, hu⟩ := hhit ha
          rw [heq] at igrows
          exact ⟨igrows.events.subset (List.mem_append_right _ he), igrows.flags _ hu⟩
        · have hkm : k ≠ m := fun h => hk (h ▸ hm)
          refine ihit m hm (by rw [hlisten]; exact hli) ?_
          rw [hget, if_neg hkm]; exact ha
    · rw [if_neg hp]
      obtain ⟨ieq, itm, igrows, ihit⟩ := ih s hl
      refine ⟨ieq, fun m => ?_, igrows, fun m hm hli ha => ?_⟩
      · rw [itm]
        by_cases hkm : m = k
        · subst hkm; rw [if_neg fun h => hp h.2, if_neg fun h => hp h.2]
        · simp [hkm]
      · rcases List.mem_cons.1 hm with rfl | hm
        · exact absurd hli hp
        · exact ihit m hm hli ha

/-- R112: every enabled matcher of the port takes a good byte. -/
theorem State.matchAll_spec (s : State) (p : Fin 2) (b : Byte) (time : Nat) :
    s.Matched (s.matchAll p b time) p b time (List.finRange 8) := s.matchAll_matched p b time (List.nodup_finRange 8)

/-! ## A byte taken by the receiver (R105) -/

/-- R105: a byte changes nothing but the receive fragment, the matchers, and what they hand over. -/
theorem State.takeByte_eq (s : State) (p : Fin 2) (b : Byte) (time : Nat) (err : Bool) : s.takeByte p b time err = { s with
    cp := s.cp.set p { s.cp[p] with rxFragment := (s.takeByte p b time err).cp[p].rxFragment } p.isLt
    ts := { s.ts with input := (s.takeByte p b time err).ts.input }
    tm := (s.takeByte p b time err).tm, fu := (s.takeByte p b time err).fu
    ste := { s.ste with events := (s.takeByte p b time err).ste.events } } := by
  obtain ⟨f, input, h1⟩ : ∃ f input, s.addByte p .rx b time err = { s with
      cp := s.cp.set p { s.cp[p] with rxFragment := f } p.isLt, ts := { s.ts with input } } :=
    ⟨_, _, s.addByte_eq p .rx b time err⟩
  have hget : (s.cp.set p { s.cp[p] with rxFragment := f } p.isLt)[p].rxFragment = f :=
    congrArg Cp.rxFragment (Vector.getElem_set_self p.isLt)
  unfold State.takeByte
  dsimp only
  rw [h1]
  split
  · rw [State.restartMatchers_eq]
    dsimp only
    rw [hget]
  · rw [(State.matchAll_spec _ p b time).eq]
    dsimp only
    rw [hget]

/-- R105, R112, R113. -/
theorem State.takeByte_taken (s : State) (p : Fin 2) (b : Byte) (time : Nat) (err : Bool) :
    ByteTaken s (s.takeByte p b time err) p b time err := by
  have h1 := s.addByte_eq p .rx b time err
  have h2 := s.addByte_takes p .rx b time err
  have htm : (s.addByte p .rx b time err).tm = s.tm := by rw [h1]
  have hste : (s.addByte p .rx b time err).ste = s.ste := by rw [h1]
  have hfu : (s.addByte p .rx b time err).fu = s.fu := by rw [h1]
  unfold State.takeByte
  dsimp only
  generalize s.addByte p .rx b time err = u at h2 htm hste hfu
  cases err with
  | true =>
    rw [if_pos rfl, State.restartMatchers_eq]
    refine ⟨⟨h2.idle, h2.opened, h2.line, h2.joined, h2.closed⟩, fun _ => ⟨hste, hfu, fun m hm => ?_⟩,
      fun h => (by cases h), fun m hm => ?_⟩
    · refine (Vector.getElem_ofFn _).trans ?_
      rw [htm]
      exact if_pos hm
    · refine (Vector.getElem_ofFn _).trans ?_
      rw [htm]
      exact if_neg (hm.resolve_right fun h => by cases h.1)
  | false =>
    rw [if_neg Bool.false_ne_true]
    obtain ⟨heq, ht, -, hhit⟩ := u.matchAll_spec p b time
    have listens (m : Fin 8) : u.listens m p = (s.tm[m].settings.enabled && s.tm[m].settings.port == p) := by
      unfold State.listens; rw [htm]
    generalize u.matchAll p b time = t at heq ht hhit ⊢
    refine ⟨?_, fun h => (by cases h), fun _ m he hp => ?_, fun m hm => ?_⟩
    · rw [heq]; exact ⟨h2.idle, h2.opened, h2.line, h2.joined, h2.closed⟩
    · have hli : u.listens m p = true := by rw [listens, he, hp]; simp
      have htm' : t.tm[m] = s.tm[m].took b := by
        rw [ht, if_pos ⟨List.mem_finRange m, hli⟩, htm]
      refine ⟨fun hn => ?_, fun hn => ?_⟩
      · rw [htm', Tm.took, if_neg hn]
      · rw [htm', Tm.took, if_pos hn]
        exact ⟨rfl, hhit m (List.mem_finRange m) hli (by rw [htm]; exact hn)⟩
    · have hli : ¬u.listens m p = true := by
        rw [listens, Bool.and_eq_true, beq_iff_eq]
        rintro ⟨he, hp⟩
        rcases hm with hm | ⟨-, hm⟩
        · exact hm hp
        · rw [he] at hm; cases hm
      rw [ht, if_neg fun h => hli h.2, htm]

/-- R107: which fragment a byte finds depends on the port's fragments and the run. -/
theorem FragmentTakes.of_setCp {s t : State} {p : Fin 2} {c : Cp} {d : TextDir} {b : Byte} {time : Nat} {err : Bool}
    (h : FragmentTakes (s.setCp p c) t p d b time err) (hc : c.fragment d = s.cp[p].fragment d) :
    FragmentTakes s t p d b time err := by
  have hget : (s.setCp p c).cp[p].fragment d = s.cp[p].fragment d := by rw [State.setCp_get_self, hc]
  obtain ⟨idle, opened, line, joined, closed⟩ := h
  rw [hget] at idle opened line
  simp only [hget] at joined closed
  exact ⟨idle, opened, line, joined, closed⟩

theorem ByteTaken.of_setCp {s t : State} {p : Fin 2} {c : Cp} {b : Byte} {time : Nat} {err : Bool}
    (h : ByteTaken (s.setCp p c) t p b time err) (hc : c.rxFragment = s.cp[p].rxFragment) : ByteTaken s t p b time err :=
  ⟨h.fragment.of_setCp hc, h.restarted, h.advanced, h.others⟩

end Sys2Proof.Machine

end


section
/-! The transmitter and the idle gap (R107, R109). -/

namespace Sys2Proof.Machine

/-! ## The transmit pin (R109) -/

/-- R109: the number of the bit that the transmit pin shows. -/
def ConsSettings.bitShown (r : ConsSettings) (started clock : Nat) : Nat :=
  ((List.range r.format.frameBits).filter fun k => decide (started + r.halfBits (2 * k) ≤ clock)).length - 1

/-- R109: bit `k` has begun. -/
theorem ConsSettings.begun_iff (r : ConsSettings) {started clock : Nat} (h : started ≤ clock) (k : Nat) :
    started + r.halfBits (2 * k) ≤ clock ↔ k * 100000000 ≤ (clock - started) * baudRate r.baud := by
  have : started + r.halfBits (2 * k) ≤ clock ↔ r.halfBits (2 * k) ≤ clock - started := by omega
  rw [this, r.halfBits_le, Nat.mul_assoc, Nat.mul_assoc]
  omega

/-- The bits of a range that have begun are those up to the last one. -/
theorem range_filter_le (n k : Nat) : ((List.range n).filter fun i => decide (i ≤ k)).length = min n (k + 1) := by
  induction n with
  | zero => simp
  | succ n ih =>
    rw [List.range_succ, List.filter_append, List.length_append, ih]
    by_cases h : n ≤ k
    · simp [h]; omega
    · simp [h]; omega

/-- R109: the pin shows the last bit that has begun, and the stop bit from then on. -/
theorem ConsSettings.bitShown_eq (r : ConsSettings) {started clock : Nat} (h : started ≤ clock) :
    r.bitShown started clock = min r.stopBit ((clock - started) * baudRate r.baud / 100000000) := by
  have : (fun k => decide (started + r.halfBits (2 * k) ≤ clock)) =
      fun k => decide (k ≤ (clock - started) * baudRate r.baud / 100000000) := by
    funext k
    rw [decide_eq_decide, r.begun_iff h, Nat.le_div_iff_mul_le (by decide)]
  rw [ConsSettings.bitShown, this, range_filter_le, r.frameBits_eq]
  omega

/-- R109: the parity bit of a byte. -/
def Format.parityBit (f : Format) (b : Byte) : Bool :=
  match f with
  | .f8O1 => ((List.range 8).filter b.getLsbD).length % 2 == 0
  | _ => ((List.range 8).filter b.getLsbD).length % 2 == 1

/-- R109: bit `k` of the frame of a byte. -/
def ConsSettings.frameBit (r : ConsSettings) (b : Byte) (k : Nat) : Bool :=
  if k = 0 then false else if k ≤ 8 then b.getLsbD (k - 1) else if k = r.stopBit then true else r.format.parityBit b

theorem State.txPin_eq (s : State) (p : Fin 2) : s.txPin p = if s.portLive p then
      some (s.cp[p].inFlight.elim true fun f =>
        s.cp[p].settings.frameBit f.byte (s.cp[p].settings.bitShown f.started s.clock))
    else none := by
  unfold State.txPin
  dsimp only
  split
  · rename_i h
    rw [if_neg (by simpa using h)]
  · rename_i h
    rw [if_pos (by simpa using h)]
    split
    · rename_i hf; rw [hf]; rfl
    · rename_i f hf; rw [hf]; rfl

/-! ## The transmitter's moments (R109) -/

theorem Cp.sendDue_of {c : Cp} {f : InFlight} (hf : c.inFlight = some f) (hc : f.complete = false) (clock : Nat) :
    c.sendDue clock = true ↔
      (2 * c.settings.stopBit + 1) * 100000000 ≤ 2 * (clock - f.started) * baudRate c.settings.baud := by
  simp [Cp.sendDue, hf, hc, ConsSettings.samplePoint_reached]

theorem Cp.sentDue_of {c : Cp} {f : InFlight} (hf : c.inFlight = some f) (clock : Nat) : c.sentDue clock = true ↔
    f.complete = true ∧ (c.settings.stopBit + 1) * 100000000 ≤ (clock - f.started) * baudRate c.settings.baud := by
  simp [Cp.sentDue, hf, ConsSettings.frameTime_reached]

/-- R107: an idle gap. -/
theorem State.gapDue_of {s : State} {p : Fin 2} {d : TextDir} {f : Fragment} (hf : s.cp[p].fragment d = some f)
    (hl : s.live = true) : s.gapDue p d = true ↔ f.last + s.cp[p].settings.idleGap * 100000 ≤ s.rc.timeBase := by
  rw [State.gapDue, hl, hf, Option.any_some, Bool.true_and, decide_eq_true_eq]
  rfl

/-- R107: a fragment that closes in a run. -/
theorem State.closeFragment_of_open {s : State} {p : Fin 2} {d : TextDir} {f : Fragment} (hf : s.cp[p].fragment d = some f)
    (hl : s.live = true) (brk : Bool) : s.closeFragment false p d brk = (s.setCp p (s.cp[p].setFragment d none)).enqueue
      (s.arriving (.cp p d) { time := f.first, body := .text p d f.bytes f.error (f.brk || brk) }) := by
  unfold State.closeFragment
  rw [hf]
  exact if_pos hl

/-- Settles O55: the times as fractions of the bit time, `State.addByte_takes`, and the transmit pin bit by bit. -/
theorem transmitterAndIdleGap : Obligations.TransmitterAndIdleGap := by
  intro s p
  have hstop : s.cp[p].settings.stopBit = 9 ∨ s.cp[p].settings.stopBit = 10 := by
    rw [ConsSettings.stopBit_cases]
    split
    · exact .inl rfl
    · exact .inr rfl
  simp only [← ConsSettings.stopBit_cases]
  refine ⟨fun f hf hc => ⟨fun h => ?_, fun h => ⟨fun he => ?_, fun he => ?_⟩⟩,
    fun f hf hc h => ⟨fun hq => ?_, fun x xs hq => ?_⟩,
    fun f hf h => ?_, fun h => ?_, fun he hu => ⟨fun hf => ?_, fun f hf hstart => ?_⟩,
      fun d f hf hl => ⟨fun h => ?_, fun h => ?_⟩⟩
  · have hdue : ¬s.cp[p].sendDue s.clock = true := fun hd => by
      have := (Cp.sendDue_of hf hc _).1 hd
      omega
    simp only [exec, execByteSendTime, hf, if_neg hdue]
  · simp only [exec, execByteSendTime, hf, if_pos ((Cp.sendDue_of hf hc _).2 h), State.sendTime, he, Bool.false_eq_true,
      if_false]
  · simp only [exec, execByteSendTime, hf, if_pos ((Cp.sendDue_of hf hc _).2 h), State.sendTime, he, if_true]
    have heq := State.addByte_eq (s.setCp p { s.cp[p] with inFlight := some { f with complete := true } }) p .tx f.byte
      s.rc.timeBase false
    have htakes := State.addByte_takes (s.setCp p { s.cp[p] with inFlight := some { f with complete := true } }) p .tx f.byte
      s.rc.timeBase false
    generalize State.addByte _ p .tx f.byte s.rc.timeBase false = t at heq htakes ⊢
    refine ⟨t, rfl, ?_, by rw [heq]; rfl, htakes.of_setCp rfl⟩
    have hcp : t.cp[p] = Cp.setFragment (s.setCp p { s.cp[p] with inFlight := some { f with complete := true } }).cp[p] .tx
        t.cp[p].txFragment := by
      conv_lhs => rw [heq]
      exact Vector.getElem_set_self _
    rw [State.setCp_get_self] at hcp
    exact hcp
  · have hdue := (Cp.sentDue_of hf s.clock).2 ⟨hc, h⟩
    simp only [exec, execByteSent, if_pos hdue, hq]
    rfl
  · have hdue := (Cp.sentDue_of hf s.clock).2 ⟨hc, h⟩
    simp only [exec, execByteSent, if_pos hdue, hq]
    rfl
  · have hdue : ¬s.cp[p].sentDue s.clock = true := fun hd => by
      have := ((Cp.sentDue_of hf _).1 hd).2
      omega
    simp only [exec, execByteSent, if_neg hdue]
  · have : s.portLive p = false := by
      unfold State.portLive
      rcases h with h | h <;> simp only [h, Bool.false_and, Bool.and_false]
    rw [State.txPin_eq, this]
    rfl
  · have : s.portLive p = true := by simp only [State.portLive, he, hu, Bool.and_self]
    rw [State.txPin_eq, this, hf]
    rfl
  · have hlive : s.portLive p = true := by simp only [State.portLive, he, hu, Bool.and_self]
    have hpin : s.txPin p = some (s.cp[p].settings.frameBit f.byte
        (min s.cp[p].settings.stopBit ((s.clock - f.started) * baudRate s.cp[p].settings.baud / 100000000))) := by
      rw [State.txPin_eq, hlive, hf, if_pos rfl, Option.elim_some, ConsSettings.bitShown_eq _ hstart]
    generalize (s.clock - f.started) * baudRate s.cp[p].settings.baud = sent at hpin
    rw [hpin]
    refine ⟨fun h => ?_, fun k hk h1 h2 => ?_, fun pin hp h1 h2 => ?_, by simp, fun h => ?_⟩
    · have : min s.cp[p].settings.stopBit (sent / 100000000) = 0 := by omega
      rw [this]
      rfl
    · have : min s.cp[p].settings.stopBit (sent / 100000000) = k + 1 := by omega
      rw [this, ConsSettings.frameBit, if_neg (by omega), if_pos (by omega)]
      rfl
    · have hk : min s.cp[p].settings.stopBit (sent / 100000000) = 9 := by omega
      rw [hk] at hp
      cases hp
      generalize hn : ((List.range 8).filter f.byte.getLsbD).length = n
      have hparity (h10 : s.cp[p].settings.stopBit = 10) :
          s.cp[p].settings.frameBit f.byte 9 = s.cp[p].settings.format.parityBit f.byte := by
        rw [ConsSettings.frameBit, if_neg (by omega), if_neg (by omega), if_neg (by omega)]
      refine ⟨fun hf8 => ?_, fun hf8 => ?_⟩
      · rw [hparity (by rw [ConsSettings.stopBit_cases, hf8]; rfl), hf8]
        simp only [Format.parityBit, hn, beq_iff_eq]
        split <;> omega
      · rw [hparity (by rw [ConsSettings.stopBit_cases, hf8]; rfl), hf8]
        simp only [Format.parityBit, hn, beq_iff_eq]
        split <;> omega
    · have : min s.cp[p].settings.stopBit (sent / 100000000) = s.cp[p].settings.stopBit := by omega
      rw [this, ConsSettings.frameBit, if_neg (by omega), if_neg (by omega), if_pos rfl]
  · have hdue : ¬s.gapDue p d = true := fun hd => by
      have := (State.gapDue_of hf hl).1 hd
      omega
    simp only [exec, execIdleGapExpiry, if_neg hdue]
  · refine ⟨s.arriving (.cp p d) { time := f.first, body := .text p d f.bytes f.error f.brk }, rfl, ?_⟩
    simp only [exec, execIdleGapExpiry, if_pos ((State.gapDue_of hf hl).2 h), State.closeFragment_of_open hf hl, Bool.or_false]
    rfl

end Sys2Proof.Machine

end


section
/-! The receiver (R105, R106). -/

namespace Sys2Proof.Machine

/-! ## The data byte of a frame (R105) -/

/-- A number made of bits, least significant first. -/
theorem testBit_bits (l : List Bool) (i : Nat) :
    (l.foldr (fun (b : Bool) n => b.toNat + 2 * n) 0).testBit i = l.getD i false := by
  induction l generalizing i with
  | nil => simp
  | cons b l ih =>
    rw [List.foldr_cons]
    cases i with
    | zero => cases b <;> simp [Nat.testBit_zero]
    | succ i =>
      rw [Nat.testBit_succ, show (b.toNat + 2 * l.foldr (fun (b : Bool) n => b.toNat + 2 * n) 0) / 2 =
        l.foldr (fun (b : Bool) n => b.toNat + 2 * n) 0 by have := b.toNat_lt; omega, ih]
      rfl

/-- R105: the bits of the data byte. -/
theorem dataByte_eq {bits : List Bool} {v : Byte} (h : ∀ i < 8, v.getLsbD i = bits.getD (i + 1) false) : dataByte bits = v := by
  refine BitVec.eq_of_getLsbD_eq fun i hi => ?_
  rw [h i hi, dataByte, byte, BitVec.getLsbD_ofNat, testBit_bits, decide_eq_true hi, Bool.true_and]
  simp [List.getD_eq_getElem?_getD, hi]

/-- R105: the parity of a frame whose bits before the stop bit are all sampled. -/
theorem parityOk_eq {f : Format} {bits : List Bool} (h : bits.length ≤ 10) : parityOk f bits = match f with
    | .f8N1 => true
    | .f8E1 => decide ((bits.drop 1).count true % 2 = 0)
    | .f8O1 => decide ((bits.drop 1).count true % 2 = 1) := by
  have : (bits.drop 1).take 9 = bits.drop 1 := List.take_of_length_le (by simp; omega)
  unfold parityOk
  rw [this]
  cases f <;> rfl

/-! ## The receiver's moments (R105, R106) -/

section
variable {s : State} {p : Fin 2}

theorem State.portLive_of (he : s.cp[p].settings.enabled = true) (hu : s.lau[portBank p].present = true) :
    s.portLive p = true := by simp only [State.portLive, he, hu, Bool.and_self]

theorem State.waitIdleDue_of {n : Nat} (hl : s.portLive p = true) (hr : s.cp[p].rx = .waitIdle)
    (hn : s.cp[p].highSince = some n) : s.waitIdleDue p = true ↔
      (s.cp[p].settings.stopBit + 1) * 100000000 ≤ (s.clock - n) * baudRate s.cp[p].settings.baud := by
  rw [State.waitIdleDue, hl, hr, hn, Option.any_some]
  simp [ConsSettings.frameTime_reached]

theorem State.glitchDue_of (hl : s.portLive p = true) (hr : s.cp[p].rx = .receiving) (hb : s.cp[p].bits = [])
    (ht : 100000000 ≤ 2 * (s.clock - s.cp[p].rxStart) * baudRate s.cp[p].settings.baud) (hh : s.readRx p = true) :
    s.glitchDue p = true := by
  have := (s.cp[p].settings.samplePoint_reached 0 s.cp[p].rxStart s.clock).2 (by omega)
  simp only [State.glitchDue, hl, hr, hb, hh, this, decide_true, List.isEmpty_nil, beq_self_eq_true, Bool.and_self]

theorem State.arrivalDue_of (hl : s.portLive p = true) (hr : s.cp[p].rx = .receiving) (hh : s.cp[p].held = false)
    (hb : s.cp[p].bits.length = s.cp[p].settings.stopBit)
    (ht : (2 * s.cp[p].settings.stopBit + 1) * 100000000 ≤
      2 * (s.clock - s.cp[p].rxStart) * baudRate s.cp[p].settings.baud) : s.arrivalDue p = true := by
  have := (s.cp[p].settings.samplePoint_reached _ s.cp[p].rxStart s.clock).2 ht
  simp only [State.arrivalDue, hl, hr, hb, hh, this, decide_true, Bool.not_false, beq_self_eq_true, Bool.and_self]

theorem State.breakDue_iff_of (hl : s.portLive p = true) : s.breakDue p = true ↔
    s.cp[p].rx = .receiving ∧ s.cp[p].held = true ∧ s.cp[p].steadyLow = true ∧ s.readRx p = false ∧
      (s.cp[p].settings.stopBit + 1) * 100000000 < (s.clock - s.cp[p].rxStart) * baudRate s.cp[p].settings.baud := by
  have : s.cp[p].settings.longerThanFrame (s.clock - s.cp[p].rxStart) = true ↔
      (s.cp[p].settings.stopBit + 1) * 100000000 < (s.clock - s.cp[p].rxStart) * baudRate s.cp[p].settings.baud := by
    rw [ConsSettings.longerThanFrame, decide_eq_true_eq, ConsSettings.frameBits_eq]
    rfl
  simp only [State.breakDue, hl, Bool.and_eq_true, beq_iff_eq, Bool.not_eq_true', this, true_and, and_assoc]

/-- R105: the ticks since the stop bit's sample point. -/
theorem State.sinceArrival_eq (s : State) (p : Fin 2) : s.sinceArrival p = s.clock - s.cp[p].rxStart -
    ((2 * s.cp[p].settings.stopBit + 1) * 100000000 + 2 * baudRate s.cp[p].settings.baud - 1) /
      (2 * baudRate s.cp[p].settings.baud) := by
  rw [State.sinceArrival, Nat.sub_add_eq]
  rfl

/-- R105: the sample of a bit. -/
theorem Cp.tick_eq (c : Cp) {clock : Nat} (high : Bool) : c.tick clock high =
    if c.rx = .receiving ∧ c.held = false ∧ c.bits.length < c.settings.stopBit ∧
      (2 * c.bits.length + 1) * 100000000 ≤ 2 * (clock - c.rxStart) * baudRate c.settings.baud ∧
      ¬(c.bits.length = 0 ∧ high = true) then { c with bits := c.bits ++ [high] } else c := by
  unfold Cp.tick
  simp only [ConsSettings.samplePoint_reached, Bool.not_eq_true', decide_eq_false_iff_not]

end

/-- R105: a byte taken as the receiver leaves its frame. -/
theorem State.receiver_takeByte (s : State) (p : Fin 2) (st : RxState) (b : Byte) (time : Nat) (err : Bool) :
    ((s.receiver p st).takeByte p b time err).mp = s.mp ∧ ((s.receiver p st).takeByte p b time err).rc = s.rc ∧
      ((s.receiver p st).takeByte p b time err).cp[p] = { s.cp[p] with
        rx := st, bits := [], held := false
        rxFragment := ((s.receiver p st).takeByte p b time err).cp[p].rxFragment } ∧
      ByteTaken s ((s.receiver p st).takeByte p b time err) p b time err := by
  have heq := (s.receiver p st).takeByte_eq p b time err
  have htaken := ((s.receiver p st).takeByte_taken p b time err)
  generalize (s.receiver p st).takeByte p b time err = t at heq htaken ⊢
  have hcp : t.cp[p] = { (s.receiver p st).cp[p] with rxFragment := t.cp[p].rxFragment } := by
    conv_lhs => rw [heq]
    exact Vector.getElem_set_self p.isLt
  have hget : (s.receiver p st).cp[p] = { s.cp[p] with rx := st, bits := [], held := false } := s.setCp_get_self p _
  rw [hget] at hcp
  exact ⟨by rw [heq]; rfl, by rw [heq]; rfl, hcp, htaken.of_setCp rfl⟩

/-- R106: what a break leaves. -/
theorem State.takeBreak_eq (s : State) (p : Fin 2) : s.takeBreak p = { s with
    cp := s.cp.set p { s.cp[p] with rx := .waitHigh, bits := [], held := false, rxFragment := none } p.isLt
    ts := (s.takeBreak p).ts
    tm := Vector.ofFn fun m => if s.tm[m].settings.port = p then s.tm[m].restart else s.tm[m] } := by
  unfold State.takeBreak
  rw [State.restartMatchers_eq]
  have hget : (s.receiver p .waitHigh).cp[p] = { s.cp[p] with rx := .waitHigh, bits := [], held := false } :=
      s.setCp_get_self p _
  unfold State.closeFragment
  split
  · rename_i h
    rw [hget] at h
    have h : s.cp[p].rxFragment = none := h
    rw [← h]
    rfl
  · rw [hget, State.handClose_eq]
    simp only [State.receiver, State.setCp_setCp]
    rfl

/-- Settles O54: the times as fractions of the bit time, and what each moment of the receiver leaves. -/
theorem receiverEvents : Obligations.ReceiverEvents := by
  refine ⟨fun s p => ⟨rfl, fun mv => ?_⟩, baudRate_eq, fun c clock high _ => ?_, fun s p he hu => ?_⟩
  · have hget : ({ s with pins := { s.pins with rx := s.pins.rx.set p mv p.isLt } } : State).readRx p =
        decide (s.lau[portBank p].threshold * 14 < mv) := by
      show decide (s.lau[portBank p].threshold * 14 < (s.pins.rx.set p mv p.isLt)[p]) = _
      rw [show (s.pins.rx.set p mv p.isLt)[p] = mv from Vector.getElem_set_self p.isLt]
    refine ⟨if decide (s.lau[portBank p].threshold * 14 < mv) then some (s.cp[p].highSince.getD s.clock) else none, ?_,
      fun h => ?_,
      fun h => ?_⟩
    · show Host.Outcome.next (State.sampleRx { s with pins := { s.pins with rx := s.pins.rx.set p mv p.isLt } } p) = _
      unfold State.sampleRx
      rw [hget]
      rfl
    · exact if_neg (by simpa using h)
    · exact if_pos (by simpa using h)
  · rw [← ConsSettings.stopBit_cases, Cp.tick_eq]
    exact ⟨fun h => if_pos h, fun h => if_neg h⟩
  · have hl := State.portLive_of he hu
    simp only [← ConsSettings.stopBit_cases]
    have hstop : s.cp[p].settings.stopBit ≤ 10 := by
      rw [ConsSettings.stopBit_cases]; split <;> omega
    refine ⟨fun n hr hn h => ?_, fun n hr hn h => ?_, fun hr hline => ?_, fun hr hb ht hline => ?_,
      fun hr hh hb ht => ⟨fun hline hz => ?_, fun hone v hv => ?_⟩, fun hr hh hline => ?_, fun h => ?_,
      fun hr hh hlow hline ht => ?_, fun hr hline => ?_⟩
    · simp only [exec, execWaitIdleExpiry, if_pos ((State.waitIdleDue_of hl hr hn).2 h)]
      rfl
    · have hdue : ¬s.waitIdleDue p = true := fun hd => by
        have := (State.waitIdleDue_of hl hr hn).1 hd
        omega
      simp only [exec, execWaitIdleExpiry, if_neg hdue]
    · have hdue : s.startDue p = true := by simp only [State.startDue, hl, hr, hline]; rfl
      simp only [exec, execStartEdge, if_pos hdue, State.startByte, State.receiver, State.setCp_get_self, State.setCp_setCp]
    · simp only [exec, execStartBitGlitch, if_pos (State.glitchDue_of hl hr hb ht hline)]
      rfl
    · have hall : (s.cp[p].bits.all fun b => !b) = true := by simpa using hz
      simp only [exec, execByteArrival, if_pos (State.arrivalDue_of hl hr hh hb ht), State.arrival, hline, hall, Bool.not_false,
        Bool.and_self, if_true]
    · have hall : ¬((!s.readRx p && s.cp[p].bits.all fun b => !b) = true) := by
        rcases hone with h | h
        · simp [h]
        · simp only [Bool.and_eq_true, List.all_eq_true, not_and, not_forall]
          exact fun _ => ⟨true, h, by decide⟩
      simp only [exec, execByteArrival, if_pos (State.arrivalDue_of hl hr hh hb ht), State.arrival, if_neg hall,
        dataByte_eq hv, parityOk_eq (show s.cp[p].bits.length ≤ 10 by omega), ← Bool.not_and]
      exact ⟨_, rfl, State.receiver_takeByte s p _ v s.rc.timeBase _⟩
    · have hdue : s.heldDue p = true := by simp only [State.heldDue, hl, hr, hh, hline]; rfl
      rw [← State.sinceArrival_eq]
      simp only [exec, execHeldFrameTaken, if_pos hdue, State.heldTaken]
      split
      · rename_i hle
        obtain ⟨h1, h2, h3, h4⟩ := State.receiver_takeByte s p .idle 0 (s.rc.timeBase - s.sinceArrival p) true
        exact ⟨_, rfl, h1, h2, h3, fun _ => h4, fun h => absurd hle (by omega)⟩
      · rename_i hle
        have hget : (s.receiver p .idle).cp[p] = { s.cp[p] with rx := .idle, bits := [], held := false } := s.setCp_get_self p _
        refine ⟨_, rfl, ?_⟩
        rw [State.restartMatchers_eq]
        refine ⟨rfl, rfl, ?_, fun h => absurd h hle, fun _ => ⟨rfl, ?_⟩⟩
        · show (s.receiver p .idle).cp[p] = { s.cp[p] with
            rx := .idle, bits := [], held := false, rxFragment := (s.receiver p .idle).cp[p].rxFragment }
          rw [hget]
        · show (s.receiver p .idle).cp[p].rxFragment = _
          rw [hget]
    · have hdue : ¬s.breakDue p = true := fun hd => by
        obtain ⟨-, -, hlow, hline, ht⟩ := (State.breakDue_iff_of hl).1 hd
        rcases h with h | h | h
        · rw [hlow] at h; cases h
        · rw [hline] at h; cases h
        · omega
      simp only [exec, execBreakSeen, if_neg hdue]
    · have hdue := (State.breakDue_iff_of hl).2 ⟨hr, hh, hlow, hline, ht⟩
      simp only [exec, execBreakSeen, if_pos hdue]
      have hget : (s.receiver p .waitHigh).cp[p] = { s.cp[p] with rx := .waitHigh, bits := [], held := false } :=
        s.setCp_get_self p _
      refine ⟨_, rfl, by rw [State.takeBreak_eq], ?_, fun m hm => ?_, fun hf => ?_, fun f hf hlive => ?_⟩
      · rw [State.takeBreak_eq]
        exact Vector.getElem_set_self p.isLt
      · rw [State.takeBreak_eq]
        exact (Vector.getElem_ofFn _).trans (if_pos hm)
      · have : (s.receiver p .waitHigh).cp[p].fragment .rx = none := by rw [hget]; exact hf
        rw [State.takeBreak, State.restartMatchers_eq, State.closeFragment, this]
        rfl
      · have : (s.receiver p .waitHigh).cp[p].fragment .rx = some f := by rw [hget]; exact hf
        rw [State.takeBreak, State.restartMatchers_eq, State.closeFragment_of_open this hlive, Bool.or_true]
        exact ⟨_, rfl, rfl⟩
    · have hdue : s.recoveryDue p = true := by simp only [State.recoveryDue, hl, hr, hline]; rfl
      simp only [exec, execWaitHighRecovery, if_pos hdue]
      rfl

end Sys2Proof.Machine

end


section
/-! The moments of the code port (R96 to R100). -/

namespace Sys2Proof.Machine

/-! ## The captured byte (R96) -/

/-- A byte made of eight bits. -/
theorem byte_of_bits (f : Fin 8 → Bool) (k : Fin 8) :
    (byte ((List.finRange 8).foldl (fun n k => n + if f k then 2 ^ k.val else 0) 0)).getLsbD k.val = f k := by
  have hf : f = fun k => (BitVec.ofFnLE f).getLsbD k.val := by
    funext k; rw [BitVec.getLsbD_ofFnLE]; simp
  rw [hf]
  generalize BitVec.ofFnLE f = w
  revert w k
  decide

theorem State.readData_bit (s : State) (k : Fin 8) :
    s.readData.getLsbD k.val = decide (s.lau[(3 : Fin 4)].threshold * 14 < s.pins.data[k]) :=
  byte_of_bits (fun k => reads s.pins.data[k] s.lau[(3 : Fin 4)].threshold) k

/-! ## The open CODE record (R99) -/

/-- R99: the CODE record of an open record. -/
def PendingCode.record (p : PendingCode) : Rec := { time := p.first, body := .code p.code p.count p.last }

/-- R99: the close of the open record in a run. -/
theorem State.closeCode_of_live {s : State} (h : s.live = true) : s.closeCode false = { s with
    cdp := { s.cdp with pending := none }
    ts := { s.ts with input := s.ts.input ++ s.cdp.pending.toList.map fun p => s.arriving .cdp p.record } } := by
  unfold State.closeCode
  cases hp : s.cdp.pending with
  | none =>
    have hs : s.setCdp { s.cdp with pending := none } = s := by rw [← hp]; rfl
    rw [Option.toList_none, List.map_nil, List.append_nil]
    exact hs.symm
  | some p => exact if_pos h

/-- R99: the record that a capture at `time` opens. -/
def PendingCode.opened (code : Byte) (time : Nat) : PendingCode := { code, count := 1, first := time, last := time }

/-- R99: a capture outside a run, or with trace off, leaves the open record. -/
theorem State.recordCode_of_off {s : State} (h : s.live = false ∨ s.cdp.settings.trace = false) (code : Byte) (folds : Bool) :
    s.recordCode code folds = s := by
  have : ¬(s.live && s.cdp.settings.trace) = true := by rcases h with h | h <;> simp [h]
  exact if_neg this

/-- R99: a capture that folds adds to the open record. -/
theorem State.recordCode_of_folds {s : State} {p : PendingCode} (hl : s.live = true) (ht : s.cdp.settings.trace = true)
    (hp : s.cdp.pending = some p) (code : Byte) :
    s.recordCode code true = s.setCdp
      { s.cdp with pending := some { p with count := p.count + 1, last := s.rc.timeBase } } := by
  unfold State.recordCode
  rw [hl, ht, hp]
  rfl

/-- R99: any other capture closes the open record and opens the next, which a fold window of 0 closes at once. -/
theorem State.recordCode_of_new {s : State} (hl : s.live = true) (ht : s.cdp.settings.trace = true) {folds : Bool}
    (hp : s.cdp.pending = none ∨ folds = false) (code : Byte) : s.recordCode code folds = { s with
      cdp := { s.cdp with
        pending := if s.cdp.settings.foldWindow = 0 then none else some (PendingCode.opened code s.rc.timeBase) }
      ts := { s.ts with input := s.ts.input ++ (s.cdp.pending.toList.map fun p => s.arriving .cdp p.record) ++
        if s.cdp.settings.foldWindow = 0 then [s.arriving .cdp (PendingCode.opened code s.rc.timeBase).record] else [] } } := by
  have hstep : s.recordCode code folds =
      let s1 := s.closeCode false
      let s2 := s1.setCdp { s1.cdp with pending := some (PendingCode.opened code s.rc.timeBase) }
      if s.cdp.settings.foldWindow = 0 then s2.closeCode false else s2 := by
    unfold State.recordCode
    rw [hl, ht]
    rcases hp with hp | hp
    · rw [hp]; rfl
    · subst hp
      cases s.cdp.pending <;> rfl
  rw [hstep]
  dsimp only
  rw [State.closeCode_of_live hl]
  split
  · rw [State.closeCode_of_live (by exact hl)]
    rfl
  · rw [List.append_nil]
    rfl

/-! ## A capture (R97, R98, R100) -/

theorem Cdp.folds_iff (c : Cdp) (code : Byte) : c.folds code = true ↔
    c.foldFrom ≠ none ∧ ∃ h hs, c.history = h :: hs ∧ h.code = code ∧ h.count < 65535 := by
  unfold Cdp.folds
  cases hh : c.history with
  | nil => simp
  | cons h hs =>
    rw [Bool.and_eq_true, Bool.and_eq_true, beq_iff_eq, decide_eq_true_eq, Option.isSome_iff_ne_none]
    constructor
    · rintro ⟨⟨h1, h2⟩, h3⟩
      exact ⟨h2, h, hs, rfl, h1, h3⟩
    · rintro ⟨h2, _, _, he, h1, h3⟩
      cases he
      exact ⟨⟨h1, h2⟩, h3⟩

theorem Cdp.historyAfter_of_folds {c : Cdp} {code : Byte} {h : CodeEntry} {hs : List CodeEntry} (hf : c.folds code = true)
    (hh : c.history = h :: hs) : c.historyAfter code = { h with count := h.count + 1 } :: hs := by
  unfold Cdp.historyAfter
  rw [hf, hh]

theorem Cdp.historyAfter_of_new {c : Cdp} {code : Byte} (hf : c.folds code = false) :
    c.historyAfter code = ({ code, count := 1 } :: c.history).take 16 := by
  unfold Cdp.historyAfter
  rw [hf]
  cases c.history <;> rfl

/-- R99: a capture changes nothing of a state but the open record and what waits at the TS. -/
theorem State.recordCode_frame (s : State) (code : Byte) (folds : Bool) : s.recordCode code folds = { s with
    cdp := { s.cdp with pending := (s.recordCode code folds).cdp.pending }, ts := (s.recordCode code folds).ts } := by
  by_cases hoff : s.live = false ∨ s.cdp.settings.trace = false
  · rw [State.recordCode_of_off hoff]
  · rw [not_or, Bool.not_eq_false, Bool.not_eq_false] at hoff
    obtain ⟨hl, ht⟩ := hoff
    by_cases hp : s.cdp.pending = none ∨ folds = false
    · rw [State.recordCode_of_new hl ht hp]
    · rw [not_or, Bool.not_eq_false] at hp
      obtain ⟨hp, rfl⟩ := hp
      obtain ⟨p, hp⟩ := Option.ne_none_iff_exists'.mp hp
      rw [State.recordCode_of_folds hl ht hp]
      rfl

/-- R97, R98, R100: the state in which a capture at the edge acts on the open record. -/
def State.strobed (s : State) : State := s.setCdp { s.cdp with
  reference := some s.readStb
  history := s.cdp.historyAfter s.readData
  foldFrom := if s.cdp.settings.foldWindow = 0 then none else some s.clock }

/-- R97 to R100: a capture whose code is not ignored. -/
theorem State.strobeEdge_captured {s : State} (hd : s.strobeNow = true) (hi : s.readData ∉ s.cdp.settings.ignoreList) :
    exec .strobeEdge s = .next (((s.strobed.recordCode s.readData (s.cdp.folds s.readData)).handEvent
      { time := s.rc.timeBase, body := .code s.readData (s.cdp.history.head?.map CodeEntry.code) }).raise .code) := by
  refine congrArg Host.Outcome.next (Eq.trans (if_pos hd) ?_)
  exact if_neg hi

/-- R99: what a capture does to the open record of a run with trace on. -/
def PendingCode.Recorded (p : Option PendingCode) (window : Nat) (folds : Prop) (code : Byte) (now : Nat) (ts : Ts)
    (p' : Option PendingCode) (ts' : Ts) : Prop :=
  (∀ q, p = some q → folds → p' = some { q with count := q.count + 1, last := now } ∧ ts' = ts) ∧
  (p = none ∨ ¬folds →
    (window ≠ 0 → p' = some { code, count := 1, first := now, last := now } ∧ (p = none → ts' = ts)) ∧
    (window = 0 → p' = none ∧ ∃ w ∈ ts'.input, w.record = ⟨now, .code code 1 now⟩) ∧
    ∀ q, p = some q → ∃ w ∈ ts'.input, w.record = ⟨q.first, .code q.code q.count q.last⟩)

theorem State.recordCode_recorded {s : State} (hl : s.live = true) (ht : s.cdp.settings.trace = true) (code : Byte)
    (folds : Bool) : PendingCode.Recorded s.cdp.pending s.cdp.settings.foldWindow (folds = true) code s.rc.timeBase s.ts
      (s.recordCode code folds).cdp.pending (s.recordCode code folds).ts := by
  refine ⟨fun q hq hf => ?_, fun hn => ?_⟩
  · subst hf
    rw [State.recordCode_of_folds hl ht hq]
    exact ⟨rfl, rfl⟩
  · rw [Bool.not_eq_true] at hn
    rw [State.recordCode_of_new hl ht hn]
    dsimp only
    refine ⟨fun hw => ?_, fun hw => ?_, fun q hq => ?_⟩
    · rw [if_neg hw, if_neg hw, List.append_nil]
      refine ⟨rfl, fun hp => ?_⟩
      rw [hp, Option.toList_none, List.map_nil, List.append_nil]
    · rw [if_pos hw, if_pos hw]
      exact ⟨rfl, _, List.mem_append_right _ (List.mem_singleton_self _), rfl⟩
    · rw [hq]
      exact ⟨_, List.mem_append_left _ (List.mem_append_right _ (List.mem_singleton_self _)), rfl⟩

/-! ## The blanking's end, and the samples of STB (R96) -/

theorem State.watchesStb_iff (s : State) : s.watchesStb = true ↔
    s.cdp.settings.enabled = true ∧ s.lau[(3 : Fin 4)].present = true ∧ s.cdp.blanking = none := by
  rw [State.watchesStb, Bool.and_eq_true, Bool.and_eq_true, Option.isNone_iff_eq_none, and_assoc]

theorem State.readStb_eq (s : State) : s.readStb = decide (s.lau[(3 : Fin 4)].threshold * 14 < s.pins.stb) := rfl

/-- R96: STB's sample as it changes the reference. -/
theorem State.sampleStb_eq (s : State) : s.sampleStb = s.setCdp { s.cdp with
    reference := if (s.cdp.settings.enabled = true ∧ s.lau[(3 : Fin 4)].present = true ∧ s.cdp.blanking = none) ∧
      ¬(s.readStb = decide (s.cdp.settings.strobe = .rising) ∧
        s.cdp.reference = some (!decide (s.cdp.settings.strobe = .rising))) then some s.readStb else s.cdp.reference } := by
  have hlevel : s.cdp.settings.edgeLevel = decide (s.cdp.settings.strobe = .rising) := rfl
  have hcond : (s.watchesStb && !s.strobeNow) = true ↔
      (s.cdp.settings.enabled = true ∧ s.lau[(3 : Fin 4)].present = true ∧ s.cdp.blanking = none) ∧
        ¬(s.readStb = decide (s.cdp.settings.strobe = .rising) ∧
        s.cdp.reference = some (!decide (s.cdp.settings.strobe = .rising))) := by
    rw [State.strobeNow, hlevel, Bool.and_eq_true, Bool.not_eq_true', ← Bool.not_eq_true, Bool.and_eq_true, Bool.and_eq_true,
      State.watchesStb_iff, beq_iff_eq, beq_iff_eq]
    tauto
  unfold State.sampleStb
  by_cases h : (s.watchesStb && !s.strobeNow) = true
  · rw [if_pos h, if_pos (hcond.mp h)]
  · rw [if_neg h, if_neg (hcond.not.mp h)]
    rfl

/-- R96: the end of a blanking, whose first sample becomes the reference. -/
theorem State.endStrobeBlanking_eq (s : State) : s.endStrobeBlanking = s.setCdp { s.cdp with
    blanking := none
    reference := if s.cdp.settings.enabled = true ∧ s.lau[(3 : Fin 4)].present = true then some s.readStb else none } := by
  have hw : (s.setCdp { s.cdp with blanking := none }).watchesStb = true ↔
      s.cdp.settings.enabled = true ∧ s.lau[(3 : Fin 4)].present = true :=
    (State.watchesStb_iff _).trans ⟨fun ⟨h1, h2, _⟩ => ⟨h1, h2⟩, fun ⟨h1, h2⟩ => ⟨h1, h2, rfl⟩⟩
  have hr : (s.setCdp { s.cdp with blanking := none }).freshReference =
      if s.cdp.settings.enabled = true ∧ s.lau[(3 : Fin 4)].present = true then some s.readStb else none :=
    if_congr hw rfl rfl
  unfold State.endStrobeBlanking
  dsimp only
  rw [hr]
  rfl

theorem State.strobeBlankingDue_of (s : State) {n : Nat} (hn : s.cdp.blanking = some n) :
    s.strobeBlankingDue = true ↔ n ≤ s.clock := by
  rw [State.strobeBlankingDue, hn]
  exact decide_eq_true_iff

theorem State.foldDue_of (s : State) {n : Nat} (hn : s.cdp.foldFrom = some n) :
    s.foldDue = true ↔ n + s.cdp.settings.foldWindow * 100000 ≤ s.clock := by
  rw [State.foldDue, hn]
  exact decide_eq_true_iff

/-- Settles O51, by the equations of a capture: what it does to the history and to the open record. -/
theorem codePortEvents : Obligations.CodePortEvents := by
  unfold Obligations.CodePortEvents
  refine ⟨fun s => ⟨s.readStb_eq, s.readData_bit⟩, fun s => ?_, fun s n hn => ⟨fun hlt => ?_, fun hle => ?_⟩,
    fun s n hn => ⟨fun hlt => ?_, fun hle => ⟨fun hp => ?_, fun p hp hl => ?_⟩⟩, fun s mv => ?_⟩
  · intro c level edge code now folds
    have hedge : edge ↔ s.strobeNow = true := by
      have hlevel : s.cdp.settings.edgeLevel = level := rfl
      rw [State.strobeNow, hlevel, Bool.and_eq_true, Bool.and_eq_true, State.watchesStb_iff, beq_iff_eq, beq_iff_eq]
      exact ⟨fun ⟨h1, h2, h3, h4, h5⟩ => ⟨⟨⟨h1, h2, h3⟩, h4⟩, h5⟩, fun ⟨⟨⟨h1, h2, h3⟩, h4⟩, h5⟩ => ⟨h1, h2, h3, h4, h5⟩⟩
    have hfolds : folds ↔ c.folds code = true := (c.folds_iff code).symm
    refine ⟨fun hn => congrArg Host.Outcome.next (if_neg (hn ∘ hedge.mpr)), fun he hi => ?_, fun he hi => ?_⟩
    · refine congrArg Host.Outcome.next ((if_pos (hedge.mp he)).trans ((if_pos hi).trans ?_))
      rw [← he.2.2.2.1]
    · have hf := s.strobed.recordCode_frame code (c.folds code)
      have hread : s.readStb = level := he.2.2.2.1
      have hmp := congrArg State.mp hf
      have hrc := congrArg State.rc hf
      have hcdp := congrArg State.cdp hf
      have hste := congrArg State.ste hf
      have hhist : (s.strobed.recordCode code (c.folds code)).cdp.history = c.historyAfter code := congrArg Cdp.history hcdp
      have hcdp' : (s.strobed.recordCode code (c.folds code)).cdp = { c with
          reference := some level
          history := (s.strobed.recordCode code (c.folds code)).cdp.history
          pending := (s.strobed.recordCode code (c.folds code)).cdp.pending
          foldFrom := if c.settings.foldWindow = 0 then none else some s.clock } := by
        rw [hhist, ← hread]
        exact hcdp
      refine ⟨_, State.strobeEdge_captured (hedge.mp he) hi, hmp, hrc, hcdp', fun h hs hfl hh => ?_, fun hnf => ?_,
        congrArg (fun x : Ste => { x with events :=
          x.events ++ [(⟨now, .code code (c.history.head?.map CodeEntry.code)⟩ : Event)] })
          hste, Fu.raise_sets _ .code, fun hoff => ?_,
        fun hl ht => ?_⟩
      · exact hhist.trans (Cdp.historyAfter_of_folds (hfolds.mp hfl) hh)
      · exact hhist.trans (Cdp.historyAfter_of_new (Bool.eq_false_iff.mpr (hnf ∘ hfolds.mpr)))
      · have hoff' := State.recordCode_of_off (s := s.strobed) hoff code (c.folds code)
        have hpending := congrArg (fun t : State => t.cdp.pending) hoff'
        have hts := congrArg State.ts hoff'
        exact ⟨hpending, hts⟩
      · rw [hfolds]
        exact State.recordCode_recorded (s := s.strobed) hl ht code (c.folds code)
  · exact congrArg Host.Outcome.next (if_neg (mt (s.strobeBlankingDue_of hn).mp (Nat.not_le.mpr hlt)))
  · exact congrArg Host.Outcome.next ((if_pos ((s.strobeBlankingDue_of hn).mpr hle)).trans s.endStrobeBlanking_eq)
  · exact congrArg Host.Outcome.next (if_neg (mt (s.foldDue_of hn).mp (Nat.not_le.mpr hlt)))
  · refine congrArg Host.Outcome.next ((if_pos ((s.foldDue_of hn).mpr hle)).trans ?_)
    unfold State.closeCode
    dsimp only [State.setCdp]
    rw [hp]
  · refine ⟨s.arriving .cdp p.record, rfl, congrArg Host.Outcome.next ((if_pos ((s.foldDue_of hn).mpr hle)).trans ?_)⟩
    refine (State.closeCode_of_live (by exact hl)).trans ?_
    rw [show (s.setCdp { s.cdp with foldFrom := none }).cdp.pending = some p from hp]
    rfl
  · intro raw level watched
    exact congrArg Host.Outcome.next (State.sampleStb_eq _)

end Sys2Proof.Machine

end


section
/-! The moments of the monitor channels: pins, acceptance, the end of a blanking (R83 to R85), and the samples of a rate
monitor (R91, R92). -/

namespace Sys2Proof.Machine

/-! ## A block's units one after another -/

/-- A fold that changes the entries of one vector, each entry once. -/
theorem foldl_entries {α : Type} {n : Nat} (put : Vector α n → State) (step : State → Fin n → State) (f : Fin n → α → α)
    (hstep : ∀ v k, step (put v) k = put (v.set k (f k v[k]) k.isLt)) {l : List (Fin n)} (hl : l.Nodup) (v : Vector α n) :
    l.foldl step (put v) = put (Vector.ofFn fun k => if k ∈ l then f k v[k] else v[k]) := by
  induction l generalizing v with
  | nil =>
    simp
  | cons j l ih =>
    obtain ⟨hj, hl⟩ := List.nodup_cons.1 hl
    rw [List.foldl_cons, hstep, ih hl]
    congr 2
    funext k
    by_cases hk : k = j
    · subst hk
      rw [if_neg hj, if_pos List.mem_cons_self]
      exact Vector.getElem_set_self k.isLt
    · have hval : (v.set j (f j v[j]) j.isLt)[k] = v[k] :=
        Vector.getElem_set_ne j.isLt k.isLt fun h => hk (Fin.ext h.symm)
      rw [hval]
      simp only [List.mem_cons, hk, false_or]

theorem vector_set_self {α : Type} {n : Nat} (v : Vector α n) (k : Fin n) : v.set k v[k] k.isLt = v := by
  ext i hi
  simp

/-! ## A sample of a rate monitor (R91, R92, R93) -/

/-- R91, R92: what one sample `raw` leaves of a monitor that reads its input where `reading`. -/
def Rm.Sampled (r : Rm) (reading : Prop) (raw : Bool) (u : Rm) : Prop :=
  (¬reading → u = r) ∧ (reading → r.last = none → u = { r with last := some raw }) ∧
  ∀ l, reading → r.last = some l →
    (r.settings.mode = .clock → u = { r with last := some raw, edges := r.edges + if raw = true ∧ l = false then 1 else 0 }) ∧
    (r.settings.mode = .tach → u = { r with last := some (raw || l) })

theorem Rm.sampled_of_not {r : Rm} {reading : Prop} (raw : Bool) (h : ¬reading) : r.Sampled reading raw r :=
  ⟨fun _ => rfl, fun hr => absurd hr h, fun _ hr => absurd hr h⟩

theorem Rm.sample_sampled (r : Rm) {reading : Prop} (raw : Bool) (h : reading) :
    r.Sampled reading raw (r.sample raw) := by
  refine ⟨absurd h, fun _ hn => ?_, fun l _ hl => ⟨fun hm => ?_, fun hm => ?_⟩⟩
  · rw [Rm.sample, hn]
  · rw [Rm.sample, hl, hm]
    cases raw <;> cases l <;> rfl
  · rw [Rm.sample, hl, hm]
    cases raw
    · cases r
      cases hl
      rfl
    · rfl

/-- R93: the monitor reads its input in this state. -/
def State.rmReading (s : State) (r : Rm) : Prop :=
  r.settings.enabled = true ∧ s.lau[chanBank r.settings.channel].present = true

/-- R91, R92: the samples of a channel's monitors. -/
theorem State.sampleChannel_eq (s : State) (c : Fin 24) : ∃ v, s.sampleChannel c = { s with rm := v } ∧
    ∀ m : Fin 4, s.rm[m].Sampled (s.rmReading s.rm[m] ∧ s.rm[m].settings.channel = c) (s.rawMc c) v[m] := by
  have hiff : ∀ r : Rm, (r.settings.enabled && s.lau[chanBank r.settings.channel].present) = true ∧ r.settings.channel = c ↔
      s.rmReading r ∧ r.settings.channel = c := fun r => by rw [Bool.and_eq_true, State.rmReading]
  have h := foldl_entries (fun v => { s with rm := v })
    (fun s m => if s.rmReads m ∧ s.rm[m].settings.channel = c then s.setRm m (s.rm[m].sample (s.rawMc c)) else s)
    (fun _ r => if (r.settings.enabled && s.lau[chanBank r.settings.channel].present) = true ∧ r.settings.channel = c then
      r.sample (s.rawMc c) else r) (fun v k => ?_) (List.nodup_finRange 4) s.rm
  · refine ⟨_, h, fun m => ?_⟩
    have hv : ∀ f : Fin 4 → Rm, (Vector.ofFn f)[m] = f m := fun f => Vector.getElem_ofFn m.isLt
    rw [hv, if_pos (List.mem_finRange m)]
    split
    · next hr => exact Rm.sample_sampled _ _ ((hiff _).mp hr)
    · next hr => exact Rm.sampled_of_not _ (mt (hiff _).mpr hr)
  · dsimp only
    by_cases hr : (v[k].settings.enabled && s.lau[chanBank v[k].settings.channel].present) = true ∧ v[k].settings.channel = c
    · rw [if_pos hr]
      exact if_pos hr
    · rw [if_neg hr, vector_set_self]
      exact if_neg hr

/-! ## Watching, and the moments of a channel -/

theorem State.watching_iff (s : State) (c : Fin 24) : s.watching c = true ↔
    s.mc[c].settings.enabled = true ∧ s.lau[chanBank c].present = true ∧ s.mc[c].blanking = none := by
  rw [State.watching, Bool.and_eq_true, Bool.and_eq_true, Option.isNone_iff_eq_none, and_assoc]

/-- R83: what a channel that watches makes of its raw input. -/
theorem Mc.watch_eq (m : Mc) (raw : Bool) (clock : Nat) :
    (raw = m.level → m.watch raw clock = { m with pending := none }) ∧
    (raw ≠ m.level → m.pending = none →
      m.watch raw clock = { m with pending := some { level := raw, t0 := clock, retimed := false } }) ∧
    (raw ≠ m.level → m.pending ≠ none → m.watch raw clock = m) := by
  obtain ⟨settings, level, pending, blanking⟩ := m
  unfold Mc.watch
  refine ⟨fun he => ?_, fun he hp => ?_, fun he hp => ?_⟩
  · cases pending <;> exact if_pos he
  · cases hp
    exact if_neg he
  · obtain ⟨p, rfl⟩ := Option.ne_none_iff_exists'.mp hp
    exact if_neg he

theorem State.watchChannel_eq (s : State) (c : Fin 24) : s.watchChannel c =
    s.setMc c (if s.watching c = true then s.mc[c].watch (s.rawMc c) s.clock else s.mc[c]) := by
  unfold State.watchChannel
  split
  · rfl
  · exact (congrArg (fun v => { s with mc := v }) (vector_set_self s.mc c)).symm

/-- R83, R91, R92: a move of a channel's pin. -/
theorem State.channelMoved (s : State) (c : Fin 24) (mv : Nat) : ∃ t, exec (.rawInputChange (.mc c) mv) s = .next t ∧
    t = { s with pins := { s.pins with mc := s.pins.mc.set c mv c.isLt }, mc := t.mc, rm := t.rm } ∧
    t.mc = s.mc.set c (if s.watching c = true then
      s.mc[c].watch (decide (s.lau[chanBank c].threshold * 14 < mv)) s.clock else s.mc[c]) c.isLt ∧
    ∀ m : Fin 4, s.rm[m].Sampled (s.rmReading s.rm[m] ∧ s.rm[m].settings.channel = c)
      (decide (s.lau[chanBank c].threshold * 14 < mv)) t.rm[m] := by
  have hraw : reads (s.pins.mc.set c mv c.isLt)[c] s.lau[chanBank c].threshold =
      decide (s.lau[chanBank c].threshold * 14 < mv) :=
    congrArg (fun x => decide (s.lau[chanBank c].threshold * 14 < x)) (Vector.getElem_set_self c.isLt)
  obtain ⟨v, hv, hs⟩ := State.sampleChannel_eq (({ s with
    pins := { s.pins with mc := s.pins.mc.set c mv c.isLt } } : State).watchChannel c) c
  rw [State.watchChannel_eq] at hv hs
  refine ⟨_, congrArg Host.Outcome.next
    ((congrArg (State.sampleChannel · c) (State.watchChannel_eq _ c)).trans hv), rfl, ?_, ?_⟩
  · rw [← hraw]
    rfl
  · rw [← hraw]
    exact hs

/-- R84: the state after an acceptance, but for its record. -/
def State.accepted (s : State) (c : Fin 24) (p : Transition) : State := { s with
  mc := s.mc.set c { s.mc[c] with level := p.level, pending := none } c.isLt
  ste := { s.ste with events := s.ste.events ++
    [{ time := s.edgeTime c, body := .edge c (if p.level then .rising else .falling) }] } }

theorem State.acceptTransition_eq (s : State) (c : Fin 24) (p : Transition) : s.acceptTransition c p =
    if s.live = true ∧ s.mc[c].settings.traces p.level = true then
      (s.accepted c p).enqueue (s.arriving (.mc c) { time := s.edgeTime c, body := .edge c p.level p.retimed })
    else s.accepted c p := by
  unfold State.acceptTransition
  dsimp only
  by_cases ht : s.mc[c].settings.traces p.level = true
  · rw [if_pos ht]
    by_cases hl : s.live = true
    · rw [if_pos ⟨hl, ht⟩]
      exact State.hand_of_live _ _ hl
    · rw [if_neg fun h => hl h.1]
      exact State.hand_of_idle _ _ (Bool.eq_false_iff.mpr hl)
  · rw [if_neg ht, if_neg fun h => ht h.2]
    rfl

theorem Mc.acceptDue_of {m : Mc} {p : Transition} (hp : m.pending = some p) (clock : Nat) :
    m.acceptDue clock = true ↔ p.t0 + m.settings.debounce * 100 ≤ clock := by
  rw [Mc.acceptDue, hp]
  exact decide_eq_true_iff

theorem Mc.blankingDue_of {m : Mc} {n : Nat} (hn : m.blanking = some n) (clock : Nat) :
    m.blankingDue clock = true ↔ n ≤ clock := by
  rw [Mc.blankingDue, hn]
  exact decide_eq_true_iff

theorem Mc.blankingEnd_eq (m : Mc) (raw : Bool) (clock : Nat) : m.blankingEnd raw clock = { m with
    blanking := none
    pending := if m.settings.enabled = true ∧ raw ≠ m.level then some { level := raw, t0 := clock, retimed := true }
      else m.pending } := by
  unfold Mc.blankingEnd
  split <;> rfl

/-- Settles O48, by the equations of watching, of a sample and of an acceptance. -/
theorem channelEvents : Obligations.ChannelEvents := by
  unfold Obligations.ChannelEvents
  refine ⟨fun s c mv => ?_, fun s mv => ⟨fun _ => rfl, rfl, fun _ => rfl⟩, fun s c p hp => ?_, fun s c n hn => ?_⟩
  · obtain ⟨t, hex, hframe, hmc, hrm⟩ := s.channelMoved c mv
    have hself : t.mc[c] = _ := (congrArg (fun v : Vector Mc 24 => v[c]) hmc).trans (Vector.getElem_set_self c.isLt)
    refine ⟨t, hex, hframe, fun d hd => ?_, fun m hm => (hrm m).1 fun h => hm h.2, ?_⟩
    · exact (congrArg (fun v : Vector Mc 24 => v[d]) hmc).trans
        (Vector.getElem_set_ne c.isLt d.isLt fun h => hd (Fin.ext h.symm))
    intro raw watched
    obtain ⟨hback, hopen, hstay⟩ := s.mc[c].watch_eq raw s.clock
    have hw : watched ↔ s.watching c = true := (s.watching_iff c).symm
    refine ⟨fun m hm => ?_, fun h => hself.trans (if_neg (mt hw.mpr h)), fun h he => ?_, fun h he hp => ?_, fun h he hp => ?_⟩
    · intro r reads
      have hr : reads ↔ s.rmReading s.rm[m] ∧ s.rm[m].settings.channel = c := by
        subst hm
        exact (and_iff_left rfl).symm
      rw [hr]
      exact hrm m
    · exact (hself.trans (if_pos (hw.mp h))).trans (hback he)
    · exact (hself.trans (if_pos (hw.mp h))).trans (hopen he hp)
    · exact (hself.trans (if_pos (hw.mp h))).trans (hstay he hp)
  · intro hold
    have hexec : exec (.transitionAccepted c) s =
        .next (if s.mc[c].acceptDue s.clock then s.acceptTransition c p else s) := by
      show Host.Outcome.next (match s.mc[c].pending with | some p => _ | none => _) = _
      rw [hp]
    have hdue := s.mc[c].acceptDue_of hp s.clock
    refine ⟨fun hlt => ?_, fun hle => ?_⟩
    · rw [hexec, if_neg (mt hdue.mp (Nat.not_le.mpr hlt))]
    · intro e traced t live
      have ht : s.mc[c].settings.traces p.level = traced := rfl
      rw [hexec, if_pos (hdue.mpr hle), State.acceptTransition_eq, ht]
      refine ⟨fun h => congrArg Host.Outcome.next (if_neg fun h' => ?_),
        fun hl htr => congrArg Host.Outcome.next (if_pos ⟨(State.live_iff s).mpr hl, htr⟩)⟩
      rcases h with h | h
      · exact h ((State.live_iff s).mp h'.1)
      · rw [h] at h'
        exact absurd h'.2 Bool.false_ne_true
  · have hdue := s.mc[c].blankingDue_of hn s.clock
    refine ⟨fun hlt => congrArg Host.Outcome.next (if_neg (mt hdue.mp (Nat.not_le.mpr hlt))), fun hle => ?_⟩
    intro pending
    exact congrArg Host.Outcome.next ((if_pos (hdue.mpr hle)).trans (congrArg (s.setMc c) (Mc.blankingEnd_eq _ _ _)))

end Sys2Proof.Machine

end


section
/-! The moments of the rate monitors (R90 to R94). -/

namespace Sys2Proof.Machine

/-! ## A candidate judged (R90) -/

theorem agreementNeeded_eq (mode : RateMode) (c : RateState) :
    agreementNeeded mode c = if c = .stall then 1 else if c = .ok ∧ mode = .clock then 4 else 2 := by
  cases c <;> cases mode <;> rfl

/-- R90: what the judgement of a candidate leaves. -/
def Rm.afterCandidate (r : Rm) (c : RateState) : Rm :=
  let need := if c = .stall then 1 else if c = .ok ∧ r.settings.mode = .clock then 4 else 2
  let n := if r.candidate = some c then r.agreement + 1 else 1
  if c = r.state then { r with candidate := none, agreement := 0 }
  else if need ≤ n then { r with state := c, candidate := none, agreement := 0 }
  else { r with candidate := some c, agreement := n }

theorem Rm.judge_eq (r : Rm) (c : RateState) : r.judge c = r.afterCandidate c := by
  unfold Rm.judge Rm.afterCandidate
  rw [agreementNeeded_eq]

/-- R92: the candidate of a gate's count. -/
theorem RateSettings.clockCandidate_eq (r : RateSettings) (count : Nat) : r.clockCandidate count =
    if count = 0 then .stall else if min 50000 count + r.tolerance < r.expected then .low
      else if r.expected + r.tolerance < min 50000 count then .high else .ok := rfl

/-- R91: the reading of a revolution that took time. -/
theorem tachReading_of_pos {ticks : Nat} (h : 0 < ticks) : tachReading ticks = min 65535 (6000000000 / ticks) :=
  if_neg h.ne'

/-! ## A change of state reported (R94) -/

/-- R94: what the report of monitor `m`'s new state `u` leaves. -/
def State.Reported (s t : State) (m : Fin 4) (u : Rm) : Prop :=
  t.rm = s.rm.set m u m.isLt ∧
  (u.state = s.rm[m].state → t = { s with rm := t.rm }) ∧
  (u.state ≠ s.rm[m].state → t.fu.flags.getLsbD 9 = true ∧ t.mp = s.mp ∧
    t.ste.events = s.ste.events ++ [⟨s.rc.timeBase, .rate m u.state s.rm[m].state⟩] ∧
    (s.rc.runState = .armed ∨ s.rc.runState = .running →
      ∃ w ∈ t.ts.input, w.record = ⟨s.rc.timeBase, .rate m u.state u.reading u.settings.mode⟩))

/-- R94: a report, in the order of `State.updateRm`. -/
theorem State.updateRm_eq (s : State) (m : Fin 4) (u : Rm) : s.updateRm m u =
    if u.state = s.rm[m].state then s.setRm m u
    else (((s.setRm m u).handEvent { time := s.rc.timeBase, body := .rate m u.state s.rm[m].state }).raise .rate).hand (.rm m)
      { time := s.rc.timeBase, body := .rate m u.state u.reading u.settings.mode } := by
  have hself : (s.setRm m u).rm[m] = u := Vector.getElem_set_self m.isLt
  unfold State.updateRm State.reportRate
  rw [hself]
  rfl

theorem State.updateRm_reported (s : State) (m : Fin 4) (u : Rm) : s.Reported (s.updateRm m u) m u := by
  rw [State.updateRm_eq]
  split
  · next h => exact ⟨rfl, fun _ => rfl, fun hne => absurd h hne⟩
  · next h =>
    refine ⟨by rw [State.hand_rm]; rfl, fun he => absurd he h, fun _ => ⟨?_, by rw [State.hand_mp]; rfl, ?_, fun hlive => ?_⟩⟩
    · rw [State.hand_fu]
      exact Fu.raise_sets _ .rate
    · rw [State.hand_ste]
      rfl
    · rw [State.hand_of_live _ _ (by exact State.live_of hlive)]
      exact ⟨_, List.mem_append_right _ (List.mem_singleton_self _), rfl⟩

/-! ## The moments -/

theorem State.tachEdge_of {s : State} {m : Fin 4} (he : s.rm[m].settings.enabled = true)
    (hm : s.rm[m].settings.mode = .tach) (hp : s.lau[chanBank s.rm[m].settings.channel].present = true)
    (hl : s.rm[m].last = some true) (hr : s.rawMc s.rm[m].settings.channel = false) : s.tachEdge m = true := by
  rw [State.tachEdge, State.rmReads, he, hp, hm, hl, hr]
  rfl

theorem Rm.stallDue_of {r : Rm} {n : Nat} (he : r.settings.enabled = true) (hm : r.settings.mode = .tach)
    (hn : r.stallFrom = some n) (clock : Nat) : r.stallDue clock = true ↔ n + r.settings.stall * 100000 ≤ clock := by
  rw [Rm.stallDue, he, hm, hn]
  exact decide_eq_true_iff

theorem Rm.gateDue_of {r : Rm} (he : r.settings.enabled = true) (hm : r.settings.mode = .clock) (clock : Nat) :
    r.gateDue clock = true ↔ r.gateStart + 100000 ≤ clock := by
  rw [Rm.gateDue, he, hm]
  exact decide_eq_true_iff

/-- R91: a falling edge with no revolution opens one. -/
theorem Rm.fallingEdge_of_none {r : Rm} (h : r.revolution = none) (clock : Nat) : r.fallingEdge clock = { r with
    last := some false, stallFrom := some clock, revolution := some { opened := clock, periods := 0 } } := by
  unfold Rm.fallingEdge
  dsimp only
  rw [h]

/-- R91: a falling edge within a revolution counts a period, and the last of them closes it with a reading. -/
theorem Rm.fallingEdge_of_some {r : Rm} {v : Revolution} (h : r.revolution = some v) (clock : Nat) : r.fallingEdge clock =
    let r1 := { r with last := some false, stallFrom := some clock }
    if v.periods + 1 < r.settings.ppr then { r1 with revolution := some { v with periods := v.periods + 1 } }
    else { r1 with
      reading := tachReading (clock - v.opened), revolution := some { opened := clock, periods := 0 } }.judge
        (r.settings.tachCandidate (tachReading (clock - v.opened))) := by
  unfold Rm.fallingEdge
  dsimp only
  rw [h]

/-- Settles O49, by the report of a new state and the judgement of a candidate. -/
theorem rateMonitorEvents : Obligations.RateMonitorEvents := by
  unfold Obligations.RateMonitorEvents
  refine ⟨fun s m => ?_, fun s m n => ?_, fun s m => ?_⟩
  · intro r he hm hp hl hr
    refine ⟨_, _, congrArg Host.Outcome.next (if_pos (State.tachEdge_of he hm hp hl hr)), s.updateRm_reported m _, ?_⟩
    intro r1
    refine ⟨fun hn => Rm.fallingEdge_of_none hn _, fun v hv hlt => ?_, fun v hv hle hpos => ?_⟩
    · exact (Rm.fallingEdge_of_some hv _).trans (if_pos hlt)
    · intro reading
      have hreading : tachReading (s.clock - v.opened) = reading := tachReading_of_pos (Nat.sub_pos_of_lt hpos)
      refine (Rm.fallingEdge_of_some hv _).trans ((if_neg (Nat.not_lt.mpr hle)).trans ?_)
      rw [hreading]
      exact Rm.judge_eq _ _
  · intro r he hm hn
    have hdue := Rm.stallDue_of he hm hn s.clock
    exact ⟨fun hlt => congrArg Host.Outcome.next (if_neg (mt hdue.mp (Nat.not_le.mpr hlt))),
      fun hle => ⟨_, congrArg Host.Outcome.next (if_pos (hdue.mpr hle)), s.updateRm_reported m _⟩⟩
  · intro r he hm
    have hdue := Rm.gateDue_of he hm s.clock
    refine ⟨fun hlt => congrArg Host.Outcome.next (if_neg (mt hdue.mp (Nat.not_le.mpr hlt))),
      fun hle => ⟨_, _, congrArg Host.Outcome.next (if_pos (hdue.mpr hle)), s.updateRm_reported m _, ?_⟩⟩
    intro r1
    refine ⟨fun hv => if_pos hv, fun hv => ?_⟩
    intro reading
    exact (if_neg (ne_true_of_eq_false hv)).trans (Rm.judge_eq _ _)

end Sys2Proof.Machine

end


section
/-! The successive approximation of an acquisition (R72). -/

namespace Sys2Proof.Machine

/-! ## The position within an acquisition -/

section
variable {a : Acq} {i x : Nat}

theorem Acq.decision_of (he : a.elapsed = a.s0 + i * (a.samples + a.s1) + x) (hx : x < a.samples + a.s1) :
    a.decision = i := by
  rw [Acq.decision, he, Nat.add_assoc, Nat.add_sub_cancel_left, Nat.add_comm, Nat.add_mul_div_right _ _ (by omega),
    Nat.div_eq_of_lt hx, Nat.zero_add]

theorem Acq.inDecision_of (he : a.elapsed = a.s0 + i * (a.samples + a.s1) + x) (hx : x < a.samples + a.s1) :
    a.inDecision = x := by
  rw [Acq.inDecision, he, Nat.add_assoc, Nat.add_sub_cancel_left, Nat.add_comm, Nat.add_mul_mod_self_right, Nat.mod_eq_of_lt hx]

/-- R72: the samples above after one more sample of a trial. -/
def Acq.sampled (a : Acq) (mv trial : Nat) (noise : Bool) : Nat :=
  a.above + if trial * 14 < mv ∨ (mv = trial * 14 ∧ noise = true) then 1 else 0

theorem samplesAbove_iff (mv trial : Nat) (noise : Bool) :
    samplesAbove mv trial noise = true ↔ trial * 14 < mv ∨ (mv = trial * 14 ∧ noise = true) := by
  rw [samplesAbove, Bool.or_eq_true, Bool.and_eq_true, beq_iff_eq, reads, decide_eq_true_eq]
  rfl

/-- R72: a tick within the samples of decision `i`. -/
theorem Acq.tick_sample (he : a.elapsed = a.s0 + i * (a.samples + a.s1) + x) (hx : x < a.samples) (mv : Nat) (noise : Bool) :
    a.tick mv noise =
      if x + 1 = a.samples then { a with
        elapsed := a.elapsed + 1
        above := 0
        result := if a.samples < 2 * a.sampled mv (a.result + 2 ^ (7 - i)) noise then a.result + 2 ^ (7 - i) else a.result }
      else { a with elapsed := a.elapsed + 1, above := a.sampled mv (a.result + 2 ^ (7 - i)) noise } := by
  have hin : a.inDecision = x := Acq.inDecision_of he (by omega)
  have htrial : a.trial = a.result + 2 ^ (7 - i) := by rw [Acq.trial, Acq.decision_of he (by omega)]
  have hcond : a.s0 ≤ a.elapsed ∧ a.inDecision < a.samples := ⟨by omega, by omega⟩
  have hsampled : (a.above + if samplesAbove mv a.trial noise then 1 else 0) = a.sampled mv (a.result + 2 ^ (7 - i)) noise := by
    rw [htrial, Acq.sampled]
    exact congrArg (a.above + ·) (if_congr (samplesAbove_iff _ _ _) rfl rfl)
  unfold Acq.tick
  rw [if_pos hcond]
  dsimp only
  rw [hsampled, hin, htrial]

/-- R72: a tick outside the samples of a decision. -/
theorem Acq.tick_wait (h : a.elapsed < a.s0 ∨ a.samples ≤ a.inDecision) (mv : Nat) (noise : Bool) :
    a.tick mv noise = { a with elapsed := a.elapsed + 1 } := by
  unfold Acq.tick
  exact if_neg fun hc => by omega

end

/-! ## What the decisions have settled -/

/-- R72: with `k` bits undecided the reference `mv` is at or above the result so far, and not above what the undecided bits can
still add, but for the code 255. -/
def Brackets (mv k result : Nat) : Prop :=
  result * 14 ≤ mv ∧ (mv ≤ (result + 2 ^ k) * 14 ∨ result + 2 ^ k = 256) ∧ result + 2 ^ k ≤ 256

theorem Brackets.start (mv : Nat) : Brackets mv 8 0 := ⟨by omega, Or.inr rfl, le_rfl⟩

/-- R72: a decision brackets the reference further: the bit is kept where the reference is at or above the trial, and left
where it is at or below. -/
theorem Brackets.decide {mv k result : Nat} {keep : Prop} [Decidable keep] (h : Brackets mv (k + 1) result)
    (hkeep : keep → (result + 2 ^ k) * 14 ≤ mv) (hleave : ¬keep → mv ≤ (result + 2 ^ k) * 14) :
    Brackets mv k (if keep then result + 2 ^ k else result) := by
  obtain ⟨hlow, hhigh, htop⟩ := h
  rw [pow_succ] at hhigh htop
  split
  · next hk => exact ⟨hkeep hk, by omega, by omega⟩
  · next hk => exact ⟨hlow, Or.inl (hleave hk), by omega⟩

/-- R72: with every bit decided the result is the code of the reference, or the one below where it is a code's voltage
exactly. -/
theorem Brackets.result {mv result : Nat} (h : Brackets mv 0 result) :
    result = min 255 ((mv - 1) / 14) ∨ result = min 255 (mv / 14) := by
  obtain ⟨hlow, hhigh, htop⟩ := h
  rw [pow_zero] at hhigh htop
  omega

/-! ## The phases of an acquisition -/

/-- R72: where an acquisition of the reference `mv` stands. -/
inductive Acq.Phase (mv : Nat) (a : Acq) : Prop
  | waiting (he : a.elapsed < a.s0) (hr : a.result = 0) (ha : a.above = 0)
  | deciding (i x : Nat) (hi : i < 8) (hx : x < a.samples) (he : a.elapsed = a.s0 + i * (a.samples + a.s1) + x)
      (hr : Brackets mv (8 - i) a.result) (hall : (a.result + 2 ^ (7 - i)) * 14 < mv → a.above = x)
      (hnone : mv < (a.result + 2 ^ (7 - i)) * 14 → a.above = 0)
  | settling (i x : Nat) (hi : i < 8) (hx : x < a.s1) (he : a.elapsed = a.s0 + i * (a.samples + a.s1) + (a.samples + x))
      (hr : Brackets mv (7 - i) a.result) (ha : a.above = 0)
  | finished (he : a.elapsed = a.s0 + 8 * (a.samples + a.s1)) (hr : Brackets mv 0 a.result)

section
variable {a : Acq} {mv : Nat}

/-- The beginning of decision `i`, or the end of the acquisition. -/
theorem Acq.Phase.ofStart (hf : 1 ≤ a.factor) {i : Nat} (hi : i ≤ 8) (he : a.elapsed = a.s0 + i * (a.samples + a.s1))
    (hr : Brackets mv (8 - i) a.result) (ha : a.above = 0) : a.Phase mv := by
  by_cases h : i = 8
  · subst h
    exact .finished he hr
  · exact .deciding i 0 (by omega) (by rw [Acq.samples]; omega) he hr (fun _ => ha) (fun _ => ha)

/-- The wait after decision `i`, or its end. -/
theorem Acq.Phase.ofWait (hf : 1 ≤ a.factor) {i x : Nat} (hi : i < 8) (hx : x ≤ a.s1)
    (he : a.elapsed = a.s0 + i * (a.samples + a.s1) + (a.samples + x)) (hr : Brackets mv (7 - i) a.result) (ha : a.above = 0) :
    a.Phase mv := by
  by_cases h : x = a.s1
  · refine .ofStart hf (i := i + 1) hi ?_ (by rwa [show 8 - (i + 1) = 7 - i by omega]) ha
    rw [he, h, Nat.succ_mul, Nat.add_assoc]
  · exact .settling i x hi (by omega) he hr ha

/-- R72: each tick leads to the next phase. -/
theorem Acq.Phase.tick (hf : 1 ≤ a.factor) (h : a.Phase mv) (hn : a.elapsed < a.s0 + 8 * (a.samples + a.s1)) (noise : Bool) :
    (a.tick mv noise).Phase mv := by
  cases h with
  | waiting he hr ha =>
    rw [Acq.tick_wait (Or.inl he)]
    by_cases h : a.elapsed + 1 = a.s0
    · exact .ofStart hf (i := 0) (by omega) (by simpa using h) (by simpa [hr] using Brackets.start mv) ha
    · exact .waiting (Nat.lt_of_le_of_ne he h) hr ha
  | deciding i x hi hx he hr hall hnone =>
    have hk : 8 - i = 7 - i + 1 := by omega
    rw [Acq.tick_sample he hx]
    split
    · next hlast =>
      refine .ofWait hf (i := i) (x := 0) hi (Nat.zero_le _) ?_ ?_ rfl
      · show a.elapsed + 1 = a.s0 + i * (a.samples + a.s1) + (a.samples + 0)
        omega
      · refine Brackets.decide (hk ▸ hr) (fun hkeep => ?_) (fun hleave => ?_)
        · by_contra hlt
          have := hnone (by omega)
          rw [Acq.sampled, if_neg (by omega)] at hkeep
          omega
        · by_contra hlt
          have := hall (by omega)
          rw [Acq.sampled, if_pos (Or.inl (by omega))] at hleave
          omega
    · next hlast =>
      refine .deciding i (x + 1) hi (by show x + 1 < a.samples; omega) (by show a.elapsed + 1 = _; rw [he]; rfl) hr
        (fun hlt => ?_) (fun hlt => ?_)
      · show a.sampled mv _ noise = x + 1
        rw [Acq.sampled, if_pos (Or.inl hlt), hall hlt]
      · have hlt' : mv < (a.result + 2 ^ (7 - i)) * 14 := hlt
        show a.sampled mv _ noise = 0
        rw [Acq.sampled, if_neg (by omega), hnone hlt']
  | settling i x hi hx he hr ha =>
    rw [Acq.tick_wait (Or.inr (by rw [Acq.inDecision_of he (by omega)]; omega))]
    exact .ofWait hf (i := i) (x := x + 1) hi hx (by show a.elapsed + 1 = _; rw [he]; rfl) hr ha
  | finished he hr => omega

end

/-! ## A whole acquisition -/

/-- R72: an acquisition after its first `n` ticks. -/
def Acq.run (kind : AcqKind) (r : BankSettings) (mv : Nat) (noise : Nat → Bool) (n : Nat) : Acq :=
  (List.range n).foldl (fun (a : Acq) k => a.tick mv (noise k)) (Acq.begin kind r)

theorem Acq.tick_elapsed (a : Acq) (mv : Nat) (noise : Bool) : (a.tick mv noise).elapsed = a.elapsed + 1 ∧
    (a.tick mv noise).s0 = a.s0 ∧ (a.tick mv noise).s1 = a.s1 ∧ (a.tick mv noise).factor = a.factor := by
  unfold Acq.tick
  dsimp only
  split
  · split <;> exact ⟨rfl, rfl, rfl, rfl⟩
  · exact ⟨rfl, rfl, rfl, rfl⟩

section
variable (kind : AcqKind) (r : BankSettings) (mv : Nat) (noise : Nat → Bool)

theorem Acq.run_succ (n : Nat) : Acq.run kind r mv noise (n + 1) = (Acq.run kind r mv noise n).tick mv (noise n) := by
  rw [Acq.run, List.range_succ, List.foldl_append]
  rfl

theorem Acq.run_elapsed (n : Nat) : (Acq.run kind r mv noise n).elapsed = n ∧ (Acq.run kind r mv noise n).s0 = r.s0 ∧
    (Acq.run kind r mv noise n).s1 = r.s1 ∧ (Acq.run kind r mv noise n).factor = r.factor := by
  induction n with
  | zero => exact ⟨rfl, rfl, rfl, rfl⟩
  | succ n ih =>
    obtain ⟨he, h0, h1, hf⟩ := ih
    rw [Acq.run_succ]
    obtain ⟨he', h0', h1', hf'⟩ := Acq.tick_elapsed (Acq.run kind r mv noise n) mv (noise n)
    exact ⟨he'.trans (congrArg (· + 1) he), h0'.trans h0, h1'.trans h1, hf'.trans hf⟩

/-- R72: an acquisition passes through its phases up to its end. -/
theorem Acq.run_phase (hf : 1 ≤ r.factor) (n : Nat) (hn : n ≤ r.s0 + 8 * (16 * r.factor + r.s1)) :
    (Acq.run kind r mv noise n).Phase mv := by
  induction n with
  | zero =>
    by_cases h : r.s0 = 0
    · refine .ofStart hf (i := 0) (by omega) ?_ (Brackets.start mv) rfl
      show 0 = r.s0 + 0 * _
      omega
    · exact .waiting (Nat.pos_of_ne_zero h) rfl rfl
  | succ n ih =>
    obtain ⟨he, h0, h1, hfac⟩ := Acq.run_elapsed kind r mv noise n
    rw [Acq.run_succ]
    refine (ih (by omega)).tick (hfac ▸ hf) ?_ _
    rw [he, h0, h1, Acq.samples, hfac]
    omega

/-- Settles O46, by the phases of an acquisition and what its decisions bracket. -/
theorem acquisitionMeasures : Obligations.AcquisitionMeasures := by
  unfold Obligations.AcquisitionMeasures
  refine ⟨fun kind r mv noise hf => ?_, fun a mv i noise hf hi he => ?_⟩
  · intro after n
    have hdone : ∀ k, (after k).done = true ↔ n ≤ k := fun k => by
      obtain ⟨he, h0, h1, hfac⟩ := Acq.run_elapsed kind r mv noise k
      show (Acq.run kind r mv noise k).done = true ↔ _
      rw [Acq.done_iff, he, h0, h1, hfac]
    refine ⟨fun k hk => Bool.eq_false_iff.mpr (mt (hdone k).mp (Nat.not_le.mpr hk)), (hdone n).mpr le_rfl, ?_⟩
    obtain ⟨he, h0, h1, hfac⟩ := Acq.run_elapsed kind r mv noise n
    have hsam : (Acq.run kind r mv noise n).samples = 16 * r.factor := congrArg (16 * ·) hfac
    cases Acq.run_phase kind r mv noise hf n le_rfl with
    | finished _ hr => exact hr.result
    | waiting he' => exact absurd he' (by rw [he, h0]; omega)
    | deciding i x hi hx he' =>
      rw [he, h0, h1, hsam] at he'
      rw [hsam] at hx
      have := Nat.mul_le_mul_right (16 * r.factor + r.s1) (show i ≤ 7 by omega)
      omega
    | settling i x hi hx he' =>
      rw [he, h0, h1, hsam] at he'
      rw [h1] at hx
      have := Nat.mul_le_mul_right (16 * r.factor + r.s1) (show i ≤ 7 by omega)
      omega
  · intro trial above
    have hs : a.samples = 16 * a.factor := rfl
    have hpos : a.elapsed = a.s0 + i * (a.samples + a.s1) + (a.samples - 1) := by rw [he, hs]; omega
    rw [Acq.tick_sample hpos (by omega), if_pos (by omega)]
    refine ⟨if_congr ?_ rfl rfl, rfl⟩
    show a.samples < 2 * above ↔ 8 * a.factor < above
    omega

end

end Sys2Proof.Machine

end


section
/-! The take of a waiting record, mode by mode, in closed form (R51 to R53, R59 to R65), and TRIGGER and MARK (R63, R68). -/

namespace Sys2Proof.Machine

/-! ## Which record may be taken (R52, R63) -/

theorem RecBody.isArmed_iff (b : RecBody) : b.isArmed = true ↔ ∃ src, b = .runArmed src := by
  cases b <;> simp [RecBody.isArmed]

theorem RecBody.isTrig_iff (b : RecBody) : b.isTrig = true ↔ ∃ src, b = .trig src := by
  cases b <;> simp [RecBody.isTrig]

theorem RecBody.isEnded_iff (b : RecBody) : b.isEnded = true ↔ ∃ src c v ff, b = .runEnded src c v ff := by
  cases b <;> simp [RecBody.isEnded]

theorem Waiting.mayPass_iff (w e : Waiting) : w.mayPass e = true ↔
    ¬e.record.body.isArmed = true ∧ (w.record.body.isTrig = true ∨ (w.reached = e.reached ∧ w.source ≠ e.source ∧
      ¬w.record.body.isEnded = true ∧ ¬(w.endWork = true ∧ e.source = .run) ∧
      ¬(e.record.body.isTrig = true ∧ w.source = .run))) := by
  simp only [Waiting.mayPass, Bool.and_eq_true, Bool.or_eq_true, Bool.not_eq_true', beq_iff_eq, bne_iff_ne, ← Bool.not_eq_true,
    and_assoc]

theorem Waiting.mayPrecede_iff (w e : Waiting) : w.mayPrecede e = true ↔
    (e.record.body.isTrig = true → w.record.body.isTrig = true ∨ w.record.body.isArmed = true ∨ w.reached = e.reached) := by
  simp only [Waiting.mayPrecede, Bool.or_eq_true, Bool.not_eq_true', beq_iff_eq, ← Bool.not_eq_true]
  tauto

theorem Ts.mayTake_iff {t : Ts} (ha : t.admitted = false) (clock k : Nat) : t.mayTake clock k = true ↔
    t.nextTake ≤ clock ∧ ∃ w, t.input[k]? = some w ∧ (∀ e ∈ t.input.take k, w.mayPass e = true) ∧
      ∀ e ∈ t.input, w.mayPrecede e = true := by
  refine ⟨Ts.mayTake_spec ha, fun ⟨hn, w, hw, hpass, hprec⟩ => ?_⟩
  unfold Ts.mayTake
  simp only [hw, ha, Bool.false_eq_true, if_false, Bool.and_eq_true, decide_eq_true_eq, List.all_eq_true]
  exact ⟨hn, hpass, hprec⟩

/-! ## A take, from the record taken to the moment of the next take (R52) -/

/-- R52: the TS takes its next record at tick `n` or later. -/
def State.nextAt (s : State) (n : Nat) : State := s.setTs { s.ts with nextTake := n }

theorem State.raiseIf_nextAt (s : State) (c : Bool) (f : Flag) (n : Nat) :
    (s.raiseIf c f).nextAt n = (s.nextAt n).raiseIf c f := by cases c <;> rfl

section
variable {s : State} {k : Nat} {w : Waiting}

theorem State.recordTake_gap (hmay : s.ts.mayTake s.clock k = true) (hk : s.ts.input[k]? = some w) (hg : s.ts.gapDue w) :
    exec (.recordTake k) s = .next (s.takeGap k w) :=
  congrArg Host.Outcome.next ((if_pos hmay).trans ((s.takeWaiting_cases k w hk).1 hg))

/-- R52: the take of a record that no GAP goes ahead of. -/
theorem State.recordTake_taken (hmay : s.ts.mayTake s.clock k = true) (hk : s.ts.input[k]? = some w) (hg : ¬s.ts.gapDue w) :
    exec (.recordTake k) s = .next (
      let u := s.takenRecord k w
      let v := u.nextAt (s.clock + (u.ts.nextSeq - s.ts.nextSeq))
      if w.awaited then s.beside (v.answerMark (u.ts.nextSeq != s.ts.nextSeq) (u.ts.nextSeq - 1)) else v) :=
  congrArg Host.Outcome.next ((if_pos hmay).trans ((s.takeWaiting_cases k w hk).2 hg))

/-- R52: the take of a record that no request awaits, with the numbers it gave out. -/
theorem State.recordTake_to (hmay : s.ts.mayTake s.clock k = true) (hk : s.ts.input[k]? = some w) (hg : ¬s.ts.gapDue w)
    (hw : w.awaited = false) {x : State} (d : Nat) (hx : s.takenRecord k w = x) (hd : x.ts.nextSeq = s.ts.nextSeq + d) :
    exec (.recordTake k) s = .next (x.nextAt (s.clock + d)) := by
  subst hx
  rw [State.recordTake_taken hmay hk hg, hw]
  dsimp only
  rw [if_neg Bool.false_ne_true, hd, Nat.add_sub_cancel_left]

theorem State.takenRecord_of_admitted (ha : s.ts.admitted = true) :
    s.takenRecord k w = (s.setTs { s.ts with input := s.ts.input.eraseIdx k }).takeAdmitted w.record := if_pos ha

theorem State.takenRecord_of_not (ha : s.ts.admitted = false) :
    s.takenRecord k w = (s.setTs { s.ts with input := s.ts.input.eraseIdx k }).takeRecord w.record :=
  if_neg (ne_true_of_eq_false ha)

/-- R59 to R64: an ordinary record is taken by the rule of the mode. -/
theorem State.takeRecord_ordinary {r : Rec} (s : State) (hne : ∀ src c v ff, r.body ≠ .runEnded src c v ff)
    (hnt : ∀ src, r.body ≠ .trig src) : s.takeRecord r = s.takeOrdinary r := by
  unfold State.takeRecord
  split
  · next h => exact absurd h (hne _ _ _ _)
  · next h => exact absurd h (hnt _)
  · rfl

theorem State.takeRecord_ended {r : Rec} (s : State) (h : r.closesRun) :
    s.takeRecord r = s.accept s.ts.occupancy r := by
  obtain ⟨_, _, _, _, hb⟩ := h
  unfold State.takeRecord
  rw [hb]

theorem State.takeRecord_trig {r : Rec} (s : State) (h : r.isTrigger) : s.takeRecord r = s.takeTrig r := by
  obtain ⟨_, hb⟩ := h
  unfold State.takeRecord
  rw [hb]

/-! ## Acceptance and eviction -/

/-- R51, R53, R60, R65: a record accepted behind the records `kept` of `occ` units, the occupancy having been `before`. -/
def State.put (s : State) (before : Nat) (kept : List Stored) (occ : Nat) (r : Rec) : State :=
  ({ s with ts := { s.ts with
      records := kept ++ [⟨s.ts.nextSeq, r⟩], occupancy := occ + r.units, nextSeq := s.ts.nextSeq + 1 } } : State).raiseIf
    (decide (before < s.ts.active.watermark ∧ s.ts.active.watermark ≤ occ + r.units)) .storeHigh

theorem State.accept_put (s : State) (before : Nat) (r : Rec) :
    s.accept before r = s.put before s.ts.records s.ts.occupancy r := by
  unfold State.put
  rw [Bool.decide_and]
  rfl

theorem State.put_nextSeq (s : State) (before : Nat) (kept : List Stored) (occ : Nat) (r : Rec) :
    (s.put before kept occ r).ts.nextSeq = s.ts.nextSeq + 1 := congrArg Ts.nextSeq (State.raiseIf_ts _ _ _)

/-- R60, R64: what eviction for a record of `size` units leaves of a sound store: no more records leave than needed, and only
those numbered below `limit`. -/
theorem State.evict_spec (s : State) (h : s.ts.Sound) (size limit : Nat) : ∃ evicted kept, s.ts.records = evicted ++ kept ∧
    s.evict size limit = s.setTs { s.ts with records := kept, occupancy := unitsOf kept } ∧
    (∀ pre r, evicted = pre ++ [r] → 32762 < s.ts.occupancy - unitsOf pre + size) ∧ (∀ r ∈ evicted, r.seq < limit) ∧
    (unitsOf kept + size ≤ 32762 ∨ ∀ r ∈ kept, limit ≤ r.seq) := by
  obtain ⟨evicted, hrec, hocc, hneed, hlim, hfit⟩ := evictFrom_spec size limit s.ts.records s.ts.occupancy h.1
  have hasc := (s.evict_sound size limit h).ascending
  refine ⟨evicted, _, hrec, ?_, hneed, hlim, hfit.imp_right fun hhead r hr => ?_⟩
  · rw [← hocc]
    rfl
  · have hkept : (s.evict size limit).ts.records = (evictFrom size limit s.ts.records s.ts.occupancy).1 := rfl
    rw [hkept] at hasc
    rcases hl : (evictFrom size limit s.ts.records s.ts.occupancy).1 with _ | ⟨x, xs⟩
    · rw [hl] at hr
      cases hr
    · rw [hl] at hasc hr hhead
      have hx := hhead x rfl
      rcases List.mem_cons.1 hr with rfl | hr
      · exact hx
      · have := (List.pairwise_cons.1 hasc).1 r hr
        omega

/-- R60: the RING rule makes room for any record that may wait. -/
theorem State.takeRing_spec (s : State) (h : s.ts.Sound) (r : Rec) (hr : r.units ≤ 9) : ∃ evicted kept,
    s.ts.records = evicted ++ kept ∧ (∀ pre x, evicted = pre ++ [x] → 32762 < s.ts.occupancy - unitsOf pre + r.units) ∧
    unitsOf kept + r.units ≤ 32762 ∧ s.takeRing r = s.put s.ts.occupancy kept (unitsOf kept) r := by
  obtain ⟨evicted, kept, hrec, hev, hneed, -, -⟩ := s.evict_spec h r.units s.ts.nextSeq
  have hroom := s.evict_room h hr
  rw [hev] at hroom
  refine ⟨evicted, kept, hrec, hneed, hroom, ?_⟩
  unfold State.takeRing
  rw [hev, State.accept_put]
  rfl

end

end Sys2Proof.Machine

end


section
/-! RECORD_TAKE in each mode (R51 to R53, R59 to R65). -/

namespace Sys2Proof.Machine

section
variable {s : State} {k : Nat} {w : Waiting}

/-! ## What the take of a record leaves -/

/-- R52: the store without the waiting record at `k`, the next take due at tick `n`. -/
def State.without (s : State) (k n : Nat) : State :=
  { s with ts := { s.ts with input := s.ts.input.eraseIdx k, nextTake := n } }

/-- R52: the store without the waiting record at `k`. -/
def State.unqueued (s : State) (k : Nat) : State := s.setTs { s.ts with input := s.ts.input.eraseIdx k }

/-- R52: a record lost. -/
def State.afterLoss (s : State) : State := { s with ts := { s.ts with
  lost := s.ts.lost + 1, totalLost := s.ts.totalLost + 1
  gapStart := if s.ts.lost = 0 then some s.rc.timeBase else s.ts.gapStart } }

theorem State.put_nextAt (s : State) (k n before : Nat) (kept : List Stored) (occ : Nat) (r : Rec) :
    ((s.unqueued k).put before kept occ r).nextAt n =
      (s.without k n).put before kept occ r := State.raiseIf_nextAt _ _ _ _

/-- R59 to R64: the take of an ordinary record by the rule of the mode. -/
theorem State.takenRecord_ordinary (ha : s.ts.admitted = false) (hne : ∀ src c v ff, w.record.body ≠ .runEnded src c v ff)
    (hnt : ∀ src, w.record.body ≠ .trig src) :
    s.takenRecord k w = (s.unqueued k).takeOrdinary w.record :=
  (State.takenRecord_of_not ha).trans (State.takeRecord_ordinary _ hne hnt)

theorem State.takeOrdinary_stop {s : State} (hm : s.ts.active.mode = .stop) (r : Rec) : s.takeOrdinary r = s.takeStop r := by
  unfold State.takeOrdinary
  rw [hm]

theorem State.takeOrdinary_ring {s : State} (hm : s.ts.active.mode = .ring) (r : Rec) : s.takeOrdinary r = s.takeRing r := by
  unfold State.takeOrdinary
  rw [hm]

theorem State.takeOrdinary_stream {s : State} (hm : s.ts.active.mode = .stream) (r : Rec) : s.takeOrdinary r =
    s.takeStream r := by
  unfold State.takeOrdinary
  rw [hm]

theorem State.takeOrdinary_window {s : State} (hm : s.ts.active.mode = .window) (r : Rec) : s.takeOrdinary r =
    s.takeWindow r := by
  unfold State.takeOrdinary
  rw [hm]

theorem Ts.fits_iff (t : Ts) (n : Nat) : t.fits n = true ↔ t.occupancy + n ≤ 32762 := decide_eq_true_iff

theorem State.takeStop_of_fits {s : State} {r : Rec} (hst : s.ts.state ≠ .stopped) (hf : s.ts.occupancy + r.units ≤ 32762) :
    s.takeStop r = s.put s.ts.occupancy s.ts.records s.ts.occupancy r :=
  (if_neg hst).trans ((if_pos ((s.ts.fits_iff _).mpr hf)).trans (State.accept_put _ _ _))

theorem State.takeStop_of_full {s : State} {r : Rec} (hst : s.ts.state ≠ .stopped) (hf : 32762 < s.ts.occupancy + r.units) :
    s.takeStop r = s.afterLoss.stopStore :=
  (if_neg hst).trans (if_neg (mt (s.ts.fits_iff _).mp (Nat.not_le.mpr hf)))

theorem State.takeStop_of_stopped {s : State} {r : Rec} (hst : s.ts.state = .stopped) : s.takeStop r = s.afterLoss :=
  if_pos hst

/-- In a mode other than STREAM no GAP goes ahead of an ordinary record. -/
theorem Ts.not_gapDue {t : Ts} (hne : ∀ src c v ff, w.record.body ≠ .runEnded src c v ff) (hm : t.active.mode ≠ .stream) :
    ¬t.gapDue w := by
  rintro ⟨-, -, ⟨⟨src, c, v, ff, h⟩, -⟩ | ⟨-, -, h, -⟩⟩
  · exact hne _ _ _ _ h
  · exact hm h

/-! ## STOP and RING -/

/-- Settles O41, by which waiting record may be taken and by the closed forms of STOP's and RING's rules. -/
theorem recordsAreTakenInStopAndRing : Obligations.RecordsAreTakenInStopAndRing := by
  unfold Obligations.RecordsAreTakenInStopAndRing
  intro armed trig ended
  have harmed : ∀ w : Waiting, armed w ↔ w.record.body.isArmed = true := fun w => (RecBody.isArmed_iff _).symm
  have htrig : ∀ w : Waiting, trig w ↔ w.record.body.isTrig = true := fun w => (RecBody.isTrig_iff _).symm
  have hended : ∀ w : Waiting, ended w ↔ w.record.body.isEnded = true := fun w => (RecBody.isEnded_iff _).symm
  refine ⟨fun t clock k ha => Ts.mayTake_admitted ha, fun t clock k ha => ?_, fun t clock w ws ha hn hin => ⟨fun h => ?_,
    fun hna k e hk he => ?_⟩, fun s k hmay => congrArg Host.Outcome.next (if_neg (ne_true_of_eq_false hmay)), ?_⟩
  · simp only [harmed, htrig, hended, Ts.mayTake_iff ha, Waiting.mayPass_iff, Waiting.mayPrecede_iff]
  · refine Ts.mayTake_first ha hn (by rw [hin]; rfl) fun e he => (Waiting.mayPrecede_iff w e).mpr fun hte => ?_
    rw [hin] at he
    rcases List.mem_cons.1 he with rfl | he
    · exact .inl hte
    · rcases h with h | h | h
      · exact absurd ((htrig e).mpr hte) (h e he)
      · exact .inl ((htrig w).mp h)
      · exact .inr (.inl ((harmed w).mp h))
  · exact Ts.mayTake_trig ha hn hk ((htrig e).mp he) fun x hx =>
      Bool.eq_false_iff.mpr (mt (harmed x).mpr (hna x (List.mem_of_mem_take hx)))
  · intro s k w hmay hk ha hw hne hnt n s1 lost
    have hstop : s.ts.active.mode = .stop → s.takenRecord k w =
        (s.unqueued k).takeStop w.record := fun hm =>
      (State.takenRecord_ordinary ha hne hnt).trans (State.takeOrdinary_stop (s := s.unqueued k) hm _)
    have htake : ∀ {x : State} (d : Nat), s.ts.active.mode ≠ .stream → s.takenRecord k w = x →
        x.ts.nextSeq = s.ts.nextSeq + d → exec (.recordTake k) s = .next (x.nextAt (s.clock + d)) :=
      fun d hm => State.recordTake_to hmay hk (Ts.not_gapDue hne hm) hw d
    refine ⟨fun hm hst hf => ?_, fun hm hst hf => ?_, fun hm hst => ?_, fun hm hs hn => ?_⟩
    · rw [htake 1 (by simp [hm]) ((hstop hm).trans (State.takeStop_of_fits hst hf)) (State.put_nextSeq _ _ _ _ _),
        State.put_nextAt]
      rfl
    · exact htake 0 (by simp [hm]) ((hstop hm).trans (State.takeStop_of_full hst hf)) rfl
    · exact htake 0 (by simp [hm]) ((hstop hm).trans (State.takeStop_of_stopped hst)) rfl
    · obtain ⟨evicted, kept, hrec, hneed, hroom, hring⟩ :=
        (s.unqueued k).takeRing_spec hs w.record hn
      have htaken := (State.takenRecord_ordinary (k := k) ha hne hnt).trans (State.takeOrdinary_ring (s := s.unqueued k) hm _)
      refine ⟨evicted, kept, hrec, hneed, hroom, ?_⟩
      rw [htake 1 (by simp [hm]) (htaken.trans hring) (State.put_nextSeq _ _ _ _ _), State.put_nextAt]
      rfl

/-! ## STREAM and RUN ENDED -/

theorem State.takeStream_of_fits {s : State} {r : Rec} (hf : s.ts.occupancy + r.units ≤ 32762) :
    s.takeStream r = s.put s.ts.occupancy s.ts.records s.ts.occupancy r :=
  (if_pos ((s.ts.fits_iff _).mpr hf)).trans (State.accept_put _ _ _)

theorem State.takeStream_of_full {s : State} {r : Rec} (hf : 32762 < s.ts.occupancy + r.units) :
    s.takeStream r = s.afterLoss.raise .storeLoss := if_neg (mt (s.ts.fits_iff _).mp (Nat.not_le.mpr hf))

/-- R61, R62: the acceptance of a GAP; the lost count restarts there only ahead of RUN ENDED. -/
theorem State.takeGap_eq (s : State) (k : Nat) (w : Waiting) : s.takeGap k w =
    { s with ts := { s.ts with
      input := w :: s.ts.input.eraseIdx k
      records := s.ts.records ++ ([⟨s.ts.nextSeq, ⟨s.ts.gapStart.getD 0, .gap s.ts.lost⟩⟩] : List Stored)
      occupancy := s.ts.occupancy + 3, nextSeq := s.ts.nextSeq + 1, nextTake := s.clock + 1, admitted := true
      lost := if w.record.body.isEnded then 0 else s.ts.lost
      gapStart := if w.record.body.isEnded then none else s.ts.gapStart } }.raiseIf
        (decide (s.ts.occupancy < s.ts.active.watermark ∧ s.ts.active.watermark ≤ s.ts.occupancy + 3)) .storeHigh := by
  unfold State.takeGap
  rw [State.accept_put, State.put]
  have hu : s.ts.gapRecord.units = 3 := rfl
  rw [hu]
  generalize decide (s.ts.occupancy < s.ts.active.watermark ∧ s.ts.active.watermark ≤ s.ts.occupancy + 3) = high
  cases w.record.body <;> cases high <;> rfl

/-- Settles O42, by the closed forms of a GAP, of STREAM's rule and of the take of RUN ENDED. -/
theorem recordsAreTakenInStreamAndAtTheEnd : Obligations.RecordsAreTakenInStreamAndAtTheEnd := by
  unfold Obligations.RecordsAreTakenInStreamAndAtTheEnd
  intro s k w hmay hk hw n o high s1 alone gap
  have halone : ((s.unqueued k).put o s.ts.records o w.record).nextAt (s.clock + 1) =
      alone := State.put_nextAt _ _ _ _ _ _ _
  have hseq : ((s.unqueued k).put o s.ts.records o w.record).ts.nextSeq =
      s.ts.nextSeq + 1 := State.put_nextSeq _ _ _ _ _
  refine ⟨fun ha => ?_, fun ha hne hnt hm => ?_, fun ha hc => ?_⟩
  · have hg : ¬s.ts.gapDue w := fun h => by
      have := h.1
      rw [ha] at this
      cases this
    have hx : s.takenRecord k w = _ := (State.takenRecord_of_admitted ha).trans
      (congrArg (fun x : State => x.setTs { x.ts.restartLost with admitted := false }) (State.accept_put _ o _))
    rw [State.recordTake_to hmay hk hg hw 1 hx hseq, ← halone]
    rfl
  · have hstream := (State.takenRecord_ordinary (k := k) ha hne hnt).trans (State.takeOrdinary_stream (s := s.unqueued k) hm _)
    have hg : ¬(o + n ≤ 32762 ∧ s.ts.lost ≠ 0) → ¬s.ts.gapDue w := by
      rintro h ⟨-, hl, ⟨⟨src, c, v, ff, hb⟩, -⟩ | ⟨-, -, -, hle⟩⟩
      · exact hne _ _ _ _ hb
      · exact h ⟨hle, hl⟩
    refine ⟨fun hf hl => ?_, fun hf hl => ?_, fun hf => ?_⟩
    · rw [State.recordTake_to hmay hk (hg fun h => h.2 hl) hw 1 (hstream.trans (State.takeStream_of_fits hf)) hseq]
      exact congrArg Host.Outcome.next halone
    · have hend : w.record.body.isEnded = false := Bool.eq_false_iff.mpr fun h => by
        obtain ⟨_, _, _, _, hb⟩ := (RecBody.isEnded_iff _).mp h
        exact hne _ _ _ _ hb
      have hdue : s.ts.gapDue w := ⟨ha, hl, .inr ⟨fun ⟨_, _, _, _, h⟩ => hne _ _ _ _ h, fun ⟨_, h⟩ => hnt _ h, hm, hf⟩⟩
      rw [State.recordTake_gap hmay hk hdue, State.takeGap_eq, hend]
      rfl
    · exact State.recordTake_to hmay hk (hg fun h => absurd h.1 (Nat.not_le.mpr hf)) hw 0
        (hstream.trans (State.takeStream_of_full hf)) rfl
  · have hend := (RecBody.isEnded_iff _).mpr hc
    refine ⟨fun hor => ?_, fun hl hf => ?_⟩
    · have hg : ¬s.ts.gapDue w := by
        rintro ⟨-, hl, ⟨-, hf⟩ | ⟨hnc, -⟩⟩
        · exact hor.elim hl (Nat.not_lt.mpr hf)
        · exact hnc hc
      have hx : s.takenRecord k w = _ := ((State.takenRecord_of_not ha).trans (State.takeRecord_ended _ hc)).trans
        (State.accept_put _ _ _)
      rw [State.recordTake_to hmay hk hg hw 1 hx hseq]
      exact congrArg Host.Outcome.next halone
    · rw [State.recordTake_gap hmay hk ⟨ha, hl, .inl ⟨hc, hf⟩⟩, State.takeGap_eq, hend]
      rfl

/-! ## WINDOW -/

theorem State.takeWindow_of_stopped {s : State} {r : Rec} (h : s.ts.state = .stopped) : s.takeWindow r = s.afterLoss := by
  unfold State.takeWindow
  rw [h]
  rfl

theorem State.takeWindow_of_before {s : State} {r : Rec} (h : s.ts.state ≠ .stopped) (ht : s.ts.state ≠ .triggered) :
    s.takeWindow r = s.takeRing r := by
  unfold State.takeWindow
  split
  · next hs => exact absurd hs h
  · next hs => exact absurd hs ht
  · rfl

theorem State.takeWindow_of_triggered {s : State} {r : Rec} {q : Nat} (h : s.ts.state = .triggered)
    (hq : s.ts.trigSeq = some q) : s.takeWindow r =
      let s1 := (s.evict r.units q).accept s.ts.occupancy r
      let s2 := s1.setTs { s1.ts with post := s1.ts.post + r.units }
      if s2.ts.active.quota ≤ s2.ts.post then s2.stopStore else s2 := by
  unfold State.takeWindow
  rw [h, hq]
  rfl

/-- R64: what a record taken after the trigger adds to P, and the store's stop at the quota. -/
def State.afterPost (s : State) (post : Nat) : State :=
  if s.ts.active.quota ≤ post then ({ s with ts := { s.ts with post, state := .stopped } } : State).raise .storeStop
  else { s with ts := { s.ts with post } }

/-- R64: an ordinary record taken after the trigger. -/
theorem State.takeWindow_spec {s : State} (h : s.ts.Sound) (r : Rec) {q : Nat} (ht : s.ts.state = .triggered)
    (hq : s.ts.trigSeq = some q) : ∃ evicted kept, s.ts.records = evicted ++ kept ∧
      (∀ pre x, evicted = pre ++ [x] → 32762 < s.ts.occupancy - unitsOf pre + r.units) ∧ (∀ x ∈ evicted, x.seq < q) ∧
      (unitsOf kept + r.units ≤ 32762 ∨ ∀ x ∈ kept, q ≤ x.seq) ∧
      s.takeWindow r = (s.put s.ts.occupancy kept (unitsOf kept) r).afterPost (s.ts.post + r.units) := by
  obtain ⟨evicted, kept, hrec, hev, hneed, hlim, hfit⟩ := s.evict_spec h r.units q
  refine ⟨evicted, kept, hrec, hneed, hlim, hfit, ?_⟩
  have hput : ((s.setTs { s.ts with records := kept, occupancy := unitsOf kept }).put s.ts.occupancy kept (unitsOf kept) r) =
      s.put s.ts.occupancy kept (unitsOf kept) r := rfl
  have hpost : (s.put s.ts.occupancy kept (unitsOf kept) r).ts.post = s.ts.post := by
    unfold State.put
    rw [State.raiseIf_ts]
  rw [State.takeWindow_of_triggered ht hq, hev, State.accept_put]
  show (if _ then _ else _) = _
  unfold State.afterPost
  rw [← hpost]
  rfl

/-- R64: the next take after an ordinary record taken after the trigger. -/
theorem State.afterPost_nextAt (s : State) (post n : Nat) : (s.afterPost post).nextAt n = (s.nextAt n).afterPost post := by
  unfold State.afterPost
  show (if _ then _ else _ : State).nextAt n = if s.ts.active.quota ≤ post then _ else _
  split <;> rfl

/-- Settles O43, by the RING rule and the eviction below the trigger position. -/
theorem recordsAreTakenInWindow : Obligations.RecordsAreTakenInWindow := by
  unfold Obligations.RecordsAreTakenInWindow
  intro s k w hmay hk ha hw hne hm n sum s1 put hs hn
  have hg : ¬s.ts.gapDue w := Ts.not_gapDue hne (by simp [hm])
  have hput : ∀ kept, ((s.unqueued k).put s.ts.occupancy kept (unitsOf kept) w.record).nextAt (s.clock + 1) = put kept :=
    fun kept => State.put_nextAt _ _ _ _ _ _ _
  have hseq : ∀ kept, ((s.unqueued k).put s.ts.occupancy kept (unitsOf kept) w.record).ts.nextSeq = s.ts.nextSeq + 1 :=
    fun kept => State.put_nextSeq _ _ _ _ _
  have hwindow : (∀ src, w.record.body ≠ .trig src) → s.takenRecord k w = (s.unqueued k).takeWindow w.record := fun hnt =>
    (State.takenRecord_ordinary ha hne hnt).trans (State.takeOrdinary_window (s := s.unqueued k) hm _)
  refine ⟨fun hnt hst => ?_, fun hor => ?_⟩
  · exact State.recordTake_to hmay hk hg hw 0 ((hwindow hnt).trans (State.takeWindow_of_stopped (by exact hst))) rfl
  · by_cases htr : (∀ src, w.record.body ≠ .trig src) ∧ s.ts.state = .triggered ∧ ∃ q, s.ts.trigSeq = some q
    · obtain ⟨hnt, hst, q, hq⟩ := htr
      obtain ⟨evicted, kept, hrec, hneed, hlim, hfit, htake⟩ :=
        State.takeWindow_spec (s := s.unqueued k) hs w.record hst hq
      refine ⟨evicted, kept, hrec, hneed, fun ⟨_, h⟩ => absurd h (hnt _), fun _ h => absurd hst h, fun _ _ q' hq' => ?_⟩
      obtain rfl : q = q' := Option.some.inj (hq.symm.trans hq')
      refine ⟨hlim, hfit, ?_⟩
      intro post
      have hpseq : (((s.unqueued k).put s.ts.occupancy kept (unitsOf kept) w.record).afterPost post).ts.nextSeq =
          s.ts.nextSeq + 1 := by
        rw [← hseq kept]
        unfold State.afterPost
        split <;> rfl
      have hpquota : (put kept).ts.active.quota = s.ts.active.quota := by
        rw [← hput kept]
        unfold State.nextAt State.put
        rw [State.raiseIf_ts]
        rfl
      have hexec : exec (.recordTake k) s = .next ((put kept).afterPost post) := by
        rw [State.recordTake_to hmay hk hg hw 1 ((hwindow hnt).trans htake) hpseq, State.afterPost_nextAt]
        exact congrArg (fun x : State => Host.Outcome.next (x.afterPost post)) (hput kept)
      rw [hexec, State.afterPost, hpquota]
      exact ⟨fun hlt => by rw [if_neg (Nat.not_le.mpr hlt)], fun hle => by rw [if_pos hle]⟩
    · obtain ⟨evicted, kept, hrec, hneed, hroom, hring⟩ := (s.unqueued k).takeRing_spec hs w.record hn
      refine ⟨evicted, kept, hrec, hneed, fun hc => ⟨hroom, ?_⟩, fun hnt hst => ⟨hroom, ?_⟩,
        fun hnt hst q hq => absurd ⟨hnt, hst, q, hq⟩ htr⟩
      · have htrig : s.takenRecord k w = _ := ((State.takenRecord_of_not ha).trans (State.takeRecord_trig _ hc)).trans
          (congrArg (fun x : State => (x.setTs { x.ts with
            state := .triggered, trigSeq := some s.ts.nextSeq, post := 0 }).raise .trigger) hring)
        rw [State.recordTake_to hmay hk hg hw 1 htrig (hseq kept), ← hput kept]
        rfl
      · have hns : s.ts.state ≠ .stopped := hor.resolve_right fun ⟨src, h⟩ => hnt src h
        have hbefore := (hwindow hnt).trans (State.takeWindow_of_before (s := s.unqueued k) hns hst)
        rw [State.recordTake_to hmay hk hg hw 1 (hbefore.trans hring) (hseq kept)]
        exact congrArg Host.Outcome.next (hput kept)

end

end Sys2Proof.Machine

end


section
/-! TRIGGER and MARK (R63, R68). -/

namespace Sys2Proof.Machine

section
variable {s : State} {k : Nat} {w : Waiting}

/-! ## The answer to a MARK request (R68) -/

theorem State.takenRecord_mp (s : State) (k : Nat) (w : Waiting) : (s.takenRecord k w).mp = s.mp := by
  obtain ⟨h, -⟩ := s.takenRecord_frame k w
  rw [h]

theorem State.takenRecord_input (s : State) (k : Nat) (w : Waiting) :
    (s.takenRecord k w).ts.input = s.ts.input.eraseIdx k := by
  obtain ⟨-, -, h, -⟩ := s.takenRecord_frame k w
  exact h

theorem State.takeGap_mp (s : State) (k : Nat) (w : Waiting) : (s.takeGap k w).mp = s.mp := by
  rw [State.takeGap_eq, State.raiseIf_mp]

/-- R137: a notice placed by a command that leaves a reply is ready together with it. -/
theorem State.beside_replied (s : State) {t : State} (h : t.mp.reply.isSome = true) : s.beside t =
    { t with mp := { t.mp with together := t.mp.together || decide (s.fu.slot = 0 ∧ t.fu.slot ≠ 0) } } := by
  unfold State.beside
  rw [h, Bool.and_true]
  by_cases hc : s.fu.slot = 0 ∧ t.fu.slot ≠ 0
  · rw [if_pos (by simpa using hc), decide_eq_true hc, Bool.or_true]
  · rw [if_neg (by simpa using hc), decide_eq_false hc, Bool.or_false]

/-- R68: the answer to the request in hand: the number of the record, or none where it was lost. -/
theorem State.answerMark_of {kind tag : Byte} (h : s.mp.inHand = some (kind, tag)) (accepted : Bool) (seq : Nat) :
    s.answerMark accepted seq = { s with mp := { s.mp with
      inHand := none
      reply := some { kind, tag, status := .ok, body := if accepted then le 6 seq else List.replicate 6 0xFF } } } := by
  unfold State.answerMark
  rw [h]
  cases accepted <;> rfl

/-- R68: the take of the awaited record answers the request in hand. -/
theorem State.recordTake_answers {tag : Byte} (hmay : s.ts.mayTake s.clock k = true) (hk : s.ts.input[k]? = some w)
    (hg : ¬s.ts.gapDue w) (hw : w.awaited = true) (hh : s.mp.inHand = some (0x25, tag)) : ∃ t,
    exec (.recordTake k) s = .next t ∧ t.ts.input = s.ts.input.eraseIdx k ∧ t.mp = { s.mp with
      inHand := none
      reply := some { kind := 0x25, tag, status := .ok, body :=
        if t.ts.nextSeq = s.ts.nextSeq then List.replicate 6 0xFF else le 6 (t.ts.nextSeq - 1) }
      together := s.mp.together || decide (s.fu.slot = 0 ∧ t.fu.slot ≠ 0) } := by
  have hexec := State.recordTake_taken hmay hk hg
  rw [hw] at hexec
  have hmp := s.takenRecord_mp k w
  have hin := s.takenRecord_input k w
  generalize s.takenRecord k w = u at hexec hmp hin
  have hhand : (u.nextAt (s.clock + (u.ts.nextSeq - s.ts.nextSeq))).mp.inHand = some (0x25, tag) :=
    (congrArg Mp.inHand hmp).trans hh
  dsimp only at hexec
  rw [if_pos rfl, State.answerMark_of hhand, State.beside_replied _ rfl] at hexec
  refine ⟨_, hexec, hin, ?_⟩
  have hbody : (if (u.ts.nextSeq != s.ts.nextSeq) = true then le 6 (u.ts.nextSeq - 1) else List.replicate 6 (0xFF : Byte)) =
      if u.ts.nextSeq = s.ts.nextSeq then List.replicate 6 0xFF else le 6 (u.ts.nextSeq - 1) := by
    by_cases he : u.ts.nextSeq = s.ts.nextSeq
    · rw [if_pos he, if_neg (by simp [he])]
    · rw [if_neg he, if_pos (by simpa using he)]
  rw [hbody]
  show ({ u.mp with inHand := _, reply := _, together := u.mp.together || _ } : Mp) = _
  rw [hmp]
  rfl

/-! ## The same record unawaited -/

/-- R68: the state in which no request awaits the record at `k`. -/
def State.unawaiting (s : State) (k : Nat) (w : Waiting) : State :=
  { s with ts := { s.ts with input := s.ts.input.set k w.unawaited } }

theorem all_set_of_eq {α : Type} {l : List α} {k : Nat} {x y : α} (hk : l[k]? = some x) (p : α → Bool) (h : p y = p x) :
    (l.set k y).all p = l.all p := by
  induction l generalizing k with
  | nil => cases hk
  | cons z l ih =>
    cases k with
    | zero =>
      obtain rfl : z = x := Option.some.inj hk
      simp [h]
    | succ k => simp [ih (k := k) (by simpa using hk)]

theorem State.unawaiting_get (hk : s.ts.input[k]? = some w) : (s.unawaiting k w).ts.input[k]? = some w.unawaited := by
  obtain ⟨hlt, -⟩ := List.getElem?_eq_some_iff.mp hk
  exact List.getElem?_set_self hlt

/-- R52: which record may be taken does not ask whether a request awaits it. -/
theorem State.unawaiting_mayTake (hk : s.ts.input[k]? = some w) (clock : Nat) :
    (s.unawaiting k w).ts.mayTake clock k = s.ts.mayTake clock k := by
  have hset : (s.unawaiting k w).ts.input = s.ts.input.set k w.unawaited := rfl
  unfold Ts.mayTake
  rw [State.unawaiting_get hk, hk, hset, List.take_set_of_le (le_refl k)]
  dsimp only
  rw [all_set_of_eq (y := w.unawaited) hk (fun e => w.unawaited.mayPrecede e) rfl]
  rfl

theorem State.unawaiting_takenRecord (s : State) (k : Nat) (w : Waiting) :
    (s.unawaiting k w).takenRecord k w.unawaited = s.takenRecord k w := by
  have hset : (s.ts.input.set k w.unawaited).eraseIdx k = s.ts.input.eraseIdx k := List.eraseIdx_set_eq
  unfold State.takenRecord State.unawaiting
  dsimp only
  rw [hset]
  rfl

theorem State.unawaiting_takeGap (s : State) (k : Nat) (w : Waiting) : s.takeGap k w =
    { (s.unawaiting k w).takeGap k w.unawaited with
      ts := { ((s.unawaiting k w).takeGap k w.unawaited).ts with input := w :: s.ts.input.eraseIdx k } } := by
  rw [State.takeGap_eq, State.takeGap_eq]
  show State.raiseIf _ (decide _) _ = _
  generalize hhigh : decide (s.ts.occupancy < s.ts.active.watermark ∧ s.ts.active.watermark ≤ s.ts.occupancy + 3) = high
  have hhigh' : decide ((s.unawaiting k w).ts.occupancy < (s.unawaiting k w).ts.active.watermark ∧
      (s.unawaiting k w).ts.active.watermark ≤ (s.unawaiting k w).ts.occupancy + 3) = high := hhigh
  rw [hhigh']
  cases high <;> rfl

/-- R68: the take of an awaited record differs from that of the same record unawaited in the MP alone. -/
theorem State.recordTake_unawaited (hmay : s.ts.mayTake s.clock k = true) (hk : s.ts.input[k]? = some w)
    (hw : w.awaited = true) : ∃ t u, exec (.recordTake k) s = .next t ∧ exec (.recordTake k) (s.unawaiting k w) = .next u ∧
      (¬s.ts.gapDue w → t = { u with mp := t.mp }) ∧
      (s.ts.gapDue w → t = { u with ts := { u.ts with input := w :: s.ts.input.eraseIdx k } }) := by
  have hmay' : (s.unawaiting k w).ts.mayTake (s.unawaiting k w).clock k = true := (State.unawaiting_mayTake hk _).trans hmay
  have hk' := State.unawaiting_get hk
  by_cases hg : s.ts.gapDue w
  · exact ⟨_, _, State.recordTake_gap hmay hk hg, State.recordTake_gap hmay' hk' hg, absurd hg,
      fun _ => s.unawaiting_takeGap k w⟩
  · have hexec := State.recordTake_taken hmay hk hg
    have hexec' := State.recordTake_taken hmay' hk' hg
    rw [State.unawaiting_takenRecord] at hexec'
    refine ⟨_, _, hexec, hexec', fun _ => ?_, fun h => absurd h hg⟩
    dsimp only
    rw [hw, if_pos rfl, show w.unawaited.awaited = false from rfl, if_neg Bool.false_ne_true]
    generalize hv : (s.takenRecord k w).nextAt (s.clock + ((s.takenRecord k w).ts.nextSeq - s.ts.nextSeq)) = v
    obtain ⟨m, hm, -⟩ := v.answerMark_eq ((s.takenRecord k w).ts.nextSeq != s.ts.nextSeq) ((s.takenRecord k w).ts.nextSeq - 1)
    rw [hm]
    obtain ⟨b, hb⟩ := s.beside_eq { v with mp := m }
    rw [hb, ← hv]
    rfl

end

/-! ## TRIGGER and MARK -/

theorem State.triggerTakes_iff (s : State) : s.triggerTakes = true ↔
    s.ts.active.mode = .window ∧ s.live = true ∧ s.ts.fired = false := by
  rw [State.triggerTakes, Bool.and_eq_true, Bool.and_eq_true, beq_iff_eq, Bool.not_eq_true', and_assoc]

/-- Settles O40, by the take of an awaited record against that of the same record unawaited. -/
theorem triggersAndMarks : Obligations.TriggersAndMarks := by
  unfold Obligations.TriggersAndMarks
  refine fun s tag => ⟨fun ht hm hl hf => ?_, fun ht hor => ?_, fun label hlen ht => ⟨fun hl => ?_, fun hl => ?_⟩,
    fun k w hmay hk => ⟨fun hw => ?_, fun hg => ?_, fun hw hg hothers hh => ?_,
      fun hw => State.recordTake_unawaited hmay hk hw⟩⟩
  · have htakes : State.triggerTakes { s with mp := s.mp.pop } = true :=
      (State.triggerTakes_iff _).mpr ⟨hm, State.live_of hl, hf⟩
    refine congrArg Host.Outcome.next (takeRequest_quiet (u := { s with ts := { s.ts with
      fired := true
      input := s.ts.input ++ ([{ record := { time := s.rc.timeBase, body := .trig .station }, source := .trig,
                                 reached := s.clock, endWork := false, awaited := false }] : List Waiting) } })
      ht rfl rfl rfl ?_)
    unfold State.fireTrigger
    dsimp only
    rw [htakes]
    rfl
  · have htakes : State.triggerTakes { s with mp := s.mp.pop } = false := Bool.eq_false_iff.mpr fun h => by
      obtain ⟨hm, hl, hf⟩ := (State.triggerTakes_iff _).mp h
      rcases hor with hor | hor | hor | hor
      · exact hor hm
      · exact absurd (hl.symm.trans (State.not_live_of (.inl hor))) Bool.true_eq_false.mp
      · exact absurd (hl.symm.trans (State.not_live_of (.inr hor))) Bool.true_eq_false.mp
      · exact absurd (hor.symm.trans hf) Bool.true_eq_false.mp
    refine congrArg Host.Outcome.next (takeRequest_unchanged ht rfl ?_)
    unfold State.fireTrigger
    dsimp only
    rw [htakes]
    rfl
  · have hok : (Instr.mark tag label).bodyOk = true := Instr.bodyOk_of rfl (by simp [bodyAllowed, hlen])
    have hc : (s.mp.canTake (.mark tag label) && (Instr.mark tag label).bodyOk && s.live) = true := by
      rw [ht, hok, State.live_of hl]
      rfl
    exact congrArg Host.Outcome.next (if_pos hc)
  · have hok : (Instr.mark tag label).bodyOk = true := Instr.bodyOk_of rfl (by simp [bodyAllowed, hlen])
    have hc : ¬(s.mp.canTake (.mark tag label) && (Instr.mark tag label).bodyOk && s.live) = true := by
      rw [State.not_live_of hl, Bool.and_false]
      exact Bool.false_ne_true
    exact congrArg Host.Outcome.next ((if_neg hc).trans (takeRequest_unchanged ht hok rfl))
  · by_cases hg : s.ts.gapDue w
    · exact ⟨_, State.recordTake_gap hmay hk hg, s.takeGap_mp k w⟩
    · refine ⟨_, State.recordTake_taken hmay hk hg, ?_⟩
      dsimp only
      rw [hw, if_neg Bool.false_ne_true]
      exact s.takenRecord_mp k w
  · exact ⟨_, State.recordTake_gap hmay hk hg, s.takeGap_mp k w⟩
  · obtain ⟨t, hexec, hin, hmp⟩ := State.recordTake_answers hmay hk hg hw hh
    exact ⟨t, hexec, hin ▸ hothers, hmp⟩

end Sys2Proof.Machine

end


section
/-! What a rail change or a new threshold does to each block of a bank, in closed form (R71, R79, R85, R86, R93, R110, R120,
R130). -/

namespace Sys2Proof.Machine

/-! ## The units of a bank -/

theorem mem_bankChannels (b : Fin 4) (c : Fin 24) : c ∈ bankChannels b ↔ c.val / 8 = b.val := by
  simp [bankChannels, chanBank, Fin.ext_iff]

theorem mem_bankPorts (b : Fin 4) (p : Fin 2) : p ∈ bankPorts b ↔ p.val + 2 = b.val := by
  simp [bankPorts, portBank, Fin.ext_iff]

theorem State.mem_bankMonitors (s : State) (b : Fin 4) (m : Fin 4) :
    m ∈ s.bankMonitors b ↔ s.rm[m].settings.enabled = true ∧ s.rm[m].settings.channel.val / 8 = b.val := by
  simp [State.bankMonitors, chanBank, Fin.ext_iff]

theorem bankChannels_nodup (b : Fin 4) : (bankChannels b).Nodup := (List.nodup_finRange 24).filter _
theorem bankPorts_nodup (b : Fin 4) : (bankPorts b).Nodup := (List.nodup_finRange 2).filter _
theorem State.bankMonitors_nodup (s : State) (b : Fin 4) : (s.bankMonitors b).Nodup := (List.nodup_finRange 4).filter _
theorem bankDrives_nodup (b : Fin 4) : (bankDrives b).Nodup := (List.nodup_finRange 8).filter _

/-- A bank has one console port at most. -/
theorem bankPorts_of {b : Fin 4} {p : Fin 2} (h : p.val + 2 = b.val) : bankPorts b = [p] := by
  revert p b
  decide

theorem ofFn_get {α : Type} {n : Nat} (f : Fin n → α) (k : Fin n) : (Vector.ofFn f)[k] = f k := Vector.getElem_ofFn k.isLt

/-! ## The monitor channels (R85, R86) -/

theorem State.blankBank_eq (s : State) (b : Fin 4) : s.blankBank b = { s with
    mc := Vector.ofFn fun c => if c ∈ bankChannels b then s.mc[c].blank s.clock else s.mc[c] } :=
  foldl_entries (fun v => { s with mc := v }) _ (fun _ m => m.blank s.clock) (fun _ _ => rfl) (bankChannels_nodup b) s.mc

theorem State.loseChannels_eq (s : State) (b : Fin 4) : s.loseChannels b = { s with
    mc := Vector.ofFn fun c => if c ∈ bankChannels b then s.mc[c].railLoss else s.mc[c] } :=
  foldl_entries (fun v => { s with mc := v }) _ (fun _ m => m.railLoss) (fun _ _ => rfl) (bankChannels_nodup b) s.mc

/-! ## The rate monitors (R93) -/

theorem State.loseMonitors_eq (s : State) {l : List (Fin 4)} (hl : l.Nodup) :
    l.foldl (fun (s : State) m => s.setRm m s.rm[m].railLoss) s = { s with
      rm := Vector.ofFn fun m => if m ∈ l then s.rm[m].railLoss else s.rm[m] } :=
  foldl_entries (fun v => { s with rm := v }) _ (fun _ r => r.railLoss) (fun _ _ => rfl) hl s.rm

theorem State.returnMonitors_eq (s : State) {l : List (Fin 4)} (hl : l.Nodup) :
    l.foldl (fun (s : State) m => s.setRm m (s.rm[m].railReturn (s.rawMc s.rm[m].settings.channel))) s = { s with
      rm := Vector.ofFn fun m => if m ∈ l then s.rm[m].railReturn (s.rawMc s.rm[m].settings.channel) else s.rm[m] } :=
  foldl_entries (fun v => { s with rm := v }) _ (fun _ r => r.railReturn (s.rawMc r.settings.channel)) (fun _ _ => rfl) hl s.rm

/-! ## A sample of a bank's lines (R71) -/

theorem State.samplePorts_eq (s : State) (b : Fin 4) : (bankPorts b).foldl State.sampleRx s = { s with
    cp := Vector.ofFn fun p => if p ∈ bankPorts b then s.cp[p].sampleLine (s.readRx p) s.clock else s.cp[p] } :=
  foldl_entries (fun v => { s with cp := v }) _ (fun p c => c.sampleLine (s.readRx p) s.clock) (fun _ _ => rfl)
    (bankPorts_nodup b) s.cp

theorem Rm.Sampled.settings {r u : Rm} {reading : Prop} {raw : Bool} (h : r.Sampled reading raw u) :
    u.settings = r.settings := by
  obtain ⟨hno, hfirst, hnext⟩ := h
  by_cases hr : reading
  · cases hl : r.last with
    | none => rw [hfirst hr hl]
    | some l =>
      obtain ⟨hclock, htach⟩ := hnext l hr hl
      cases hm : r.settings.mode with
      | clock => rw [hclock hm]
      | tach => rw [htach hm]
  · rw [hno hr]

theorem Rm.Sampled.of_iff {r u : Rm} {p q : Prop} {raw : Bool} (h : r.Sampled p raw u) (hpq : p ↔ q) :
    r.Sampled q raw u := propext hpq ▸ h

/-- R71, R91, R92: the samples of several channels' monitors. -/
theorem State.sampleChannels_eq (s : State) {l : List (Fin 24)} (hl : l.Nodup) : ∃ v,
    l.foldl State.sampleChannel s = { s with rm := v } ∧ ∀ m : Fin 4,
      s.rm[m].Sampled (s.rmReading s.rm[m] ∧ s.rm[m].settings.channel ∈ l) (s.rawMc s.rm[m].settings.channel) v[m] := by
  induction l generalizing s with
  | nil => exact ⟨s.rm, rfl, fun m => Rm.sampled_of_not _ fun h => by cases h.2⟩
  | cons c l ih =>
    obtain ⟨hc, hl⟩ := List.nodup_cons.1 hl
    obtain ⟨v, hv, hsampled⟩ := s.sampleChannel_eq c
    obtain ⟨w, hw, hrest⟩ := ih { s with rm := v } hl
    refine ⟨w, ?_, fun m => ?_⟩
    · rw [List.foldl_cons, hv]
      exact hw
    · have hm := hrest m
      have hset := (hsampled m).settings
      show s.rm[m].Sampled _ _ w[m]
      have hm : v[m].Sampled (s.rmReading v[m] ∧ v[m].settings.channel ∈ l) (s.rawMc v[m].settings.channel) w[m] := hrest m
      by_cases hmc : s.rm[m].settings.channel = c
      · have hnot : ¬(s.rmReading v[m] ∧ v[m].settings.channel ∈ l) := fun h => hc (by rw [← hmc, ← hset]; exact h.2)
        rw [hm.1 hnot]
        have hs := hsampled m
        rw [← hmc] at hs
        exact hs.of_iff (and_congr_right fun _ => ⟨fun _ => by rw [hmc]; exact List.mem_cons_self, fun _ => rfl⟩)
      · have hv : v[m] = s.rm[m] := (hsampled m).1 fun h => hmc h.2
        rw [hv] at hm
        exact hm.of_iff (and_congr_right fun _ =>
          ⟨List.mem_cons_of_mem _, fun h => (List.mem_cons.1 h).resolve_left hmc⟩)

/-- R71: a new threshold is one sample for the receive line and the monitors of the bank. -/
theorem State.resampleBank_eq (s : State) (b : Fin 4) : ∃ rm cp, s.resampleBank b = { s with rm, cp } ∧
    (∀ m : Fin 4, s.rm[m].Sampled (s.rmReading s.rm[m] ∧ s.rm[m].settings.channel.val / 8 = b.val)
      (s.rawMc s.rm[m].settings.channel) rm[m]) ∧
    ∀ p : Fin 2, cp[p] = if p ∈ bankPorts b then s.cp[p].sampleLine (s.readRx p) s.clock else s.cp[p] := by
  obtain ⟨cp, hports, hcp⟩ : ∃ cp, (bankPorts b).foldl State.sampleRx s = { s with cp := cp } ∧
      ∀ p : Fin 2, cp[p] = if p ∈ bankPorts b then s.cp[p].sampleLine (s.readRx p) s.clock else s.cp[p] :=
    ⟨_, s.samplePorts_eq b, fun p => ofFn_get _ p⟩
  obtain ⟨rm, hrm, hs⟩ := State.sampleChannels_eq { s with cp := cp } (bankChannels_nodup b)
  refine ⟨rm, cp, ?_, fun m => (hs m).of_iff (and_congr_right fun _ => mem_bankChannels _ _), hcp⟩
  unfold State.resampleBank
  rw [hports]
  exact hrm

/-! ## The drive channels (R120) -/

theorem State.forceReleases_eq (s : State) (l : List (Fin 8)) : l.foldl State.forceRelease s = { s with
    dc := (l.foldl State.forceRelease s).dc, fu := (l.foldl State.forceRelease s).fu
    ts := { s.ts with input := (l.foldl State.forceRelease s).ts.input } } := by
  induction l generalizing s with
  | nil => rfl
  | cons c l ih =>
    rw [List.foldl_cons]
    have hone := s.forceRelease_eq c
    have hrest := ih (s.forceRelease c)
    generalize s.forceRelease c = u at hone hrest ⊢
    generalize l.foldl State.forceRelease u = x at hrest ⊢
    rw [hrest, hone]

theorem State.forceReleases_grows (s : State) (l : List (Fin 8)) : s.Grows (l.foldl State.forceRelease s) :=
  (Works.foldl (x := .bank) s (f := State.forceRelease) (fun s c => s.forceRelease_works c) l).grows rfl

/-- R120: each channel released raises DRIVE_BLOCK and in a run hands a DRIVE record with cause RAIL over. -/
theorem State.forceReleases_reports (s : State) {l : List (Fin 8)} (hl : l.Nodup) {c : Fin 8} (hc : c ∈ l)
    (hg : s.dc[c].railGated = true) (hm : s.dc[c].mode ≠ .released) :
    (l.foldl State.forceRelease s).fu.flags.getLsbD 14 = true ∧ (s.live = true →
      ∃ w ∈ (l.foldl State.forceRelease s).ts.input, w.record = ⟨s.rc.timeBase, .drive c .released .rail⟩) := by
  obtain ⟨before, after, rfl⟩ := List.append_of_mem hc
  have hnot : c ∉ before := fun h => (List.nodup_append.1 hl).2.2 c h c List.mem_cons_self rfl
  rw [List.foldl_append, List.foldl_cons]
  have hframe := s.forceReleases_eq before
  have hdc := s.forceReleases_get before c
  rw [if_neg fun h => hnot h.1] at hdc
  generalize before.foldl State.forceRelease s = u at hframe hdc
  have hlive : u.live = s.live := by rw [hframe]; rfl
  have htime : u.rc.timeBase = s.rc.timeBase := by rw [hframe]
  have hgrows := (u.forceRelease c).forceReleases_grows after
  rw [State.forceRelease_of_driving u c (hdc ▸ hg) (hdc ▸ hm)] at hgrows ⊢
  refine ⟨hgrows.flags 14 (Fu.raise_sets _ .driveBlock), fun h => ?_⟩
  have hhand : (State.handDrive (u.setDc c (u.dc[c].operate .release)) c .released .rail).ts.input =
      u.ts.input ++ [u.arriving (.dc c) ⟨u.rc.timeBase, .drive c .released .rail⟩] := by
    unfold State.handDrive
    rw [State.hand_of_live _ _ (by exact hlive.trans h)]
    rfl
  refine ⟨_, hgrows.records.subset (?_ : u.arriving (.dc c) ⟨u.rc.timeBase, .drive c .released .rail⟩ ∈ _),
    congrArg (fun t => (⟨t, .drive c .released .rail⟩ : Rec)) htime⟩
  show _ ∈ (State.handDrive _ _ _ _).ts.input
  rw [hhand]
  exact List.mem_append_right _ (List.mem_singleton_self _)

/-! ## The console ports (R110) -/

/-- R110: a port's fragments closed in both directions: their records wait, and none stays open. -/
theorem State.closeBoth_eq (s : State) (p : Fin 2) : ∃ inp,
    (s.closeFragment false p .rx false).closeFragment false p .tx false = { s with
      cp := s.cp.set p { s.cp[p] with rxFragment := none, txFragment := none } p.isLt, ts := { s.ts with input := inp } } ∧
    (s.live = true → ∀ d f, s.cp[p].fragment d = some f →
      ∃ w ∈ inp, w.record = ⟨f.first, .text p d f.bytes f.error f.brk⟩) := by
  have one : ∀ (s : State) (d : TextDir), ∃ inp, s.closeFragment false p d false = { s with
      cp := s.cp.set p (s.cp[p].setFragment d none) p.isLt, ts := { s.ts with input := inp } } ∧ s.ts.input <+: inp ∧
      (s.live = true → ∀ f, s.cp[p].fragment d = some f →
        ∃ w ∈ inp, w.record = ⟨f.first, .text p d f.bytes f.error f.brk⟩) := fun s d => by
    have hgrows := ((s.closeFragment_works (x := .bank) p d false).grows rfl).records
    cases hf : s.cp[p].fragment d with
    | none =>
      have hcp : s.cp[p].setFragment d none = s.cp[p] := by
        cases d
        · show { s.cp[p] with rxFragment := none } = s.cp[p]
          rw [← show s.cp[p].rxFragment = none from hf]
        · show { s.cp[p] with txFragment := none } = s.cp[p]
          rw [← show s.cp[p].txFragment = none from hf]
      refine ⟨s.ts.input, ?_, List.prefix_refl _, fun _ f h => by cases h⟩
      unfold State.closeFragment
      rw [hf, hcp, vector_set_self]
    | some f =>
      by_cases hl : s.live = true
      · rw [State.closeFragment_of_open hf hl] at hgrows ⊢
        refine ⟨_, rfl, hgrows, fun _ g hg => ?_⟩
        cases hg
        refine ⟨_, List.mem_append_right _ (List.mem_singleton_self _), ?_⟩
        show (⟨f.first, .text p d f.bytes f.error (f.brk || false)⟩ : Rec) = _
        rw [Bool.or_false]
      · refine ⟨s.ts.input, ?_, List.prefix_refl _, fun h => absurd h hl⟩
        unfold State.closeFragment
        rw [hf]
        exact if_neg hl
  obtain ⟨i1, h1, hpre1, hrec1⟩ := one s .rx
  obtain ⟨i2, h2, hpre2, hrec2⟩ := one (s.closeFragment false p .rx false) .tx
  rw [h1] at h2 hpre2 hrec2
  have hget : (s.cp.set p (s.cp[p].setFragment .rx none) p.isLt)[p] = s.cp[p].setFragment .rx none :=
    Vector.getElem_set_self p.isLt
  refine ⟨i2, ?_, fun hl d f hf => ?_⟩
  · rw [h1, h2]
    show ({ s with
      cp := (s.cp.set p (s.cp[p].setFragment .rx none) p.isLt).set p
        ((s.cp.set p (s.cp[p].setFragment .rx none) p.isLt)[p].setFragment .tx none) p.isLt
      ts := { s.ts with input := i2 } } : State) = _
    rw [hget, Vector.set_set]
    rfl
  · cases d with
    | rx =>
      obtain ⟨w, hw, hrec⟩ := hrec1 hl f hf
      exact ⟨w, hpre2.subset hw, hrec⟩
    | tx =>
      refine hrec2 hl f ?_
      show (s.cp.set p (s.cp[p].setFragment .rx none) p.isLt)[p].fragment .tx = some f
      rw [hget]
      exact hf

/-- R110: a port as the loss of its rail leaves it. -/
def Cp.afterLoss (c : Cp) : Cp := { c with
  rx := .waitIdle, bits := [], held := false, rxFragment := none, txFragment := none, queue := [], inFlight := none
  discards := min 4294967295 (c.discards + (c.queue.length + if c.inFlight.isSome then 1 else 0)) }

/-- R110: the loss of a port's rail. -/
theorem State.portRailLoss_eq (s : State) (p : Fin 2) : ∃ fu inp, s.portRailLoss p = { s with
      cp := s.cp.set p s.cp[p].afterLoss p.isLt, fu, ts := { s.ts with input := inp }
      tm := Vector.ofFn fun m => if s.tm[m].settings.port = p then s.tm[m].restart else s.tm[m] } ∧
    (s.live = true → ∀ d f, s.cp[p].fragment d = some f →
      ∃ w ∈ inp, w.record = ⟨f.first, .text p d f.bytes f.error f.brk⟩) ∧
    (s.cp[p].queue ≠ [] ∨ s.cp[p].inFlight ≠ none → fu.flags.getLsbD 13 = true) ∧
    (fu = s.fu ∨ fu = s.fu.raise .txDrop) := by
  obtain ⟨inp, hclose, hrec⟩ := s.closeBoth_eq p
  have hraise : ∀ (u : State) (b : Bool), (u.raiseIf b .txDrop) = { u with fu := if b then u.fu.raise .txDrop else u.fu } :=
    fun u b => by cases b <;> rfl
  have hget : ∀ c, (s.cp.set p c p.isLt)[p] = c := fun c => Vector.getElem_set_self p.isLt
  refine ⟨if decide (0 < s.cp[p].unsent) then s.fu.raise .txDrop else s.fu, inp, ?_, hrec, fun h => ?_, ?_⟩
  · unfold State.portRailLoss State.dropTransmit
    dsimp only
    rw [hclose, State.restartMatchers_eq, hraise]
    simp only [State.setCp, hget, Vector.set_set]
    rfl
  · have hun : 0 < s.cp[p].unsent := by
      unfold Cp.unsent
      rcases h with h | h
      · have := List.length_pos_iff.mpr h
        omega
      · rw [if_pos (Option.isSome_iff_ne_none.mpr h)]
        omega
    rw [if_pos (decide_eq_true hun)]
    exact Fu.raise_sets _ .txDrop
  · split
    · exact .inr rfl
    · exact .inl rfl

/-! ## The scan port (R130) -/

/-- R130: the jobs that the loss of bank D's rail ends, with their results. -/
def Sc.railCompletions (c : Sc) : List (Job × ScanResult) :=
  (c.job.toList.map fun a => (a.job, a.result .fault (some .rail))) ++
    c.queue.map fun j => (j, j.bareResult .fault (some .rail))

theorem Sc.railCompletions_results (c : Sc) : c.railCompletions.map Prod.snd = c.railFaults := by
  simp only [Sc.railCompletions, Sc.railFaults, List.map_append, List.map_map]
  rfl

theorem Sc.railCompletions_jobs (c : Sc) : c.railCompletions.map Prod.fst = (c.job.toList.map Active.job) ++ c.queue := by
  simp only [Sc.railCompletions, List.map_append, List.map_map]
  congr 1
  exact (List.map_congr_left fun _ _ => rfl).trans (List.map_id _)

/-- R127, R130: with the rail ABSENT the waiting jobs are faulted one after another. -/
theorem State.activateNext_absent {s : State} (n : Nat) (hp : s.lau[(3 : Fin 4)].present = false) (hj : s.sc.job = none)
    (hn : s.sc.queue.length < n) : s.activateNext n = (s.setSc { s.sc with queue := [] }).completeAll
      (s.sc.queue.map fun j => (j, j.bareResult .fault (some .rail))) := by
  induction n generalizing s with
  | zero => omega
  | succ n ih =>
    unfold State.activateNext
    rw [hj]
    cases hq : s.sc.queue with
    | nil =>
      show s = s.setSc { s.sc with queue := [] }
      rw [← hq]
      rfl
    | cons j js =>
      dsimp only
      rw [if_neg (ne_true_of_eq_false hp), ih]
      · rw [State.completeJob_eq]
        show State.completeAll _ _ = State.completeAll (State.completeJob _ _ _) _
        rw [State.completeJob_eq]
        rfl
      · rw [State.completeJob_eq]
        exact hp
      · rw [State.completeJob_eq]
        exact hj
      · rw [State.completeJob_eq]
        show js.length < n
        rw [hq] at hn
        simpa using hn

/-- R130: the loss of bank D's rail, at the scan port. -/
theorem State.scanRailLoss_eq {s : State} (hp : s.lau[(3 : Fin 4)].present = false) : s.scanRailLoss =
    (s.setSc { s.sc with tap := none, job := none, queue := [] }).completeAll s.sc.railCompletions := by
  unfold State.scanRailLoss
  cases hj : s.sc.job with
  | none =>
    have hgo := State.activateNext_absent (s := s.setSc { s.sc with tap := none }) _ hp hj (Nat.lt_succ_self _)
    have hjob : s.setSc { s.sc with tap := none, job := none, queue := [] } =
        s.setSc { s.sc with tap := none, queue := [] } := by
      rw [← hj]
    refine hgo.trans ?_
    rw [Sc.railCompletions, hj, hjob]
    rfl
  | some a =>
    dsimp only
    unfold State.endJob State.scanGo
    rw [State.completeJob_eq]
    refine (State.activateNext_absent _ (by exact hp) rfl (Nat.lt_succ_self _)).trans ?_
    rw [Sc.railCompletions, hj]
    show _ = State.completeAll (State.completeJob _ a.job (a.result .fault (some .rail))) _
    rw [State.completeJob_eq]
    rfl

end Sys2Proof.Machine

end


section
/-! A rail lost and a rail come, block by block (R79). -/

namespace Sys2Proof.Machine

/-! ## The state in which the blocks of a bank react (R71, R79) -/

/-- R71, R79: `u` is the state in which the blocks of bank `b` react to its rail's change to `up`: the bank has its threshold
and its rail state, the inputs have been sampled under a new threshold, and the event and the flag have been given. -/
structure State.RailEve (s u : State) (b : Fin 4) (up : Bool) : Prop where
  frame : u = { s with fu := u.fu, ste := u.ste, lau := u.lau, rm := u.rm, cp := u.cp }
  present : u.lau[b].present = up
  event : ∃ levels, ({ time := s.rc.timeBase, body := .rail b up levels } : Event) ∈ u.ste.events ∧
    (up = false → b.val < 3 → ∃ l, levels = some l ∧
      ∀ c : Fin 24, c.val / 8 = b.val → l.getLsbD (c.val % 8) = s.mc[c].level)
  flag : u.fu.flags.getLsbD 7 = true
  monitors : ∃ moved : Prop, ∀ m : Fin 4, s.rm[m].Sampled (moved ∧ up = true ∧ s.rm[m].settings.enabled = true ∧
    s.rm[m].settings.channel.val / 8 = b.val) (u.rawMc s.rm[m].settings.channel) u.rm[m]
  lines : ∀ p : Fin 2, ∃ since low, u.cp[p] = { s.cp[p] with highSince := since, steadyLow := low }

/-! ## A rail lost -/

section
variable (s : State) (b : Fin 4)

/-- R86, R93: the monitor channels and the rate monitors of a bank whose rail is lost. -/
theorem State.loseInputs_eq : ∃ mc rm, ((s.loseChannels b).bankMonitors b).foldl
      (fun (s : State) m => s.setRm m s.rm[m].railLoss) (s.loseChannels b) = { s with mc, rm } ∧
    (∀ c : Fin 24, mc[c] = if c ∈ bankChannels b then s.mc[c].railLoss else s.mc[c]) ∧
    ∀ m : Fin 4, rm[m] = if m ∈ s.bankMonitors b then s.rm[m].railLoss else s.rm[m] := by
  obtain ⟨mc, hmc, hmcget⟩ : ∃ mc, s.loseChannels b = { s with mc := mc } ∧
      ∀ c : Fin 24, mc[c] = if c ∈ bankChannels b then s.mc[c].railLoss else s.mc[c] :=
    ⟨_, s.loseChannels_eq b, fun c => ofFn_get _ c⟩
  obtain ⟨rm, hrm, hrmget⟩ : ∃ rm, (({ s with mc := mc } : State).bankMonitors b).foldl
      (fun (s : State) m => s.setRm m s.rm[m].railLoss) { s with mc := mc } = { s with mc := mc, rm := rm } ∧
      ∀ m : Fin 4, rm[m] = if m ∈ s.bankMonitors b then s.rm[m].railLoss else s.rm[m] :=
    ⟨_, State.loseMonitors_eq _ (s.bankMonitors_nodup b), fun m => ofFn_get _ m⟩
  refine ⟨mc, rm, ?_, hmcget, hrmget⟩
  rw [hmc]
  exact hrm

/-- R110: the rail loss of the bank's port. -/
theorem State.losePorts_eq : ∃ cp tm fu inp, (bankPorts b).foldl State.portRailLoss s =
      { s with cp, tm, fu, ts := { s.ts with input := inp } } ∧ (fu = s.fu ∨ fu = s.fu.raise .txDrop) ∧
    ∀ p : Fin 2, p.val + 2 = b.val → cp[p] = s.cp[p].afterLoss ∧
      (s.live = true → ∀ d f, s.cp[p].fragment d = some f →
        ∃ w ∈ inp, w.record = ⟨f.first, .text p d f.bytes f.error f.brk⟩) ∧
      (s.cp[p].queue ≠ [] ∨ s.cp[p].inFlight ≠ none → fu.flags.getLsbD 13 = true) ∧
      ∀ m : Fin 8, s.tm[m].settings.port = p → tm[m].progress = 0 := by
  by_cases h : ∃ p : Fin 2, p.val + 2 = b.val
  · obtain ⟨p, hp⟩ := h
    obtain ⟨fu, inp, heq, htext, hdrop, hflags⟩ := s.portRailLoss_eq p
    refine ⟨s.cp.set p s.cp[p].afterLoss p.isLt,
      Vector.ofFn fun m => if s.tm[m].settings.port = p then s.tm[m].restart else s.tm[m], fu, inp, ?_, hflags,
      fun q hq => ?_⟩
    · rw [bankPorts_of hp, List.foldl_cons, List.foldl_nil]
      exact heq
    · obtain rfl : p = q := Fin.ext (by omega)
      refine ⟨Vector.getElem_set_self p.isLt, htext, hdrop, fun m hm => ?_⟩
      rw [ofFn_get, if_pos hm]
      rfl
  · have hnil : bankPorts b = [] := List.eq_nil_iff_forall_not_mem.mpr fun p hp => h ⟨p, (mem_bankPorts b p).mp hp⟩
    refine ⟨s.cp, s.tm, s.fu, s.ts.input, ?_, .inl rfl, fun p hp => absurd ⟨p, hp⟩ h⟩
    rw [hnil]
    rfl

/-- R96, R99: the loss of bank D's rail, at the code port. -/
theorem State.codeRailLoss_eq : ∃ inp, s.codeRailLoss = { s with
      cdp := { s.cdp with blanking := none, reference := none, pending := none }, ts := { s.ts with input := inp } } ∧
    (s.live = true → ∀ p, s.cdp.pending = some p → ∃ w ∈ inp, w.record = ⟨p.first, .code p.code p.count p.last⟩) := by
  unfold State.codeRailLoss
  by_cases hl : s.live = true
  · refine ⟨_, State.closeCode_of_live (by exact hl), fun _ p hp =>
      ⟨s.arriving .cdp p.record, List.mem_append_right _ ?_, rfl⟩⟩
    show _ ∈ s.cdp.pending.toList.map _
    rw [hp]
    exact List.mem_singleton_self _
  · refine ⟨s.ts.input, ?_, fun h => absurd h hl⟩
    unfold State.closeCode
    cases hp : (s.setCdp { s.cdp with blanking := none, reference := none }).cdp.pending with
    | none =>
      have hs : ({ s.cdp with blanking := none, reference := none, pending := none } : Cdp) =
          { s.cdp with blanking := none, reference := none } := by
        rw [← show s.cdp.pending = none from hp]
      rw [hs]
      rfl
    | some p => exact if_neg hl

/-- R79, R96, R99, R130: what the loss of bank D's rail leaves at the code port and the scan port. -/
structure State.CodeAndScanLost (s t : State) : Prop where
  frame : t = { s with
    cdp := t.cdp, sc := t.sc, fu := t.fu, ts := { s.ts with input := t.ts.input }
    ste := { s.ste with events := t.ste.events } }
  code : t.cdp.blanking = none ∧ t.cdp.reference = none ∧ t.cdp.pending = none
  codeRecord : s.live = true → ∀ p, s.cdp.pending = some p →
    ∃ w ∈ t.ts.input, w.record = ⟨p.first, .code p.code p.count p.last⟩
  scan : t.sc.tap = none ∧ t.sc.job = none ∧ t.sc.queue = [] ∧
    (s.sc.results.length ≤ 16 → t.sc.results = (s.sc.railFaults.reverse ++ s.sc.results).take 16) ∧
    (s.sc.railFaults ≠ [] → t.fu.flags.getLsbD 12 = true)
  scanRecords : s.live = true → ∀ r ∈ s.sc.railFaults, ∃ w ∈ t.ts.input,
    w.record = ⟨s.rc.timeBase, .scan r.cls .fault (some .rail) r.inserted r.capture r.captureLen⟩
  scanEvents : ∀ j ∈ (s.sc.job.toList.map Active.job) ++ s.sc.queue, ∀ n, j.cls = .step n → j.current = true →
    ({ time := s.rc.timeBase, body := .scan n .fault } : Event) ∈ t.ste.events

theorem State.loseBankD_lost (hp : s.lau[(3 : Fin 4)].present = false) :
    s.CodeAndScanLost s.codeRailLoss.scanRailLoss := by
  obtain ⟨inp, hcode, hcodeRec⟩ := s.codeRailLoss_eq
  have hscan := State.scanRailLoss_eq (s := s.codeRailLoss) (by rw [hcode]; exact hp)
  rw [hcode, State.completeAll_eq] at hscan
  rw [hcode, hscan]
  have hfault : ∀ c ∈ s.sc.railCompletions, c.2.outcome = .fault ∧ c.2.reason = some .rail := fun c hc => by
    rcases List.mem_append.1 hc with hc | hc
    · obtain ⟨a, -, rfl⟩ := List.mem_map.1 hc
      exact ⟨rfl, rfl⟩
    · obtain ⟨j, -, rfl⟩ := List.mem_map.1 hc
      exact ⟨rfl, rfl⟩
  refine ⟨rfl, ⟨rfl, rfl, rfl⟩, fun hl p hp => ?_, ⟨rfl, rfl, rfl, fun hlen => ?_, fun hne => ?_⟩,
    fun hl r hr => ?_, fun j hj n hn hcur => ?_⟩
  · obtain ⟨w, hw, hrec⟩ := hcodeRec hl p hp
    exact ⟨w, List.mem_append_left _ hw, hrec⟩
  · exact (addResults_eq _ hlen).trans (by rw [Sc.railCompletions_results])
  · refine raiseAll_sets _ _ fun hnil => hne ?_
    rw [← Sc.railCompletions_results]
    exact congrArg (List.map Prod.snd) hnil
  · rw [← Sc.railCompletions_results] at hr
    obtain ⟨c, hc, rfl⟩ := List.mem_map.1 hr
    obtain ⟨ho, hre⟩ := hfault c hc
    refine ⟨s.arriving .sc (c.2.record s.rc.timeBase), List.mem_append_right _ ?_, ?_⟩
    · rw [if_pos (by exact hl)]
      exact List.mem_map.2 ⟨c, hc, rfl⟩
    · show c.2.record _ = _
      rw [ScanResult.record, ho, hre]
  · rw [← Sc.railCompletions_jobs] at hj
    obtain ⟨c, hc, rfl⟩ := List.mem_map.1 hj
    obtain ⟨ho, -⟩ := hfault c hc
    refine List.mem_append_right _ (List.mem_filterMap.2 ⟨c, hc, ?_⟩)
    rw [Job.event, hn, ho]
    exact if_pos hcur

end

section
variable {s u : State} {b : Fin 4}

theorem State.rawMc_of_bank {s : State} {c : Fin 24} {b : Fin 4} (h : chanBank c = b) :
    s.rawMc c = decide (s.lau[b].threshold * 14 < s.pins.mc[c]) := by
  subst h
  rfl

theorem portBank_eq_iff {p : Fin 2} {b : Fin 4} : p.val + 2 = b.val ↔ portBank p = b := by
  rw [portBank, Fin.ext_iff]

/-- R79: what a rail lost leaves. -/
theorem State.RailEve.lost (h : s.RailEve u b false) : RailMoved s (u.railLost b) b false := by
  obtain ⟨hframe, hpresent, ⟨levels, hevent, hlevels⟩, hflag, ⟨moved, hmon⟩, hlines⟩ := h
  have hgrows : u.Grows (u.railLost b) := (State.railLost_works (x := .bank) u b).grows rfl
  have hrm : ∀ m : Fin 4, u.rm[m] = s.rm[m] := fun m => (hmon m).1 fun h => absurd h.2.1 Bool.false_ne_true
  have hclock : u.clock = s.clock := by rw [hframe]
  have hrc : u.rc = s.rc := by rw [hframe]
  have hlive : u.live = s.live := congrArg (fun r : Rc => r.runState.live) hrc
  have hmc : u.mc = s.mc := by rw [hframe]
  have hdc : u.dc = s.dc := by rw [hframe]
  have htm : u.tm = s.tm := by rw [hframe]
  have hcdp : u.cdp = s.cdp := by rw [hframe]
  have hsc : u.sc = s.sc := by rw [hframe]
  unfold State.railLost at hgrows ⊢
  dsimp only at hgrows ⊢
  -- the channels and the monitors
  obtain ⟨mc, rm, h2, s2_mc, s2_rm⟩ := u.loseInputs_eq b
  rw [h2] at hgrows ⊢
  generalize hs2 : ({ u with mc, rm } : State) = s2 at hgrows ⊢
  -- the drive channels
  have h3frame := s2.forceReleases_eq (bankDrives b)
  have h3dc := s2.forceReleases_get (bankDrives b)
  have h3grows := s2.forceReleases_grows (bankDrives b)
  have h3rep := fun c hc => s2.forceReleases_reports (bankDrives_nodup b) (c := c) hc
  generalize (bankDrives b).foldl State.forceRelease s2 = s3 at hgrows h3frame h3dc h3grows h3rep ⊢
  -- the ports
  have h4grows : s3.Grows ((bankPorts b).foldl State.portRailLoss s3) :=
    (Works.foldl (x := .bank) s3 State.portRailLoss_works (bankPorts b)).grows rfl
  obtain ⟨cp, tm, fu, inp, h4, -, h4ports⟩ := s3.losePorts_eq b
  rw [h4] at hgrows h4grows ⊢
  generalize hs4 : ({ s3 with cp, tm, fu, ts := { s3.ts with input := inp } } : State) = s4 at hgrows h4grows ⊢
  have h4present : s4.lau[b].present = false := by rw [← hs4, h3frame, ← hs2]; exact hpresent
  -- bank D
  have h5grows : s4.Grows (if b = 3 then s4.codeRailLoss.scanRailLoss else s4) := by
    split
    · exact Works.grows rfl ((State.codeRailLoss_works (x := .bank) s4).trans (State.scanRailLoss_works _))
    · exact .refl _
  have h5 : b = 3 → s4.CodeAndScanLost (if b = 3 then s4.codeRailLoss.scanRailLoss else s4) := fun hb => by
    rw [if_pos hb]
    exact s4.loseBankD_lost (hb ▸ h4present)
  have h5frame : (if b = 3 then s4.codeRailLoss.scanRailLoss else s4) = { s4 with
      cdp := (if b = 3 then s4.codeRailLoss.scanRailLoss else s4).cdp
      sc := (if b = 3 then s4.codeRailLoss.scanRailLoss else s4).sc
      fu := (if b = 3 then s4.codeRailLoss.scanRailLoss else s4).fu
      ts := { s4.ts with input := (if b = 3 then s4.codeRailLoss.scanRailLoss else s4).ts.input }
      ste := { s4.ste with events := (if b = 3 then s4.codeRailLoss.scanRailLoss else s4).ste.events } } := by
    by_cases hb : b = 3
    · exact (h5 hb).frame
    · rw [if_neg hb]
  generalize (if b = 3 then s4.codeRailLoss.scanRailLoss else s4) = t at hgrows h5grows h5 h5frame ⊢
  have h35 := h4grows.trans h5grows
  have t_mc : t.mc = s2.mc := by rw [h5frame, ← hs4, h3frame]
  have t_rm : t.rm = s2.rm := by rw [h5frame, ← hs4, h3frame]
  have t_dc : t.dc = s3.dc := by rw [h5frame, ← hs4]
  have t_cp : t.cp = cp := by rw [h5frame, ← hs4]
  have t_tm : t.tm = tm := by rw [h5frame, ← hs4]
  have s2_dc : s2.dc = s.dc := by rw [← hs2]; exact hdc
  have s3_cp : s3.cp = u.cp := by rw [h3frame, ← hs2]
  have s3_tm : s3.tm = s.tm := by rw [h3frame, ← hs2]; exact htm
  have s4_cdp : s4.cdp = s.cdp := by rw [← hs4, h3frame, ← hs2]; exact hcdp
  have s4_sc : s4.sc = s.sc := by rw [← hs4, h3frame, ← hs2]; exact hsc
  have s2_rc : s2.rc = s.rc := by rw [← hs2]; exact hrc
  have s4_rc : s4.rc = s.rc := by rw [← hs4, h3frame]; exact s2_rc
  have s3_live : s3.live = s.live := by rw [h3frame]; exact congrArg (fun r : Rc => r.runState.live) s2_rc
  have s2_live : s2.live = s.live := congrArg (fun r : Rc => r.runState.live) s2_rc
  have s4_live : s4.live = s.live := congrArg (fun r : Rc => r.runState.live) s4_rc
  have hdrive : ∀ c : Fin 8, c.val / 4 = b.val ↔ c ∈ bankDrives b := fun c => by
    rw [mem_bankDrives, driveBank, Fin.ext_iff]
  exact {
    event := ⟨levels, hgrows.events.subset hevent, hlevels⟩
    flag := hgrows.flags 7 hflag
    channels := fun c hc => by
      rw [t_mc, ← hs2, if_neg Bool.false_ne_true, s2_mc, if_pos ((mem_bankChannels b c).mpr hc), hmc]
      rfl
    monitors := fun m he hb => ⟨fun _ => by
      rw [t_rm, ← hs2, s2_rm, hrm m, if_pos ((u.mem_bankMonitors b m).mpr (by rw [hrm m]; exact ⟨he, hb⟩))]
      rfl, fun h => absurd h Bool.false_ne_true⟩
    otherMonitors := fun m hm => by
      rw [t_rm, ← hs2, s2_rm, hrm m, if_neg]
      rw [u.mem_bankMonitors, hrm m]
      rintro ⟨he, hb⟩
      rcases hm with hm | hm
      · exact absurd (he.symm.trans hm) Bool.true_eq_false.mp
      · exact hm hb
    drives := fun c => by
      rw [t_dc, h3dc, s2_dc]
      refine if_congr ?_ rfl rfl
      rw [← hdrive]
      tauto
    blocked := fun _ ⟨c, hc, hg, hm⟩ => h35.flags 14 (h3rep c ((hdrive c).mp hc) (s2_dc ▸ hg) (s2_dc ▸ hm)).1
    driveRecords := fun _ hl c hc hg hm => by
      obtain ⟨w, hw, hrec⟩ := (h3rep c ((hdrive c).mp hc) (s2_dc ▸ hg) (s2_dc ▸ hm)).2 (s2_live.trans hl)
      exact ⟨w, h35.records.subset hw, hrec.trans (congrArg (fun r : Rc => (⟨r.timeBase, _⟩ : Rec)) s2_rc)⟩
    ports := fun p hp => by
      obtain ⟨hcp, -⟩ := h4ports p hp
      obtain ⟨since, low, hline⟩ := hlines p
      rw [t_cp, hcp, s3_cp, hline]
      exact ⟨rfl, rfl, rfl, fun _ => ⟨rfl, rfl, rfl, rfl, rfl⟩⟩
    lines := fun h => absurd h Bool.false_ne_true
    texts := fun _ hl p hp d f hf => by
      obtain ⟨-, htext, -⟩ := h4ports p hp
      obtain ⟨since, low, hline⟩ := hlines p
      obtain ⟨w, hw, hrec⟩ := htext (s3_live.trans hl) d f (by rw [s3_cp, hline, ← hf]; cases d <;> rfl)
      exact ⟨w, h5grows.records.subset (by rw [← hs4]; exact hw), hrec⟩
    dropped := fun _ ⟨p, hp, hor⟩ => by
      obtain ⟨-, -, hdrop, -⟩ := h4ports p hp
      obtain ⟨since, low, hline⟩ := hlines p
      exact h5grows.flags 13 (by rw [← hs4]; exact hdrop (by rw [s3_cp, hline]; exact hor))
    matchers := fun _ m hm => by
      obtain ⟨-, -, -, hrestart⟩ := h4ports s.tm[m].settings.port hm
      rw [t_tm]
      exact hrestart m (by rw [s3_tm])
    code := fun hb => (h5 hb).code
    codeRecord := fun hb _ hl p hp => (h5 hb).codeRecord (s4_live.trans hl) p (s4_cdp ▸ hp)
    scan := fun hb _ => by
      have := (h5 hb).scan
      rwa [s4_sc] at this
    scanRecords := fun hb _ hl r hr => by
      have := (h5 hb).scanRecords (s4_live.trans hl) r (s4_sc ▸ hr)
      rwa [s4_rc] at this
    scanEvents := fun hb _ j hj n hn hcur => by
      have := (h5 hb).scanEvents j (s4_sc ▸ hj) n hn hcur
      rwa [s4_rc] at this }

end

/-! ## A rail come -/

section
variable (s : State) (b : Fin 4)

theorem State.beginPorts_eq : (bankPorts b).foldl (fun (s : State) p => s.setCp p (s.cp[p].beginWait (s.readRx p) s.clock)) s =
    { s with cp := Vector.ofFn fun p => if p ∈ bankPorts b then s.cp[p].beginWait (s.readRx p) s.clock else s.cp[p] } :=
  foldl_entries (fun v => { s with cp := v }) _ (fun p c => c.beginWait (s.readRx p) s.clock) (fun _ _ => rfl)
    (bankPorts_nodup b) s.cp

/-- R79: the blocks of a bank whose rail comes. -/
theorem State.railCame_eq : ∃ mc rm cp cdp, s.railCame b = { s with mc, rm, cp, cdp } ∧
    (∀ c : Fin 24, mc[c] = if c ∈ bankChannels b then s.mc[c].blank s.clock else s.mc[c]) ∧
    (∀ m : Fin 4, rm[m] =
      if m ∈ s.bankMonitors b then s.rm[m].railReturn (s.rawMc s.rm[m].settings.channel) else s.rm[m]) ∧
    (∀ p : Fin 2, cp[p] = if p ∈ bankPorts b then s.cp[p].beginWait (s.readRx p) s.clock else s.cp[p]) ∧
    cdp = if b = 3 then { s.cdp with blanking := some (s.clock + 200), reference := none } else s.cdp := by
  obtain ⟨mc, hmc, hmcget⟩ : ∃ mc, s.blankBank b = { s with mc := mc } ∧
      ∀ c : Fin 24, mc[c] = if c ∈ bankChannels b then s.mc[c].blank s.clock else s.mc[c] :=
    ⟨_, s.blankBank_eq b, fun c => ofFn_get _ c⟩
  obtain ⟨rm, hrm, hrmget⟩ : ∃ rm, (({ s with mc := mc } : State).bankMonitors b).foldl
      (fun (s : State) m => s.setRm m (s.rm[m].railReturn (s.rawMc s.rm[m].settings.channel))) { s with mc := mc } =
      { s with mc := mc, rm := rm } ∧ ∀ m : Fin 4, rm[m] =
      if m ∈ s.bankMonitors b then s.rm[m].railReturn (s.rawMc s.rm[m].settings.channel) else s.rm[m] :=
    ⟨_, State.returnMonitors_eq _ (s.bankMonitors_nodup b), fun m => ofFn_get _ m⟩
  obtain ⟨cp, hcp, hcpget⟩ : ∃ cp, (bankPorts b).foldl
      (fun (s : State) p => s.setCp p (s.cp[p].beginWait (s.readRx p) s.clock)) { s with mc := mc, rm := rm } =
      { s with mc := mc, rm := rm, cp := cp } ∧
      ∀ p : Fin 2, cp[p] = if p ∈ bankPorts b then s.cp[p].beginWait (s.readRx p) s.clock else s.cp[p] :=
    ⟨_, State.beginPorts_eq _ b, fun p => ofFn_get _ p⟩
  refine ⟨mc, rm, cp, _, ?_, hmcget, hrmget, hcpget, rfl⟩
  unfold State.railCame
  dsimp only
  rw [hmc, hrm, hcp]
  split <;> rfl

end

section
variable {s u : State} {b : Fin 4}

/-- R93: a monitor without a last sample takes the input as its first, whether a new threshold has just sampled it or not. -/
theorem Rm.Sampled.returned {r u : Rm} {reading : Prop} {raw : Bool} (h : r.Sampled reading raw u) (hl : r.last = none) :
    u.railReturn raw = { r with last := some raw, gateVoid := decide (r.settings.mode = .clock) } := by
  by_cases hr : reading
  · rw [h.2.1 hr hl]
    rfl
  · rw [h.1 hr]
    rfl

/-- R79: what a rail come leaves. -/
theorem State.RailEve.came (h : s.RailEve u b true) : RailMoved s (u.railCame b) b true := by
  obtain ⟨hframe, hpresent, ⟨levels, hevent, hlevels⟩, hflag, ⟨moved, hmon⟩, hlines⟩ := h
  have hclock : u.clock = s.clock := by rw [hframe]
  have hpins : u.pins = s.pins := by rw [hframe]
  have hmc : u.mc = s.mc := by rw [hframe]
  have hdc : u.dc = s.dc := by rw [hframe]
  have hcdp : u.cdp = s.cdp := by rw [hframe]
  have hset : ∀ m : Fin 4, u.rm[m].settings = s.rm[m].settings := fun m => (hmon m).settings
  obtain ⟨mc, rm, cp, cdp, ht, t_mc, t_rm, t_cp, t_cdp⟩ := u.railCame_eq b
  rw [ht]
  have no : ∀ {p : Prop}, (true = false) → p := fun h => absurd h Bool.true_eq_false.mp
  exact {
    event := ⟨levels, hevent, hlevels⟩
    flag := hflag
    channels := fun c hc => by
      refine (t_mc c).trans ?_
      rw [if_pos ((mem_bankChannels b c).mpr hc), hmc, hclock, if_pos rfl]
      rfl
    monitors := fun m he hb => ⟨no, fun _ hl => by
      have hbank : chanBank s.rm[m].settings.channel = b := Fin.ext hb
      have hraw : u.rawMc s.rm[m].settings.channel =
          decide (u.lau[b].threshold * 14 < s.pins.mc[s.rm[m].settings.channel]) := by
        rw [← hpins]
        exact State.rawMc_of_bank hbank
      refine (t_rm m).trans ?_
      rw [if_pos ((u.mem_bankMonitors b m).mpr (by rw [hset m]; exact ⟨he, hb⟩)), hset m, ← hraw]
      exact (hmon m).returned hl⟩
    otherMonitors := fun m hm => by
      have hnot : ¬(s.rm[m].settings.enabled = true ∧ s.rm[m].settings.channel.val / 8 = b.val) := fun ⟨he, hb⟩ => by
        rcases hm with hm | hm
        · exact absurd (he.symm.trans hm) Bool.true_eq_false.mp
        · exact hm hb
      refine (t_rm m).trans ?_
      rw [if_neg (by rw [u.mem_bankMonitors, hset m]; exact hnot)]
      exact (hmon m).1 fun h => hnot h.2.2
    drives := fun c => by
      rw [if_neg fun h => no h.2.1]
      exact congrArg (fun v : Vector Dc 8 => v[c]) hdc
    blocked := no
    driveRecords := no
    ports := fun p hp => by
      have hcp := (t_cp p).trans (if_pos ((mem_bankPorts b p).mpr hp))
      exact ⟨congrArg Cp.rx hcp, congrArg Cp.bits hcp, congrArg Cp.held hcp, no⟩
    lines := fun _ p hp => by
      have hcp := (t_cp p).trans (if_pos ((mem_bankPorts b p).mpr hp))
      refine (congrArg Cp.highSince hcp).trans ?_
      rw [← portBank_eq_iff.mp hp, ← hpins, ← hclock]
      exact if_congr decide_eq_true_iff rfl rfl
    texts := no
    dropped := no
    matchers := no
    code := fun hb => by
      have hcode := t_cdp.trans (if_pos hb)
      rw [hcdp, hclock] at hcode
      have hpending := congrArg Cdp.pending hcode
      exact ⟨congrArg Cdp.blanking hcode, congrArg Cdp.reference hcode, hpending⟩
    codeRecord := fun _ => no
    scan := fun _ => no
    scanRecords := fun _ => no
    scanEvents := fun _ => no }

end

end Sys2Proof.Machine

end


section
/-! The requests of a bank, and the end of an acquisition (R71 to R80). -/

namespace Sys2Proof.Machine

/-! ## The banks as the blocks react -/

section
variable (s : State) (b : Fin 4)

theorem State.losePorts_lau : ((bankPorts b).foldl State.portRailLoss s).lau = s.lau := by
  obtain ⟨cp, tm, fu, inp, h, -⟩ := s.losePorts_eq b
  rw [h]

theorem State.codeRailLoss_lau : s.codeRailLoss.lau = s.lau := by
  obtain ⟨inp, h, -⟩ := s.codeRailLoss_eq
  rw [h]

theorem State.scanRailLoss_lau : s.scanRailLoss.lau = s.lau := by
  rw [s.scanRailLoss_frame.eq]

/-- R79: the blocks' reaction to a lost rail leaves the banks. -/
theorem State.railLost_lau : (s.railLost b).lau = s.lau := by
  unfold State.railLost
  dsimp only
  obtain ⟨mc, rm, hinputs, -⟩ := s.loseInputs_eq b
  rw [hinputs]
  have h : ((bankPorts b).foldl State.portRailLoss ((bankDrives b).foldl State.forceRelease { s with mc, rm })).lau =
      s.lau := by
    rw [State.losePorts_lau, State.forceReleases_lau]
  split
  · rw [State.scanRailLoss_lau, State.codeRailLoss_lau, h]
  · exact h

theorem State.railCame_lau : (s.railCame b).lau = s.lau := by
  obtain ⟨mc, rm, cp, cdp, h, -⟩ := s.railCame_eq b
  rw [h]

/-! ## A new threshold sampled (R71) -/

theorem State.readRx_of_bank {s : State} {p : Fin 2} {b : Fin 4} (h : p.val + 2 = b.val) :
    s.readRx p = decide (s.lau[b].threshold * 14 < s.pins.rx[p]) := by
  obtain rfl : portBank p = b := Fin.ext h
  rfl

/-- A sample says the same of an input that reads the same where it is taken. -/
theorem Rm.Sampled.congr {r u : Rm} {p q : Prop} {raw raw' : Bool} (h : r.Sampled p raw u) (hpq : p ↔ q)
    (hraw : q → raw = raw') :
    r.Sampled q raw' u := by
  by_cases hq : q
  · rw [← hraw hq]
    exact h.of_iff hpq
  · rw [h.1 (mt hpq.mp hq)]
    exact Rm.sampled_of_not _ hq

/-- R71: the bank with its threshold and rail state in place, and the inputs sampled where the threshold is new. -/
def State.withLevel (threshold : Nat) (present : Bool) : State :=
  if s.lau[b].threshold ≠ threshold then (s.setLau b { s.lau[b] with threshold, present }).resampleBank b
  else s.setLau b { s.lau[b] with threshold, present }

/-- R71: the receive line of a port as a new threshold samples it. -/
def Cp.resampled (c : Cp) (high : Bool) (clock : Nat) : Cp :=
  { c with highSince := if high then some (c.highSince.getD clock) else none, steadyLow := c.steadyLow && !high }

theorem State.withLevel_eq (threshold : Nat) (present : Bool) : ∃ rm cp, s.withLevel b threshold present = { s with
      lau := s.lau.set b { s.lau[b] with threshold, present } b.isLt, rm, cp } ∧
    (∀ m : Fin 4, s.rm[m].Sampled (s.lau[b].threshold ≠ threshold ∧ present = true ∧ s.rm[m].settings.enabled = true ∧
      s.rm[m].settings.channel.val / 8 = b.val) (decide (threshold * 14 < s.pins.mc[s.rm[m].settings.channel])) rm[m]) ∧
    ∀ p : Fin 2, cp[p] = if p.val + 2 = b.val ∧ s.lau[b].threshold ≠ threshold then
      s.cp[p].resampled (decide (threshold * 14 < s.pins.rx[p])) s.clock else s.cp[p] := by
  unfold State.withLevel
  by_cases ht : s.lau[b].threshold ≠ threshold
  · rw [if_pos ht]
    have hlau : (s.setLau b { s.lau[b] with threshold, present }).lau[b] = { s.lau[b] with threshold, present } :=
      Vector.getElem_set_self b.isLt
    have hpresent : ∀ c : Fin 24, chanBank c = b →
        (s.setLau b { s.lau[b] with threshold, present }).lau[chanBank c].present = present := fun c hc => by
      rw [State.setLau_get, if_pos hc.symm]
    obtain ⟨rm, cp, heq, hrm, hcp⟩ := (s.setLau b { s.lau[b] with threshold, present }).resampleBank_eq b
    refine ⟨rm, cp, heq, fun m => (hrm m).congr ?_ fun h => ?_, fun p => (hcp p).trans ?_⟩
    · exact ⟨fun ⟨⟨he, hp⟩, hb⟩ => ⟨ht, (hpresent _ (Fin.ext hb)).symm.trans hp, he, hb⟩,
        fun ⟨_, hp, he, hb⟩ => ⟨⟨he, (hpresent _ (Fin.ext hb)).trans hp⟩, hb⟩⟩
    · refine (State.rawMc_of_bank (Fin.ext h.2.2.2 : chanBank s.rm[m].settings.channel = b)).trans ?_
      rw [hlau]
      rfl
    · by_cases hp : p.val + 2 = b.val
      · rw [if_pos ((mem_bankPorts b p).mpr hp), if_pos ⟨hp, ht⟩, State.readRx_of_bank hp, hlau]
        rfl
      · rw [if_neg (mt (mem_bankPorts b p).mp hp), if_neg fun h => hp h.1]
        rfl
  · rw [if_neg ht]
    refine ⟨s.rm, s.cp, rfl, fun m => Rm.sampled_of_not _ fun h => ht h.1, fun p => (if_neg fun h => ht h.2).symm⟩

/-! ## A bank takes a threshold and a rail state (R71, R79) -/

theorem bankChannels_get {b : Fin 4} {c : Fin 24} (h : c.val / 8 = b.val) : (bankChannels b)[c.val % 8]? = some c := by
  revert c b
  decide

/-- R79: the levels that the RAIL event of a loss carries. -/
theorem State.bankLevels_get (hb : b.val < 3) : ∃ l, s.bankLevels b = some l ∧
    ∀ c : Fin 24, c.val / 8 = b.val → l.getLsbD (c.val % 8) = s.mc[c].level := by
  refine ⟨_, if_pos hb, fun c hc => ?_⟩
  have hfold : ∀ l : List (Fin 24), l.foldr (fun c n => (s.mc[c].level).toNat + 2 * n) 0 =
      (l.map fun c => s.mc[c].level).foldr (fun (b : Bool) n => b.toNat + 2 * n) 0 := fun l => by
    rw [List.foldr_map]
  have hlt : c.val % 8 < 8 := Nat.mod_lt _ (by omega)
  rw [hfold, BitVec.getLsbD_ofNat, testBit_bits, decide_eq_true hlt, Bool.true_and, List.getD_eq_getElem?_getD,
    List.getElem?_map, bankChannels_get hc]
  rfl

/-- R79: the state in which the blocks react to a rail change, and the event that it gives. -/
def State.railEvent (present : Bool) : Event :=
  { time := s.rc.timeBase, body := .rail b present (if present then none else s.bankLevels b) }

theorem State.setBank_moved {threshold : Nat} {present : Bool} (h : s.lau[b].present ≠ present) :
    s.setBank b threshold present =
      let u := ((s.withLevel b threshold present).handEvent (s.railEvent b present)).raise .rail
      if present then u.railCame b else u.railLost b := if_neg h

theorem State.setBank_kept {threshold : Nat} {present : Bool} (h : s.lau[b].present = present) :
    s.setBank b threshold present = if present ∧ s.lau[b].threshold ≠ threshold
      then (s.withLevel b threshold present).thresholdMoved b else s.withLevel b threshold present := if_pos h

theorem State.withLevel_eve (threshold : Nat) (present : Bool) :
    s.RailEve (((s.withLevel b threshold present).handEvent (s.railEvent b present)).raise .rail) b present := by
  obtain ⟨rm, cp, heq, hrm, hcp⟩ := s.withLevel_eq b threshold present
  have v_lau : (s.withLevel b threshold present).lau[b] = { s.lau[b] with threshold, present } := by
    rw [heq]
    exact Vector.getElem_set_self b.isLt
  have v_pins : (s.withLevel b threshold present).pins = s.pins := by rw [heq]
  have v_ste : (s.withLevel b threshold present).ste = s.ste := by rw [heq]
  have v_rm : (s.withLevel b threshold present).rm = rm := by rw [heq]
  have v_cp : (s.withLevel b threshold present).cp = cp := by rw [heq]
  have v_frame : s.withLevel b threshold present = { s with
      lau := (s.withLevel b threshold present).lau, rm := (s.withLevel b threshold present).rm
      cp := (s.withLevel b threshold present).cp } := by rw [heq]
  generalize s.withLevel b threshold present = v at v_lau v_pins v_ste v_rm v_cp v_frame ⊢
  have hraw : ∀ c : Fin 24, chanBank c = b → v.rawMc c = decide (threshold * 14 < s.pins.mc[c]) := fun c hc => by
    rw [State.rawMc_of_bank hc, v_lau, v_pins]
  refine {
    frame := ?_
    present := congrArg Lau.present v_lau
    event := ⟨_, List.mem_append_right _ (List.mem_singleton_self _), fun hp hb => ?_⟩
    flag := Fu.raise_sets _ .rail
    monitors := ⟨s.lau[b].threshold ≠ threshold, fun m => v_rm ▸ (hrm m).congr Iff.rfl fun h => (hraw _ (Fin.ext h.2.2.2)).symm⟩
    lines := fun p => ?_ }
  · rw [v_frame]
    rfl
  · obtain ⟨l, hl, hlevels⟩ := s.bankLevels_get b hb
    refine ⟨l, ?_, hlevels⟩
    rw [hp, ← hl]
    rfl
  · show ∃ since low, v.cp[p] = _
    rw [v_cp]
    by_cases hc : p.val + 2 = b.val ∧ s.lau[b].threshold ≠ threshold
    · exact ⟨_, _, (hcp p).trans (if_pos hc)⟩
    · exact ⟨s.cp[p].highSince, s.cp[p].steadyLow, (hcp p).trans (if_neg hc)⟩

/-- R71: a new threshold on a rail that stays PRESENT blanks the channels, and on bank D the strobe. -/
theorem State.thresholdMoved_eq : ∃ mc cdp, s.thresholdMoved b = { s with mc, cdp } ∧
    (∀ c : Fin 24, mc[c] = if c.val / 8 = b.val then { s.mc[c] with pending := none, blanking := some (s.clock + 200) }
      else s.mc[c]) ∧
    cdp = if b = 3 then { s.cdp with blanking := some (s.clock + 200), reference := none } else s.cdp := by
  obtain ⟨mc, hmc, hget⟩ : ∃ mc, s.blankBank b = { s with mc := mc } ∧
      ∀ c : Fin 24, mc[c] = if c ∈ bankChannels b then s.mc[c].blank s.clock else s.mc[c] :=
    ⟨_, s.blankBank_eq b, fun c => ofFn_get _ c⟩
  refine ⟨mc, _, ?_, fun c => (hget c).trans (if_congr (mem_bankChannels b c) rfl rfl), rfl⟩
  unfold State.thresholdMoved
  dsimp only
  rw [hmc]
  split <;> rfl

/-- R71, R79: what a bank's taking a threshold and a rail state leaves. -/
theorem State.setBank_taken (threshold : Nat) (present : Bool) :
    BankTaken s (s.setBank b threshold present) b threshold present ∧
    (s.setBank b threshold present).lau = s.lau.set b { s.lau[b] with threshold, present } b.isLt ∧
    (s.lau[b].present = present → (s.setBank b threshold present).ts = s.ts ∧ (s.setBank b threshold present).fu = s.fu) := by
  obtain ⟨rm, cp, heq, hrm, hcp⟩ := s.withLevel_eq b threshold present
  have hget : (s.lau.set b { s.lau[b] with threshold, present } b.isLt)[b] = { s.lau[b] with threshold, present } :=
    Vector.getElem_set_self b.isLt
  have hwlau : (s.withLevel b threshold present).lau = s.lau.set b { s.lau[b] with threshold, present } b.isLt := by rw [heq]
  by_cases hp : s.lau[b].present = present
  · have hrest : ∃ mc cdp, s.setBank b threshold present = { s with
          lau := s.lau.set b { s.lau[b] with threshold, present } b.isLt, rm, cp, mc, cdp } ∧
        (∀ c : Fin 24, mc[c] = if c.val / 8 = b.val ∧ present = true ∧ s.lau[b].threshold ≠ threshold then
          { s.mc[c] with pending := none, blanking := some (s.clock + 200) } else s.mc[c]) ∧
        cdp = if b = 3 ∧ present = true ∧ s.lau[b].threshold ≠ threshold then
          { s.cdp with blanking := some (s.clock + 200), reference := none } else s.cdp := by
      rw [s.setBank_kept b hp, heq]
      by_cases hm : present = true ∧ s.lau[b].threshold ≠ threshold
      · rw [if_pos hm]
        obtain ⟨mc, cdp, hmoved, hmc, hcdp⟩ := State.thresholdMoved_eq { s with
          lau := s.lau.set b { s.lau[b] with threshold, present } b.isLt, rm, cp } b
        exact ⟨mc, cdp, hmoved, fun c => (hmc c).trans (if_congr (and_iff_left hm).symm rfl rfl),
          hcdp.trans (if_congr (and_iff_left hm).symm rfl rfl)⟩
      · rw [if_neg hm]
        exact ⟨s.mc, s.cdp, rfl, fun c => (if_neg fun h => hm h.2).symm, (if_neg fun h => hm h.2).symm⟩
    obtain ⟨mc, cdp, hset, hmc, hcdp⟩ := hrest
    rw [hset]
    exact ⟨{
      threshold := congrArg Lau.threshold hget
      present := congrArg Lau.present hget
      moved := fun h => absurd hp h
      kept := fun _ => ⟨rfl, rfl, rfl, rfl, rfl, rfl, hmc⟩
      monitors := fun _ => hrm
      lines := fun _ => hcp
      strobe := fun _ => hcdp }, rfl, fun _ => ⟨rfl, rfl⟩⟩
  · have hmoved : RailMoved s (s.setBank b threshold present) b present ∧
        (s.setBank b threshold present).lau = s.lau.set b { s.lau[b] with threshold, present } b.isLt := by
      have heve := s.withLevel_eve b threshold present
      rw [s.setBank_moved b hp]
      dsimp only
      cases present with
      | false =>
        rw [if_neg Bool.false_ne_true]
        exact ⟨heve.lost, (State.railLost_lau _ b).trans hwlau⟩
      | true =>
        rw [if_pos rfl]
        exact ⟨heve.came, (State.railCame_lau _ b).trans hwlau⟩
    obtain ⟨hmoved, hlau⟩ := hmoved
    have hlaub : (s.setBank b threshold present).lau[b] = { s.lau[b] with threshold, present } := by rw [hlau]; exact hget
    exact ⟨{
      threshold := by rw [hlaub]
      present := by rw [hlaub]
      moved := fun _ => hmoved
      kept := fun h => absurd h hp
      monitors := fun h => absurd h hp
      lines := fun h => absurd h hp
      strobe := fun h => absurd h hp }, hlau, fun h => absurd h hp⟩

end

end Sys2Proof.Machine

end


section
/-! BANK_SET, ACQUIRE, BANK_QUERY, INTERVAL_START and ACQUISITION_END (R71 to R80). -/

namespace Sys2Proof.Machine

/-! ## A bank's reaction in a wider state -/

section
variable {s v : State} {b : Fin 4} {m m' : Mp} {lau lau' : Vector Lau 4} {f : Fu} {i : List Waiting}

/-- What a rail change leaves is seen from a state that differs from the first in its MP and its banks, and in one that adds to
the last flags and records. -/
theorem RailMoved.widen {up : Bool} (h : RailMoved { s with mp := m, lau } v b up) (hf : v.fu.Kept f) (hi : v.ts.input <+: i)
    (hl : lau'[b].threshold = v.lau[b].threshold) :
    RailMoved s { v with mp := m', lau := lau', fu := f, ts := { v.ts with input := i } } b up := by
  have more : ∀ {r : Rec}, (∃ w ∈ v.ts.input, w.record = r) → ∃ w ∈ i, w.record = r :=
    fun ⟨w, hw, hr⟩ => ⟨w, hi.subset hw, hr⟩
  exact {
    event := h.event
    flag := hf 7 h.flag
    channels := h.channels
    monitors := fun m he hb => by
      obtain ⟨hdown, hup⟩ := h.monitors m he hb
      refine ⟨hdown, fun hu hlast => ?_⟩
      rw [show ({ v with mp := m', lau := lau', fu := f, ts := { v.ts with input := i } } : State).lau = lau' from rfl, hl]
      exact hup hu hlast
    otherMonitors := h.otherMonitors
    drives := h.drives
    blocked := fun hu hc => hf 14 (h.blocked hu hc)
    driveRecords := fun hu hlive c hc hg hm => more (h.driveRecords hu hlive c hc hg hm)
    ports := h.ports
    lines := fun hu p hp => by
      rw [show ({ v with mp := m', lau := lau', fu := f, ts := { v.ts with input := i } } : State).lau = lau' from rfl, hl]
      exact h.lines hu p hp
    texts := fun hu hlive p hp d g hg => more (h.texts hu hlive p hp d g hg)
    dropped := fun hu hp => hf 13 (h.dropped hu hp)
    matchers := h.matchers
    code := h.code
    codeRecord := fun hb hu hlive p hp => more (h.codeRecord hb hu hlive p hp)
    scan := fun hb hu => by
      obtain ⟨htap, hjob, hqueue, hresults, hdone⟩ := h.scan hb hu
      exact ⟨htap, hjob, hqueue, hresults, fun hne => hf 12 (hdone hne)⟩
    scanRecords := fun hb hu hlive r hr => more (h.scanRecords hb hu hlive r hr)
    scanEvents := h.scanEvents }

theorem BankTaken.widen {code : Nat} {up : Bool} (h : BankTaken { s with mp := m, lau } v b code up) (hf : v.fu.Kept f)
    (hi : v.ts.input <+: i) (ht : lau[b].threshold = s.lau[b].threshold) (hp : lau[b].present = s.lau[b].present)
    (ht' : lau'[b].threshold = v.lau[b].threshold) (hp' : lau'[b].present = v.lau[b].present) :
    BankTaken s { v with mp := m', lau := lau', fu := f, ts := { v.ts with input := i } } b code up := by
  have hkept := h.kept
  have hmonitors := h.monitors
  have hlines := h.lines
  have hstrobe := h.strobe
  rw [show ({ s with mp := m, lau } : State).lau = lau from rfl, hp, ht] at hkept hlines hstrobe
  simp only [hp, ht] at hmonitors
  exact {
    threshold := ht'.trans h.threshold
    present := hp'.trans h.present
    moved := fun hne => (h.moved (by rw [← hp] at hne; exact hne)).widen hf hi ht'
    kept := hkept
    monitors := hmonitors
    lines := hlines
    strobe := hstrobe }

end

/-! ## The settings (12.6) -/

theorem byte_toNat_zero {b : Byte} (h : b.toNat = 0) : b = 0 := BitVec.eq_of_toNat_eq h

theorem BankSettings.dec_of {r : Bytes} (h0 : (byteAt r 0).toNat ≤ 1) (h1 : (byteAt r 1).toNat ≤ 1)
    (h5 : (byteAt r 5).toNat ≤ 1) (h6 : byteAt r 6 ≠ 0) (h12 : field r 12 2 ≠ 0) (h14 : field r 14 2 ≠ 0)
    (h23 : (byteAt r 3).toNat < (byteAt r 2).toNat) : BankSettings.dec r = some {
      track := !decide (byteAt r 0 = 1), interval := max 100 (min 1000000 (field r 8 4)),
      s0 := min 32767 (field r 12 2), s1 := min 32767 (field r 14 2), factor := min 64 (byteAt r 6).toNat,
      up := (byteAt r 2).toNat, down := (byteAt r 3).toNat, traceAll := decide (byteAt r 1 = 1),
      fixedThreshold := (byteAt r 4).toNat, fixedPresent := decide (byteAt r 5 = 1) } := by
  have hfactor : (byteAt r 6).toNat ≠ 0 := fun h => h6 (byte_toNat_zero h)
  have hn : ¬(field r 12 2 = 0 ∨ field r 14 2 = 0 ∨ byteAt r 6 = 0 ∨ (byteAt r 2).toNat ≤ (byteAt r 3).toNat) := by
    rintro (h | h | h | h)
    · exact h12 h
    · exact h14 h
    · exact h6 h
    · omega
  have e0 : clamp 1 32767 (field r 12 2) = min 32767 (field r 12 2) := by unfold clamp; omega
  have e1 : clamp 1 32767 (field r 14 2) = min 32767 (field r 14 2) := by unfold clamp; omega
  have e2 : clamp 1 64 (byteAt r 6).toNat = min 64 (byteAt r 6).toNat := by unfold clamp; omega
  simp only [BankSettings.dec, ynOf_of_le h0, ynOf_of_le h1, ynOf_of_le h5, Option.bind_eq_bind, Option.bind_some, if_neg hn,
    e0, e1, e2]
  rfl

theorem BankSettings.dec_refused {r : Bytes} (h : 2 ≤ (byteAt r 0).toNat ∨ 2 ≤ (byteAt r 5).toNat ∨ byteAt r 6 = 0 ∨
    field r 12 2 = 0 ∨ field r 14 2 = 0 ∨ (byteAt r 2).toNat ≤ (byteAt r 3).toNat) : BankSettings.dec r = none :=
  dec_none fun x hx => by
    simp only [BankSettings.dec, Option.bind_eq_bind, Option.bind_eq_some_iff] at hx
    obtain ⟨f, hf, tr, htr, p, hp, hx⟩ := hx
    have hf := ynOf_le hf
    have hp := ynOf_le hp
    split at hx
    · cases hx
    · next hn =>
      rcases h with h | h | h | h | h | h
      · omega
      · omega
      · exact hn (.inr (.inr (.inl h)))
      · exact hn (.inl h)
      · exact hn (.inr (.inl h))
      · exact hn (.inr (.inr (.inr h)))

theorem BankSettings.enc_length (r : BankSettings) : r.enc.length = 16 := by simp [BankSettings.enc]

/-! ## The requests -/

section
variable {s : State} {b : Fin 4}

theorem State.setLau_setLau (s : State) (b : Fin 4) (l l' : Lau) : (s.setLau b l).setLau b l' = s.setLau b l' :=
  congrArg (fun v => { s with lau := v }) (Vector.set_set _ _)

theorem State.setLau_get_self (s : State) (b : Fin 4) (l : Lau) : (s.setLau b l).lau[b] = l := Vector.getElem_set_self b.isLt

theorem State.beginAcq_setLau (s : State) (b : Fin 4) (l : Lau) (kind : AcqKind) : (s.setLau b l).beginAcq b kind =
    s.setLau b { l with acq := some (Acq.begin kind l.settings), trackWaiting := false } := by
  unfold State.beginAcq
  rw [State.setLau_get_self, State.setLau_setLau]

theorem State.startInterval_setLau (s : State) (b : Fin 4) (l : Lau) : (s.setLau b l).startInterval b =
    s.setLau b { l with intervalStart := s.clock } := by
  unfold State.startInterval
  rw [State.setLau_get_self, State.setLau_setLau]
  rfl

/-- R77: an accepted BANK_SET of a TRACK bank. -/
theorem State.bankSet_track (s : State) (b : Fin 4) {r : BankSettings} (h : r.track = true) : s.bankSet b r =
    s.setLau b { s.lau[b] with
      settings := r, intervalStart := s.clock, trackWaiting := false, acq := some (Acq.begin .track r) } := by
  unfold State.bankSet
  dsimp only
  rw [if_pos h, State.startInterval_setLau, State.beginAcq_setLau]

theorem State.bankSet_fixed (s : State) (b : Fin 4) {r : BankSettings} (h : r.track = false) : s.bankSet b r =
    (s.setLau b { s.lau[b] with settings := r, acq := none, trackWaiting := false }).setBank b r.fixedThreshold
      r.fixedPresent := if_neg (ne_true_of_eq_false h)

/-- R76: an accepted ACQUIRE. -/
theorem State.acquire_eq (s : State) (b : Fin 4) : s.acquire b = s.setLau b { s.lau[b] with
    acq := some (Acq.begin .requested s.lau[b].settings)
    intervalStart := if s.lau[b].settings.track then s.clock else s.lau[b].intervalStart
    trackWaiting := false } := by
  unfold State.acquire
  cases h : s.lau[b].settings.track with
  | true =>
    rw [if_pos rfl, if_pos rfl, State.startInterval, State.beginAcq_setLau]
  | false =>
    rw [if_neg Bool.false_ne_true, if_neg Bool.false_ne_true]
    rfl

/-- R74: an interval start. -/
theorem State.intervalStart_eq (s : State) (b : Fin 4) : s.intervalStart b =
    if s.lau[b].acq.isSome then s.setLau b { s.lau[b] with intervalStart := s.clock, trackWaiting := true }
    else s.setLau b { s.lau[b] with
      intervalStart := s.clock, trackWaiting := false, acq := some (Acq.begin .track s.lau[b].settings) } := by
  unfold State.intervalStart
  dsimp only
  rw [State.startInterval, State.beginAcq_setLau, State.setLau_get_self, State.setLau_setLau]

theorem bodyOk_bankSet {tag n : Byte} {r : Bytes} (h : r.length = 16) : (Instr.bankSet tag n r).bodyOk = true :=
  Instr.bodyOk_of rfl (by simp [bodyAllowed, h])

/-- R77: BANK_SET of a FIXED bank. -/
theorem State.bankSet_fixes {tag : Byte} {r : Bytes} {set : BankSettings} (hr : r.length = 16)
    (ht : s.mp.canTake (.bankSet tag (byte b.val) r) = true) (hdec : BankSettings.dec r = some set)
      (htrack : set.track = false) :
    ∃ t, exec (.bankSet tag (byte b.val) r) s = .next t ∧
      t.mp.reply = some { kind := 0x30, tag, status := .ok, body := byte b.val :: set.enc } ∧
      t.lau = s.lau.set b { s.lau[b] with
        settings := set, threshold := set.fixedThreshold, present := set.fixedPresent, acq := none
        trackWaiting := false } b.isLt ∧
      t.rc = s.rc ∧ (s.lau[b].present = set.fixedPresent → t.ts = s.ts ∧ t.fu = s.fu) ∧
      BankTaken s t b set.fixedThreshold set.fixedPresent := by
  generalize hs1 : ({ s with mp := s.mp.pop } : State).setLau b
    { s.lau[b] with settings := set, acq := none, trackWaiting := false } = s1
  have hb : s1.lau[b] = { s.lau[b] with settings := set, acq := none, trackWaiting := false } := by
    rw [← hs1]
    exact State.setLau_get_self _ b _
  obtain ⟨htaken, hlau, hquiet⟩ := s1.setBank_taken b set.fixedThreshold set.fixedPresent
  have hframe := s1.setBank_boardFrame b set.fixedThreshold set.fixedPresent
  have hexec : exec (.bankSet tag (byte b.val) r) s = .next (s.beside
      ((s1.setBank b set.fixedThreshold set.fixedPresent).reply
        { kind := 0x30, tag, status := .ok, body := byte b.val :: set.enc })) := by
    refine congrArg Host.Outcome.next ((takeRequest_of_taken 0x30 tag _ ht (bodyOk_bankSet hr)).trans ?_)
    simp only [bankSetOwner, indexOf_byte4, hdec]
    rw [State.bankSet_fixed _ b htrack, ← hs1]
    rfl
  generalize hv : s1.setBank b set.fixedThreshold set.fixedPresent = v at htaken hlau hquiet hframe hexec
  have hvb : v.lau[b] = { s1.lau[b] with threshold := set.fixedThreshold, present := set.fixedPresent } := by
    rw [hlau]
    exact Vector.getElem_set_self b.isLt
  obtain ⟨m, hm⟩ := s.beside_eq (v.reply { kind := 0x30, tag, status := .ok, body := byte b.val :: set.enc })
  rw [hm] at hexec
  refine ⟨_, hexec, rfl, ?_, ?_, fun hp => ?_, ?_⟩
  · show v.lau = _
    rw [hlau, hb, ← hs1]
    exact Vector.set_set _ _
  · exact hframe.rc.trans (by rw [← hs1]; rfl)
  · obtain ⟨hts, hfu⟩ := hquiet (by rw [hb]; exact hp)
    exact ⟨hts.trans (by rw [← hs1]; rfl), hfu.trans (by rw [← hs1]; rfl)⟩
  · have hbase : s1 = { s with mp := s.mp.pop, lau := s1.lau } := by
      rw [← hs1]
      rfl
    rw [hbase] at htaken
    exact htaken.widen (lau' := v.lau) (f := v.fu) (i := v.ts.input) (.refl _) (List.prefix_refl _) (by rw [hb])
      (by rw [hb]) rfl rfl

end

/-- R78: BANK_QUERY's reply, byte by byte. -/
theorem bankReport (l : Lau) (n : Byte) : (n :: l.report).length = 23 ∧ byteAt (n :: l.report) 0 = n ∧
    ((n :: l.report).drop 1).take 16 = l.settings.enc ∧ byteAt (n :: l.report) 17 = byte l.threshold ∧
    byteAt (n :: l.report) 18 = (if l.present then 1 else 0) ∧ byteAt (n :: l.report) 19 = byte l.lastCode ∧
    (l.lastCode ≤ 255 → field (n :: l.report) 20 2 = l.lastCode * 14) ∧
    byteAt (n :: l.report) 22 = (match l.acq with | none => 255 | some a => if a.kind = .track then 0 else 1) := by
  have hdrop : (n :: l.report).drop 17 =
      byte l.threshold :: yn l.present :: byte l.lastCode :: (le 2 (l.lastCode * 14) ++ [acqCode l.acq]) := by
    have hreport : n :: l.report = (n :: l.settings.enc) ++
        (byte l.threshold :: yn l.present :: byte l.lastCode :: (le 2 (l.lastCode * 14) ++ [acqCode l.acq])) := by
      simp [Lau.report, Config.mvPerCode]
    rw [hreport]
    exact List.drop_left' (by simp [BankSettings.enc_length])
  have hbyte : ∀ i, byteAt (n :: l.report) (17 + i) = byteAt ((n :: l.report).drop 17) i := fun i => (byteAt_drop _ _ _).symm
  have hfield : field (n :: l.report) (17 + 3) 2 = field ((n :: l.report).drop 17) 3 2 := (field_drop _ _ _ _).symm
  rw [hdrop] at hfield
  simp only [hdrop] at hbyte
  refine ⟨?_, rfl, ?_, hbyte 0, hbyte 1, hbyte 2, fun h => ?_, ?_⟩
  · simp [Lau.report, BankSettings.enc_length]
  · show (l.settings.enc ++ _ ++ _ ++ _).take 16 = _
    rw [List.append_assoc, List.append_assoc, List.take_left' (BankSettings.enc_length _)]
  · rw [show (20 : Nat) = 17 + 3 from rfl, hfield, field_cons_succ, field_cons_succ, field_cons_succ]
    exact field_le_append _ _ _ (by omega)
  · refine (hbyte 5).trans ?_
    rw [byteAt_cons_succ, byteAt_cons_succ, byteAt_cons_succ, byteAt_le_skip _ _ (le_refl 2)]
    show acqCode l.acq = _
    unfold acqCode
    cases l.acq with
    | none => rfl
    | some a => cases h : a.kind <;> simp [h]

/-- Settles O44, by the closed forms of the requests and what a bank's taking a threshold and a rail state leaves. -/
theorem banksAreSetAndQueried : Obligations.BanksAreSetAndQueried := by
  unfold Obligations.BanksAreSetAndQueried
  refine ⟨fun s tag b r hr ht h1 h5 h6 h12 h14 h23 => ?_, fun s tag n r hr ht hbad => ?_,
    fun s tag b ht => ⟨fun ha => ?_, fun ha => ?_⟩,
    fun s tag b ht => ?_, fun s tag n hn => ⟨fun ht => ?_, fun ht => ?_⟩, fun s b => ?_⟩
  · intro set
    have hdec : ∀ track, (byteAt r 0).toNat ≤ 1 → (!decide (byteAt r 0 = 1)) = track →
        BankSettings.dec r = some { set with track } := fun track h0 htr => by
      subst htr
      exact BankSettings.dec_of h0 h1 h5 h6 h12 h14 h23
    refine ⟨fun h0 => ?_, fun h0 => ?_⟩
    · have htr : set.track = true := decide_eq_true h0
      have hset := hdec set.track (by rw [h0]; decide) (by rw [htr, h0]; rfl)
      clear_value set
      refine congrArg Host.Outcome.next (takeRequest_quiet (u := s.setLau b _) ht (bodyOk_bankSet hr) rfl rfl ?_)
      simp only [bankSetOwner, indexOf_byte4, hset]
      rw [State.bankSet_track _ b htr]
      rfl
    · have htr : set.track = false := decide_eq_false (by rw [h0]; decide)
      have hset := hdec set.track (by rw [h0]; decide) (by rw [htr, h0]; rfl)
      clear_value set
      exact State.bankSet_fixes hr ht hset htr
  · refine congrArg Host.Outcome.next (takeRequest_refused ht (bodyOk_bankSet hr) ?_)
    rcases hbad with h | h
    · simp only [bankSetOwner, indexOf_of_le h]
    · simp only [bankSetOwner, BankSettings.dec_refused h]
      cases indexOf 4 n <;> rfl
  · refine congrArg Host.Outcome.next (takeRequest_quiet (u := s.setLau b _) ht rfl rfl rfl ?_)
    have hacq : ({ s with mp := s.mp.pop } : State).lau[b].acq.isSome = false := Bool.eq_false_iff.mpr fun h =>
      Option.isSome_iff_ne_none.mp h ha
    simp only [acquireOwner, indexOf_byte4]
    rw [hacq, if_neg Bool.false_ne_true, State.acquire_eq]
    rfl
  · have hacq : ({ s with mp := s.mp.pop } : State).lau[b].acq.isSome = true := Option.isSome_iff_ne_none.mpr ha
    refine congrArg Host.Outcome.next (takeRequest_refused ht rfl ?_)
    simp only [acquireOwner, indexOf_byte4]
    exact if_pos hacq
  · refine ⟨byte b.val :: s.lau[b].report, congrArg Host.Outcome.next (takeRequest_unchanged ht rfl ?_), ?_⟩
    · simp only [bankQueryOwner, indexOf_byte4]
      rfl
    · exact bankReport s.lau[b] (byte b.val)
  · refine congrArg Host.Outcome.next (takeRequest_refused ht rfl ?_)
    simp only [acquireOwner, indexOf_of_le hn]
  · refine congrArg Host.Outcome.next (takeRequest_refused ht rfl ?_)
    simp only [bankQueryOwner, indexOf_of_le hn]
  · intro l due
    have hdue : s.lau[b].intervalDue s.clock = true ↔ due := by
      rw [Lau.intervalDue, Bool.and_eq_true, decide_eq_true_eq]
      rfl
    refine ⟨fun h => congrArg Host.Outcome.next (if_neg (mt hdue.mp h)), fun h ha => ?_, fun h ha => ?_⟩
    · refine congrArg Host.Outcome.next ((if_pos (hdue.mpr h)).trans ((State.intervalStart_eq s b).trans (if_neg ?_)))
      exact fun hs => Option.isSome_iff_ne_none.mp hs ha
    · exact congrArg Host.Outcome.next ((if_pos (hdue.mpr h)).trans ((State.intervalStart_eq s b).trans
        (if_pos (Option.isSome_iff_ne_none.mpr ha))))

end Sys2Proof.Machine

end


section
/-! ACQUISITION_END (R71 to R80). -/

namespace Sys2Proof.Machine

/-! ## The flag that a bank's reaction does not raise -/

section
variable {n : Nat}

/-- Raises of other flags leave flag `n`. -/
theorem raiseAll_other {α : Type} (l : List α) (f : Flag) (u : Fu) (hn : n < 15) (h : n ≠ f.number) :
    (l.foldl (fun u _ => u.raise f) u).flags.getLsbD n = u.flags.getLsbD n := by
  induction l generalizing u with
  | nil => rfl
  | cons a l ih => exact (ih _).trans (Fu.raise_other u f n hn h)

theorem State.forceReleases_flag8 (s : State) (l : List (Fin 8)) :
    (l.foldl State.forceRelease s).fu.flags.getLsbD 8 = s.fu.flags.getLsbD 8 := by
  induction l generalizing s with
  | nil => rfl
  | cons c l ih =>
    refine (ih _).trans ?_
    by_cases h : s.dc[c].railGated = true ∧ s.dc[c].mode ≠ .released
    · rw [State.forceRelease_of_driving s c h.1 h.2, State.raise_fu, Fu.raise_other _ _ _ (by omega) (by decide),
        State.handDrive_eq]
      rfl
    · have hidle : s.dc[c].railGated = false ∨ s.dc[c].mode = .released := by
        by_cases hg : s.dc[c].railGated = true
        · exact .inr (by_contra fun hm => h ⟨hg, hm⟩)
        · exact .inl (Bool.eq_false_iff.2 hg)
      rw [State.forceRelease_of_idle s c hidle]

theorem State.scanRailLoss_flag8 (s : State) (hp : s.lau[(3 : Fin 4)].present = false) :
    s.scanRailLoss.fu.flags.getLsbD 8 = s.fu.flags.getLsbD 8 := by
  rw [State.scanRailLoss_eq hp, State.completeAll_eq]
  exact raiseAll_other _ _ _ (by omega) (by decide)

/-- R75, R79: the blocks' reaction to a lost rail does not raise ACQ_DONE. -/
theorem State.railLost_flag8 (s : State) (b : Fin 4) (hp : s.lau[b].present = false) :
    (s.railLost b).fu.flags.getLsbD 8 = s.fu.flags.getLsbD 8 := by
  obtain ⟨mc, rm, hinputs, -⟩ := s.loseInputs_eq b
  have hports : ∀ u : State, ((bankPorts b).foldl State.portRailLoss u).fu.flags.getLsbD 8 = u.fu.flags.getLsbD 8 := fun u => by
    obtain ⟨cp, tm, fu, inp, h, hfu, -⟩ := u.losePorts_eq b
    rw [h]
    rcases hfu with rfl | rfl
    · rfl
    · exact Fu.raise_other _ _ _ (by omega) (by decide)
  unfold State.railLost
  dsimp only
  rw [hinputs]
  have h4 : ((bankPorts b).foldl State.portRailLoss
      ((bankDrives b).foldl State.forceRelease { s with mc, rm })).fu.flags.getLsbD 8 = s.fu.flags.getLsbD 8 :=
    (hports _).trans (State.forceReleases_flag8 _ _)
  have hlau : ((bankPorts b).foldl State.portRailLoss ((bankDrives b).foldl State.forceRelease { s with mc, rm })).lau =
      s.lau := by
    rw [State.losePorts_lau, State.forceReleases_lau]
  generalize (bankPorts b).foldl State.portRailLoss ((bankDrives b).foldl State.forceRelease { s with mc, rm }) = u at h4 hlau
  split
  · next hb =>
    subst hb
    obtain ⟨inp, hcode, -⟩ := u.codeRailLoss_eq
    rw [State.scanRailLoss_flag8 _ (by rw [State.codeRailLoss_lau, hlau]; exact hp), hcode]
    exact h4
  · exact h4

/-- R75, R79: a bank's taking a threshold and a rail state does not raise ACQ_DONE. -/
theorem State.setBank_flag8 (s : State) (b : Fin 4) (threshold : Nat) (present : Bool) :
    (s.setBank b threshold present).fu.flags.getLsbD 8 = s.fu.flags.getLsbD 8 := by
  by_cases hp : s.lau[b].present = present
  · obtain ⟨-, -, hquiet⟩ := s.setBank_taken b threshold present
    rw [(hquiet hp).2]
  · obtain ⟨rm, cp, heq, -⟩ := s.withLevel_eq b threshold present
    have hfu : (s.withLevel b threshold present).fu = s.fu := by rw [heq]
    have hlau : (s.withLevel b threshold present).lau[b].present = present := by
      rw [heq]
      exact congrArg Lau.present (Vector.getElem_set_self b.isLt)
    rw [s.setBank_moved b hp]
    generalize s.withLevel b threshold present = v at hfu hlau
    have hraise : ∀ e : Event, ((v.handEvent e).raise .rail).fu.flags.getLsbD 8 = s.fu.flags.getLsbD 8 := fun e => by
      rw [← hfu]
      exact Fu.raise_other _ _ _ (by omega) (by decide)
    dsimp only
    cases present with
    | true =>
      obtain ⟨mc, rm, cp, cdp, h, -⟩ := State.railCame_eq ((v.handEvent (s.railEvent b true)).raise .rail) b
      rw [if_pos rfl, h]
      exact hraise _
    | false =>
      rw [if_neg Bool.false_ne_true, State.railLost_flag8 _ b (by exact hlau)]
      exact hraise _

end

/-! ## The end of an acquisition -/

section
variable {s : State} {b : Fin 4}

/-- R71, R75: the threshold and the rail state in place already change nothing. -/
theorem State.setBank_same (s : State) (b : Fin 4) : s.setBank b s.lau[b].threshold s.lau[b].present = s := by
  have hw : s.withLevel b s.lau[b].threshold s.lau[b].present = s :=
    (if_neg fun h => h rfl).trans (congrArg (fun v => { s with lau := v }) (vector_set_self s.lau b))
  rw [s.setBank_kept b rfl, if_neg fun h => h.2 rfl, hw]

/-- R73: the rail state after a code. -/
def Lau.railOf (l : Lau) (code : Nat) : Bool :=
  if l.settings.track then (if l.present then decide (l.settings.down ≤ code) else decide (l.settings.up ≤ code)) else l.present

/-- R73, R75: the threshold after a code. -/
def Lau.thresholdOf (l : Lau) (code : Nat) : Nat := if l.settings.track then code / 2 else l.threshold

/-- R73, R75: the state in which the bank takes its new threshold and rail state. -/
def State.measured (s : State) (b : Fin 4) (code : Nat) : State :=
  s.setLau b { s.lau[b] with lastCode := code, acq := none }

theorem State.endAcq_eq (s : State) (b : Fin 4) (a : Acq) : s.endAcq b a =
    let s2 := (s.measured b a.result).setBank b (s.lau[b].thresholdOf a.result) (s.lau[b].railOf a.result)
    let s4 := (s2.handLevel b a.result (s2.lau[b].present != s.lau[b].present)).raiseIf (a.kind == .requested) .acqDone
    if s.lau[b].trackWaiting then s4.beginAcq b .track else s4 := by
  have hset : (if s.lau[b].settings.track then (s.measured b a.result).setBank b (a.result / 2)
        (s.lau[b].settings.railAfter s.lau[b].present a.result) else s.measured b a.result) =
      (s.measured b a.result).setBank b (s.lau[b].thresholdOf a.result) (s.lau[b].railOf a.result) := by
    unfold Lau.thresholdOf Lau.railOf
    by_cases ht : s.lau[b].settings.track = true
    · rw [if_pos ht, if_pos ht, if_pos ht]
      rfl
    · rw [if_neg ht, if_neg ht, if_neg ht]
      have hb := State.setLau_get_self s b { s.lau[b] with lastCode := a.result, acq := none }
      have hsame := (s.measured b a.result).setBank_same b
      rw [show (s.measured b a.result).lau[b] = _ from hb] at hsame
      exact hsame.symm
  unfold State.endAcq
  dsimp only
  rw [← hset]
  rfl

/-- R80: the LEVEL record of an acquisition end. -/
theorem State.handLevel_eq (s : State) (b : Fin 4) (code : Nat) (changed : Bool) : ∃ inp, s.handLevel b code changed =
      { s with ts := { s.ts with input := inp } } ∧ s.ts.input <+: inp ∧
    (s.live = true → changed = true ∨ s.lau[b].settings.traceAll = true →
      ∃ w ∈ inp, w.record = ⟨s.rc.timeBase, .level b (byte code) s.lau[b].present changed⟩) ∧
    (changed = false → s.lau[b].settings.traceAll = false → inp = s.ts.input) := by
  unfold State.handLevel
  by_cases hc : changed = true ∨ s.lau[b].settings.traceAll = true
  · rw [if_pos hc]
    refine ⟨_, State.hand_eq s _ _, State.hand_behind s _ _, fun hl _ => ?_, fun h1 h2 => ?_⟩
    · rw [State.hand_of_live _ _ hl]
      exact ⟨_, List.mem_append_right _ (List.mem_singleton_self _), rfl⟩
    · rw [h1, h2] at hc
      exact absurd hc (by decide)
  · rw [if_neg hc]
    exact ⟨s.ts.input, rfl, List.prefix_refl _, fun _ h => absurd h hc, fun _ _ => rfl⟩

theorem State.raiseIf_flag8 (u : Fu) (c : Bool) :
    u.Kept (if c then u.raise .acqDone else u) ∧ (c = true → (if c then u.raise .acqDone else u).flags.getLsbD 8 = true) ∧
      (c = false → (if c then u.raise .acqDone else u) = u) := by
  cases c with
  | true => exact ⟨Fu.raise_keeps u _, fun _ => Fu.raise_sets _ .acqDone, fun h => absurd h Bool.true_eq_false.mp⟩
  | false => exact ⟨.refl u, fun h => absurd h Bool.false_ne_true, fun _ => rfl⟩

/-- R71, R73, R75, R80: the end of an acquisition, part by part: what the bank's reaction left, with a LEVEL record, ACQ_DONE,
and the waiting acquisition begun. -/
theorem State.endAcq_parts (s : State) (b : Fin 4) (a : Acq) : ∃ v inp f lau, s.endAcq b a =
      { v with lau, fu := f, ts := { v.ts with input := inp } } ∧
    v = (s.measured b a.result).setBank b (s.lau[b].thresholdOf a.result) (s.lau[b].railOf a.result) ∧
    lau = s.lau.set b { s.lau[b] with
      lastCode := a.result, threshold := s.lau[b].thresholdOf a.result, present := s.lau[b].railOf a.result
      trackWaiting := false
      acq := if s.lau[b].trackWaiting then some (Acq.begin .track s.lau[b].settings) else none } b.isLt ∧
    v.ts.input <+: inp ∧
    (s.live = true → s.lau[b].present ≠ s.lau[b].railOf a.result ∨ s.lau[b].settings.traceAll = true →
      ∃ w ∈ inp, w.record = ⟨s.rc.timeBase, .level b (byte a.result) (s.lau[b].railOf a.result)
        (decide (s.lau[b].present ≠ s.lau[b].railOf a.result))⟩) ∧
    (s.lau[b].present = s.lau[b].railOf a.result → s.lau[b].settings.traceAll = false → inp = v.ts.input) ∧
    v.fu.Kept f ∧ (a.kind = .requested → f.flags.getLsbD 8 = true) ∧ (a.kind = .track → f = v.fu) := by
  have hm : (s.measured b a.result).lau[b] = { s.lau[b] with lastCode := a.result, acq := none } := State.setLau_get_self _ b _
  obtain ⟨-, hlau, -⟩ := (s.measured b a.result).setBank_taken b (s.lau[b].thresholdOf a.result) (s.lau[b].railOf a.result)
  have hframe := (s.measured b a.result).setBank_boardFrame b (s.lau[b].thresholdOf a.result) (s.lau[b].railOf a.result)
  have heq := s.endAcq_eq b a
  generalize hv : (s.measured b a.result).setBank b (s.lau[b].thresholdOf a.result) (s.lau[b].railOf a.result) = v
    at hlau hframe heq
  rw [hm] at hlau
  have hvlau : v.lau = s.lau.set b { s.lau[b] with
      lastCode := a.result, acq := none, threshold := s.lau[b].thresholdOf a.result, present := s.lau[b].railOf a.result }
      b.isLt := hlau.trans (Vector.set_set _ _)
  have hvb : v.lau[b] = _ := (congrArg (fun x : Vector Lau 4 => x[b]) hvlau).trans (Vector.getElem_set_self b.isLt)
  have hlive : v.live = s.live := hframe.live
  have hrc : v.rc = s.rc := hframe.rc
  dsimp only at heq
  obtain ⟨inp, hlevel, hpre, hrec, hquiet⟩ := v.handLevel_eq b a.result (v.lau[b].present != s.lau[b].present)
  have hraise : ∀ (u : State) (c : Bool), u.raiseIf c .acqDone = { u with fu := if c then u.fu.raise .acqDone else u.fu } :=
    fun u c => by cases c <;> rfl
  rw [hlevel, hraise] at heq
  rw [hvb] at hrec hquiet
  have hchanged : (s.lau[b].railOf a.result != s.lau[b].present) = decide (s.lau[b].present ≠ s.lau[b].railOf a.result) := by
    cases s.lau[b].railOf a.result <;> cases s.lau[b].present <;> rfl
  rw [hchanged] at hrec hquiet
  obtain ⟨hkept, hreq, htrk⟩ := State.raiseIf_flag8 v.fu (a.kind == .requested)
  refine ⟨v, inp, _, _, ?_, rfl, rfl, hpre, fun hl hor => ?_, fun hp htr => ?_, hkept, fun hk => ?_, fun hk => ?_⟩
  · rw [heq]
    by_cases hw : s.lau[b].trackWaiting = true
    · rw [if_pos hw, if_pos hw]
      unfold State.beginAcq
      show ({ v with ts := _, fu := _ } : State).setLau b _ = _
      refine congrArg (fun x => ({ v with lau := x, ts := _, fu := _ } : State)) ?_
      show v.lau.set b { v.lau[b] with acq := some (Acq.begin .track v.lau[b].settings), trackWaiting := false } b.isLt = _
      rw [hvb, hvlau, Vector.set_set]
    · rw [if_neg hw, if_neg hw]
      refine congrArg (fun x => ({ v with lau := x, ts := _, fu := _ } : State)) (hvlau.trans ?_)
      rw [Bool.not_eq_true] at hw
      rw [← hw]
  · obtain ⟨w, hw, hr⟩ := hrec (hlive.trans hl) (hor.imp_left decide_eq_true)
    exact ⟨w, hw, hr.trans (by rw [hrc])⟩
  · exact hquiet (decide_eq_false fun h => h hp) htr
  · exact hreq (by rw [hk]; rfl)
  · exact htrk (by rw [hk]; rfl)

end

/-- Settles O45, by the parts of an acquisition's end and what the bank's taking its threshold and rail state leaves. -/
theorem acquisitionsEnd : Obligations.AcquisitionsEnd := by
  unfold Obligations.AcquisitionsEnd
  intro s b a ha
  have hexec : exec (.acquisitionEnd b) s = .next (if a.done then s.endAcq b a else s) := by
    show Host.Outcome.next (match s.lau[b].acq with | some a => _ | none => _) = _
    rw [ha]
  refine ⟨fun hlt => ?_, fun hle => ?_⟩
  · rw [hexec, if_neg (mt a.done_iff.mp (Nat.not_le.mpr hlt))]
  · intro l up threshold
    rw [hexec, if_pos (a.done_iff.mpr hle)]
    obtain ⟨v, inp, f, lau, heq, hv, hlau, hpre, hrec, hquiet, hkept, hreq, htrk⟩ := s.endAcq_parts b a
    obtain ⟨htaken, hvlau, hsame⟩ := (s.measured b a.result).setBank_taken b threshold up
    have hflag := (s.measured b a.result).setBank_flag8 b threshold up
    have hframe := s.endAcq_boardFrame b a
    have hm : (s.measured b a.result).lau[b] = { s.lau[b] with lastCode := a.result, acq := none } :=
        State.setLau_get_self _ b _
    have hthr := congrArg Lau.threshold hm
    have hpres := congrArg Lau.present hm
    have hv' : (s.measured b a.result).setBank b threshold up = v := hv.symm
    rw [hv'] at htaken hvlau hsame hflag
    have hlaub : lau[b] = _ := (congrArg (fun x : Vector Lau 4 => x[b]) hlau).trans (Vector.getElem_set_self b.isLt)
    have hsame' : l.present = up → v.ts = s.ts ∧ v.fu = s.fu := fun h => hsame (by rw [hm]; exact h)
    refine ⟨_, rfl, hframe.mp, hframe.rc, ?_, ?_, fun hk => ?_, fun hk => ?_, fun hl hor => ?_, fun hp hk => ?_,
      fun hp htr => ?_⟩
    all_goals rw [heq]
    · exact hlau
    · exact BankTaken.widen (s := s) (m := s.mp) (m' := v.mp) htaken hkept hpre hthr hpres
        (by rw [hlaub]; exact htaken.threshold.symm) (by rw [hlaub]; exact htaken.present.symm)
    · exact hreq hk
    · exact (congrArg (fun u : Fu => u.flags.getLsbD 8) (htrk hk)).trans hflag
    · exact hrec (State.live_of hl) hor
    · exact (htrk hk).trans (hsame' hp).2
    · show ({ v.ts with input := inp } : Ts) = s.ts
      rw [hquiet hp htr]
      exact (hsame' hp).1

end Sys2Proof.Machine

end


section
/-! PROOFS. DRIVE_SET (R117 to R120): its refusals, the settings part with its forced release, and the operation. -/

namespace Sys2Proof.Machine

/-! ## Records of a drive channel -/

/-- R119: a DRIVE record is handed over in a run, and only there. -/
theorem State.handDrive_records (s : State) (c : Fin 8) (m : DriveMode) (w : DriveCause) :
    ∃ inp, s.handDrive c m w = { s with ts := { s.ts with input := inp } } ∧ (s.live = false → inp = s.ts.input) ∧
      (s.live = true → inp.map Waiting.record = s.ts.input.map Waiting.record ++ [⟨s.rc.timeBase, .drive c m w⟩]) := by
  refine ⟨_, s.handDrive_eq c m w, fun hl => ?_, fun hl => ?_⟩
  · rw [State.handDrive, State.hand_of_idle _ _ hl]
  · rw [State.handDrive, State.hand_of_live _ _ hl]
    exact List.map_append

/-- R117, R119: an operation of a request, with the record it calls for. -/
theorem State.driveOperate_records (s : State) (c : Fin 8) (op : DriveOp) (w : DriveCause) :
    ∃ inp, s.driveOperate c op w = { s.setDc c (s.dc[c].operate op) with ts := { s.ts with input := inp } } ∧
      (s.live = false → inp = s.ts.input) ∧
      (s.live = true → inp.map Waiting.record = s.ts.input.map Waiting.record ++
        if recordsChange s.dc[c] (s.dc[c].operate op) op then [⟨s.rc.timeBase, .drive c (s.dc[c].operate op).driveMode w⟩]
        else []) := by
  unfold State.driveOperate
  dsimp only
  by_cases h : recordsChange s.dc[c] (s.dc[c].operate op) op = true
  · rw [if_pos h, if_pos h]
    obtain ⟨inp, heq, hidle, hlive⟩ := (s.setDc c (s.dc[c].operate op)).handDrive_records c (s.dc[c].operate op).driveMode w
    exact ⟨inp, heq, hidle, hlive⟩
  · rw [if_neg h, if_neg h]
    exact ⟨s.ts.input, rfl, fun _ => rfl, fun _ => (List.append_nil _).symm⟩

/-! ## The settings part (R118, R120) -/

/-- The channel with the settings part applied, where there is one. -/
def Dc.applied (d : Dc) (part : Option DrivePart) : Dc := part.elim d d.apply

/-- R120: whether the settings part forces the channel to RELEASED, with its bank's rail PRESENT or not. -/
def Dc.forced (d : Dc) (part : Option DrivePart) (up : Bool) : Bool :=
  part.isSome && d.gatedAfter part && !up && decide ((d.applied part).mode ≠ .released)

/-- The channel after the settings part and the forced release. -/
def Dc.settled (d : Dc) (part : Option DrivePart) (up : Bool) : Dc :=
  if d.forced part up then (d.applied part).operate .release else d.applied part

/-- R118, R120: the settings part of a DRIVE_SET, with the record and DRIVE_BLOCK of a forced release. -/
theorem State.applyPart_records (s : State) (c : Fin 8) (part : Option DrivePart) :
    ∃ inp, s.applyPart c part = { s.setDc c (s.dc[c].settled part s.lau[driveBank c].present) with
        fu := if s.dc[c].forced part s.lau[driveBank c].present then (s.raise .driveBlock).fu else s.fu
        ts := { s.ts with input := inp } } ∧
      (s.live = false → inp = s.ts.input) ∧
      (s.live = true → inp.map Waiting.record = s.ts.input.map Waiting.record ++
        if s.dc[c].forced part s.lau[driveBank c].present then [⟨s.rc.timeBase, .drive c .released .rail⟩] else []) := by
  cases part with
  | none =>
    refine ⟨s.ts.input, ?_, fun _ => rfl, fun _ => (List.append_nil _).symm⟩
    exact congrArg (fun v => ({ s with dc := v } : State)) (vector_set_self s.dc c).symm
  | some r =>
    have hself : (s.setDc c (s.dc[c].apply r)).dc[c] = s.dc[c].apply r := Vector.getElem_set_self c.isLt
    have hforced : s.dc[c].forced (some r) s.lau[driveBank c].present =
        (s.driveBlocked c r.railGated && decide ((s.dc[c].apply r).mode ≠ .released)) := rfl
    have hsettled : s.dc[c].settled (some r) s.lau[driveBank c].present =
      if s.dc[c].forced (some r) s.lau[driveBank c].present then (s.dc[c].apply r).operate .release else s.dc[c].apply r := rfl
    rw [hsettled]
    unfold State.applyPart
    dsimp only
    by_cases hb : s.driveBlocked c r.railGated = true
    · rw [if_pos hb]
      by_cases hm : (s.dc[c].apply r).mode = .released
      · rw [State.forceRelease_of_idle _ c (.inr (by rw [hself]; exact hm)), hforced, decide_eq_false (not_not_intro hm),
          Bool.and_false]
        exact ⟨s.ts.input, rfl, fun _ => rfl, fun _ => (List.append_nil _).symm⟩
      · have hg : r.railGated = true := (Bool.and_eq_true_iff.1 hb).1
        rw [State.forceRelease_of_driving _ c (by rw [hself]; exact hg) (by rw [hself]; exact hm), hself, hforced, hb,
          decide_eq_true hm]
        have hset : (s.setDc c (s.dc[c].apply r)).setDc c ((s.dc[c].apply r).operate .release) =
            s.setDc c ((s.dc[c].apply r).operate .release) :=
          congrArg (fun v => ({ s with dc := v } : State)) (Vector.set_set _ _)
        rw [hset]
        obtain ⟨inp, heq, hidle, hlive⟩ :=
          (s.setDc c ((s.dc[c].apply r).operate .release)).handDrive_records c .released .rail
        rw [heq]
        exact ⟨inp, rfl, hidle, hlive⟩
    · rw [if_neg hb, hforced, Bool.eq_false_iff.2 hb]
      exact ⟨s.ts.input, rfl, fun _ => rfl, fun _ => (List.append_nil _).symm⟩

/-! ## The whole request -/

/-- The channel after the operation, none for NONE. -/
def Dc.operated (d : Dc) (op : Option DriveOp) : Dc := op.elim d d.operate

/-- R118: the effect of an accepted DRIVE_SET. -/
theorem State.driveSet_records (s : State) (c : Fin 8) (op : Option DriveOp) (part : Option DrivePart) :
    let forced := s.dc[c].forced part s.lau[driveBank c].present
    let before := s.dc[c].settled part s.lau[driveBank c].present
    ∃ inp, s.driveSet c op part = { s.setDc c (before.operated op) with
        fu := if forced then (s.raise .driveBlock).fu else s.fu
        ts := { s.ts with input := inp } } ∧
      (s.live = false → inp = s.ts.input) ∧
      (s.live = true → inp.map Waiting.record = s.ts.input.map Waiting.record ++
        (if forced then [⟨s.rc.timeBase, .drive c .released .rail⟩] else []) ++
        if op.any (recordsChange before (before.operated op)) then
          [⟨s.rc.timeBase, .drive c (before.operated op).driveMode .station⟩] else []) := by
  intro forced before
  obtain ⟨inp, heq, hidle, hlive⟩ := s.applyPart_records c part
  unfold State.driveSet
  rw [heq]
  cases op with
  | none => exact ⟨inp, rfl, hidle, fun hl => (hlive hl).trans (List.append_nil _).symm⟩
  | some o =>
    have hself : (s.setDc c before).dc[c] = before := Vector.getElem_set_self c.isLt
    obtain ⟨inp', heq', hidle', hlive'⟩ := State.driveOperate_records { s.setDc c before with
        fu := if forced then (s.raise .driveBlock).fu else s.fu
        ts := { s.ts with input := inp } } c o .station
    rw [show ({ s.setDc c before with
        fu := if forced then (s.raise .driveBlock).fu else s.fu
        ts := { s.ts with input := inp } } : State).dc[c] = before from hself] at heq' hlive'
    refine ⟨inp', heq'.trans ?_, fun hl => (hidle' hl).trans (hidle hl), fun hl => (hlive' hl).trans ?_⟩
    · exact congrArg (fun v => ({ s with
        dc := v
        fu := if forced then (s.raise .driveBlock).fu else s.fu
        ts := { s.ts with input := inp' } } : State)) (Vector.set_set (hi := c.isLt) _)
    · exact congrArg (· ++ _) (hlive hl)

/-- The command of a DRIVE_SET by its operation, NONE among them. -/
def driveSetOf (tag n : Byte) (op : Option DriveOp) (part : Bytes) : Instr :=
  match op with
  | none => .driveSetNone tag n 255 part
  | some .release => .driveSetRelease tag n part
  | some .low => .driveSetLow tag n part
  | some .high => .driveSetHigh tag n part
  | some .startPulse => .driveSetStartPulse tag n part
  | some .stopPulse => .driveSetStopPulse tag n part

theorem exec_driveSetOf (s : State) (tag n : Byte) (op : Option DriveOp) (part : Bytes) : exec (driveSetOf tag n op part) s =
    .next (takeRequest (driveSetOf tag n op part) 0x50 tag (driveSetOwner n op part) s) := by
  cases op with
  | none => rfl
  | some o => cases o <;> rfl

theorem bodyAllowed_drivePart {a b : Byte} {part : Bytes} (h : part.length = 0 ∨ part.length = 10) :
    bodyAllowed 0x50 (a :: b :: part) = true := by
  rcases h with h | h <;> simp [bodyAllowed, h]

theorem bodyOk_driveSetOf {tag n : Byte} {op : Option DriveOp} {part : Bytes} (h : part.length = 0 ∨ part.length = 10) :
    (driveSetOf tag n op part).bodyOk = true := by
  cases op with
  | none => exact Instr.bodyOk_of rfl (bodyAllowed_drivePart h)
  | some o => cases o <;> exact Instr.bodyOk_of rfl (bodyAllowed_drivePart h)

/-- R118: a settings part out of range is refused. -/
theorem DrivePart.dec_refused {b : Bytes} (h : 2 ≤ (byteAt b 0).toNat ∨ 2 ≤ (byteAt b 1).toNat ∨
    2 ≤ (byteAt b 4).toNat ∨ 15 ≤ (byteAt b 3).toNat ∨ field b 6 2 = 0 ∨ field b 8 2 = 0) : DrivePart.dec b = none := by
  refine dec_none fun r hr => ?_
  simp only [DrivePart.dec, Option.bind_eq_bind, Option.bind_eq_some_iff] at hr
  obtain ⟨openDrain, h0, activeHigh, h1, railGated, -, rep, h4, hr⟩ := hr
  have := ynOf_le h0
  have := ynOf_le h1
  have := ynOf_le h4
  split at hr
  · cases hr
  · omega

theorem partOf_refused {b : Bytes} (hl : b.length = 10) (h : 2 ≤ (byteAt b 0).toNat ∨ 2 ≤ (byteAt b 1).toNat ∨
    2 ≤ (byteAt b 4).toNat ∨ 15 ≤ (byteAt b 3).toNat ∨ field b 6 2 = 0 ∨ field b 8 2 = 0) : partOf b = none := by
  have hne : b ≠ [] := fun e => by simp [e] at hl
  rw [partOf, if_neg hne, DrivePart.dec_refused h]
  rfl

/-- R118: the settings part a request carries is read back. -/
theorem partOf_enc {part : Option DrivePart} (h : ∀ r, part = some r → r.values.prescaler ≤ 14 ∧ 1 ≤ r.values.a ∧
    r.values.a ≤ 65535 ∧ 1 ≤ r.values.b ∧ r.values.b ≤ 65535) : partOf (part.elim [] DrivePart.enc) = some part := by
  cases part with
  | none => rfl
  | some r =>
    obtain ⟨hp, ha, ha', hb, hb'⟩ := h r rfl
    have hdec := r.dec_enc hp ha ha' hb hb'
    have hne : r.enc ≠ [] := List.cons_ne_nil _ _
    show (if r.enc = [] then _ else _) = _
    rw [if_neg hne]
    exact congrArg (Option.map some) hdec

theorem partOf_length (part : Option DrivePart) :
    (part.elim [] DrivePart.enc).length = 0 ∨ (part.elim [] DrivePart.enc).length = 10 := by
  cases part with
  | none => exact .inl rfl
  | some r => exact .inr (by simp [DrivePart.enc])

theorem anyDrives_iff {op : Option DriveOp} :
    op.any DriveOp.drives = true ↔ op = some .low ∨ op = some .high ∨ op = some .startPulse := by
  cases op with
  | none => decide
  | some o => cases o <;> decide

theorem anyRecords_iff {d : Dc} {op : Option DriveOp} : op.any (recordsChange d (d.operated op)) = true ↔
    (d.operated op).driveMode ≠ d.driveMode ∨ (op = some .startPulse ∧ d.running = true) := by
  cases op with
  | none => simp [Dc.operated]
  | some o =>
    show (d.driveMode != (d.operate o).driveMode || (o == .startPulse && d.running)) = true ↔ _
    rw [Bool.or_eq_true, Bool.and_eq_true, bne_iff_ne, beq_iff_eq, ne_comm, Option.some_inj]
    rfl

/-- Settles O56: the refusals of R118 in their order, and the effect by `State.driveSet_records`. -/
theorem driveSetActs : Obligations.DriveSetActs := by
  unfold Obligations.DriveSetActs
  intro command
  have hcommand : command = driveSetOf := by
    funext tag n op part
    cases op with
    | none => rfl
    | some o => cases o <;> rfl
  clear_value command
  subst hcommand
  intro s tag
  refine fun n op part hl ht => ⟨fun hbad => ?_, fun n op part hl h5 hne ht => ?_, fun c op part hpart => ?_⟩
  · rw [exec_driveSetOf]
    refine congrArg Host.Outcome.next (takeRequest_refused ht (bodyOk_driveSetOf hl) ?_)
    rcases hbad with hn | ⟨hlen, hbad⟩
    · simp only [driveSetOwner, indexOf_of_le hn]
    · simp only [driveSetOwner, partOf_refused hlen hbad]
      cases indexOf 8 n <;> rfl
  · refine congrArg Host.Outcome.next (takeRequest_refused ht (Instr.bodyOk_of rfl (bodyAllowed_drivePart hl)) ?_)
    have hdec : DriveOp.dec op = none := dec_none fun o ho => Nat.not_lt.2 h5 (DriveOp.dec_lt ho)
    simp only [driveSetByByte, opOf, if_neg hne, hdec]
    rfl
  · intro cmd gated up drives
    have hgated : gated = s.dc[c].gatedAfter part := by cases part <;> rfl
    have hcmd : cmd = driveSetOf tag (byte c.val) op (part.elim [] DrivePart.enc) := by
      cases part <;> rfl
    have hup : up = s.lau[driveBank c].present := rfl
    clear_value cmd gated up
    subst hcmd hgated hup
    intro ht
    rw [exec_driveSetOf]
    have hok := bodyOk_driveSetOf (tag := tag) (n := byte c.val) (op := op) (partOf_length part)
    have howner : ∀ u : State, driveSetOwner (byte c.val) op (part.elim [] DrivePart.enc) u =
        if !u.permitMask.getLsbD c.val then refuse u .denied
        else if op.any DriveOp.drives && u.driveBlocked c (u.dc[c].gatedAfter part) then refuse u .rail
        else okay (u.driveSet c op part) ([byte c.val, (u.driveSet c op part).dc[c].driveMode.code] ++
          (u.driveSet c op part).dc[c].part.enc) := fun u => by
      unfold driveSetOwner
      rw [indexOf_byte8, partOf_enc hpart]
    refine ⟨fun hm => ?_, fun hm hd hg hu => ?_, fun hm hrail => ?_⟩
    · refine congrArg Host.Outcome.next (takeRequest_refused ht hok ?_)
      rw [howner, hm]
      rfl
    · refine congrArg Host.Outcome.next (takeRequest_refused ht hok ?_)
      rw [howner, hm, anyDrives_iff.2 hd]
      refine (if_neg Bool.false_ne_true).trans (if_pos ?_)
      show (true && (s.dc[c].gatedAfter part && !s.lau[driveBank c].present)) = true
      rw [hg, hu]
      rfl
    · intro d1 forced still d2 still2 d3 recorded
      have hd1 : d1 = s.dc[c].applied part := by cases part <;> rfl
      have hforced : forced = s.dc[c].forced part s.lau[driveBank c].present := by
        show (part.isSome && _ && _ && decide (d1.mode ≠ .released)) = _
        rw [hd1]
        rfl
      have hd2 : d2 = s.dc[c].settled part s.lau[driveBank c].present := by
        show (if forced = true then ({ d1.stopGen with mode := .released } : Dc) else d1) = _
        rw [hforced, hd1]
        rfl
      have hd3 : d3 = d2.operated op := by
        cases op with
        | none => rfl
        | some o => cases o <;> rfl
      have hrec : recorded ↔ op.any (recordsChange d2 (d2.operated op)) = true := by
        rw [anyRecords_iff, ← hd3]
      rw [← hd3] at hrec
      obtain ⟨inp, heq, hidle, hlive⟩ := State.driveSet_records { s with mp := s.mp.pop } c op part
      have hself : ((State.driveSet { s with mp := s.mp.pop } c op part).dc[c]) = d3 := by
        rw [heq, hd3, hd2]
        exact Vector.getElem_set_self c.isLt
      refine ⟨{ s.setDc c d3 with
        fu := if forced then (s.raise .driveBlock).fu else s.fu, ts := { s.ts with input := inp } },
        congrArg Host.Outcome.next (takeRequest_changed ht hok rfl ?_), rfl, rfl, fun hl => hidle hl, fun hl => ?_⟩
      · rw [howner, hm, Bool.not_true, if_neg Bool.false_ne_true, if_neg, hself, heq, hforced, hd3, hd2]
        · rfl
        · rw [Bool.and_eq_true, anyDrives_iff]
          rintro ⟨hd, hb⟩
          obtain ⟨hg, hu⟩ := Bool.and_eq_true_iff.1 hb
          rw [hrail hd hg] at hu
          exact Bool.false_ne_true hu
      · rw [hd2] at hd3
        refine (hlive hl).trans ?_
        rw [← hd3, ← hd2, ← hforced]
        exact congrArg (_ ++ ·) (if_congr hrec.symm rfl rfl)

end Sys2Proof.Machine

end


section
/-! PROOFS. PERMIT_SET, PERMIT_LOCK and DRIVE_QUERY (R115, R121, R122), and the generator (R116, R119). -/

namespace Sys2Proof.Machine

/-! ## The permit mask (R121) -/

/-- R121: a channel revoked is RELEASED, and raises DRIVE_BLOCK where it was not. -/
theorem State.revoke_eq (s : State) (c : Fin 8) : s.revoke c = { s.setDc c (s.dc[c].operate .release) with
    fu := if s.dc[c].mode ≠ .released then s.fu.raise .driveBlock else s.fu } := by
  unfold State.revoke
  by_cases h : s.dc[c].mode = .released
  · rw [(Dc.driveMode_released _).2 h, if_neg (not_not_intro h)]
    rfl
  · have hd : s.dc[c].driveMode ≠ .released := mt (Dc.driveMode_released _).1 h
    rw [bne_iff_ne.2 hd, if_pos h]
    rfl

/-- R136: a flag raised under one condition and then under another is raised where either holds. -/
theorem Fu.raise_or (u : Fu) (f : Flag) (a b : Prop) [Decidable a] [Decidable b] [Decidable (a ∨ b)] :
    (if b then (if a then u.raise f else u).raise f else if a then u.raise f else u) = if a ∨ b then u.raise f else u := by
  by_cases ha : a
  · rw [if_pos ha, Fu.raise_raise, ite_self, if_pos (Or.inl ha)]
  · rw [if_neg ha]
    exact if_congr (or_iff_right ha).symm rfl rfl

/-- R121: the channels revoked one after another. -/
theorem State.revokeAll_eq {l : List (Fin 8)} (hl : l.Nodup) (s : State) : ∃ dc, l.foldl State.revoke s = { s with
      dc, fu := if ∃ c ∈ l, s.dc[c].mode ≠ .released then s.fu.raise .driveBlock else s.fu } ∧
    ∀ c : Fin 8, dc[c] = if c ∈ l then s.dc[c].operate .release else s.dc[c] := by
  induction l generalizing s with
  | nil => exact ⟨s.dc, by simp, fun c => (if_neg List.not_mem_nil).symm⟩
  | cons k l ih =>
    obtain ⟨hk, hl⟩ := List.nodup_cons.1 hl
    have hget : ∀ c ∈ l, (s.revoke k).dc[c] = s.dc[c] := fun c hc => by
      rw [State.revoke_eq]
      exact Vector.getElem_set_ne k.isLt c.isLt fun h => hk (Fin.ext h ▸ hc)
    obtain ⟨dc, heq, hdc⟩ := ih hl (s.revoke k)
    refine ⟨dc, ?_, fun c => ?_⟩
    · rw [List.foldl_cons, heq]
      have hany : (∃ c ∈ l, (s.revoke k).dc[c].mode ≠ .released) ↔ ∃ c ∈ l, s.dc[c].mode ≠ .released :=
        exists_congr fun c => and_congr_right fun hc => by rw [hget c hc]
      simp only [hany, List.exists_mem_cons_iff]
      rw [State.revoke_eq, ← Fu.raise_or]
      rfl
    · rw [hdc]
      by_cases hc : c ∈ l
      · rw [if_pos hc, if_pos (List.mem_cons_of_mem _ hc), hget c hc]
      · rw [if_neg hc, State.revoke_eq]
        by_cases hck : c = k
        · subst hck
          rw [if_pos List.mem_cons_self]
          exact Vector.getElem_set_self c.isLt
        · rw [if_neg (mt List.mem_cons.1 (not_or_intro hck hc))]
          exact Vector.getElem_set_ne k.isLt c.isLt fun h => hck (Fin.ext h.symm)

/-- R121: an accepted PERMIT_SET. -/
theorem State.permit_taken (s : State) (mask : Byte) :
    let gone := fun c : Fin 8 => s.permitMask.getLsbD c.val && !mask.getLsbD c.val
    ∃ dc fu, s.permit mask = { s with permitMask := mask, dc, fu } ∧
      (∀ c : Fin 8, dc[c] = if gone c then s.dc[c].operate .release else s.dc[c]) ∧
      ((∃ c, gone c = true ∧ s.dc[c].mode ≠ .released) → fu = s.fu.raise .driveBlock) ∧
      ((∀ c, gone c = true → s.dc[c].mode = .released) → fu = s.fu) := by
  intro gone
  have hmem : ∀ c, c ∈ (List.finRange 8).filter gone ↔ gone c = true := fun c => by
    rw [List.mem_filter]
    exact and_iff_right (List.mem_finRange c)
  obtain ⟨dc, heq, hdc⟩ := State.revokeAll_eq ((List.nodup_finRange 8).filter gone) { s with permitMask := mask }
  refine ⟨dc, _, heq, fun c => (hdc c).trans (if_congr (hmem c) rfl rfl), fun h => if_pos ?_, fun h => if_neg ?_⟩
  · obtain ⟨c, hc, hm⟩ := h
    exact ⟨c, (hmem c).2 hc, hm⟩
  · rintro ⟨c, hc, hm⟩
    exact hm (h c ((hmem c).1 hc))

/-! ## DRIVE_QUERY (R122) -/

theorem GenValues.report_eq (v : GenValues) (rest : Bytes) : v.report ++ rest =
    byte v.prescaler :: yn v.rep :: (le 2 v.a ++ (le 2 v.b ++ rest)) := by simp [GenValues.report]

/-- R122: the report byte by byte. -/
theorem State.driveReport_eq (s : State) (c : Fin 8) : byte c.val :: s.driveReport c = byte c.val :: s.dc[c].driveMode.code ::
    (le 2 s.dc[c].counter ++ (yn s.dc[c].openDrain :: yn s.dc[c].activeHigh :: yn s.dc[c].railGated :: s.dc[c].pin.code ::
      byte s.dc[c].active.prescaler :: yn s.dc[c].active.rep :: (le 2 s.dc[c].active.a ++ (le 2 s.dc[c].active.b ++
        byte s.dc[c].buffered.prescaler :: yn s.dc[c].buffered.rep :: (le 2 s.dc[c].buffered.a ++ (le 2 s.dc[c].buffered.b ++
          [s.permitMask, yn s.permitLock])))))) := by
  simp only [State.driveReport, List.cons_append, List.nil_append, List.append_assoc, GenValues.report_eq]

theorem byte_prescaler {p : Nat} (h : p ≤ 14) : (byte p).toNat = p := by
  rw [byte, BitVec.toNat_ofNat]
  exact Nat.mod_eq_of_lt (by omega)

/-- Settles O57, by `State.revokeAll_eq` and the report byte by byte. -/
theorem permitAndDriveQuery : Obligations.PermitAndDriveQuery := by
  refine fun s tag => ⟨fun mask ht => ⟨fun hl => ?_, fun hl hlock => ?_, fun hl hlock => ?_⟩, fun ht => ?_,
    fun c ht => ?_,
    fun n hn ht => ?_⟩
  · exact congrArg Host.Outcome.next (takeRequest_refused ht rfl (if_pos hl))
  · exact congrArg Host.Outcome.next (takeRequest_refused ht rfl ((if_neg (Bool.eq_false_iff.1 hl)).trans (if_pos hlock)))
  · obtain ⟨dc, fu, heq, hdc, hraised, hquiet⟩ := State.permit_taken { s with mp := s.mp.pop } mask
    refine ⟨{ s with permitMask := mask, dc, fu }, congrArg Host.Outcome.next (takeRequest_changed ht rfl rfl ?_), rfl, hdc,
      hraised, hquiet⟩
    refine (if_neg (Bool.eq_false_iff.1 hl)).trans ((if_neg (Bool.eq_false_iff.1 hlock)).trans ?_)
    rw [heq, hlock]
    rfl
  · exact congrArg Host.Outcome.next (takeRequest_quiet (u := { s with permitLock := true }) ht rfl rfl rfl rfl)
  · refine ⟨byte c.val :: s.driveReport c, congrArg Host.Outcome.next (takeRequest_unchanged ht rfl ?_), ?_, ?_⟩
    · simp only [driveQueryOwner, indexOf_byte8]
      rfl
    · simp [State.driveReport_eq]
    · intro d values
      rw [State.driveReport_eq]
      simp only [field_cons_succ, byteAt_cons_zero, byteAt_cons_succ, byteAt_le_skip, Nat.reduceLeDiff,
        Nat.reduceSub]
      refine ⟨trivial, ?_, fun h => field_le_append _ _ _ h, rfl, rfl, rfl, ?_, ⟨byte_prescaler, rfl,
        fun h => field_le_append _ _ _ h, fun h => field_le_append _ _ _ h⟩, ⟨byte_prescaler, rfl,
        fun h => field_le_append _ _ _ h, fun h => field_le_append _ _ _ h⟩, trivial, rfl⟩
      · show s.dc[c].driveMode.code = _
        unfold Dc.driveMode
        cases s.dc[c].mode with
        | pulse => cases s.dc[c].running <;> rfl
        | _ => rfl
      · show s.dc[c].pin.code = _
        unfold Dc.pin Dc.hold
        cases s.dc[c].mode with
        | pulse =>
          cases s.dc[c].activeLevel <;> cases s.dc[c].activeHigh <;> cases s.dc[c].openDrain <;> rfl
        | _ => cases s.dc[c].openDrain <;> rfl
  · refine congrArg Host.Outcome.next (takeRequest_refused ht rfl ?_)
    simp only [driveQueryOwner, indexOf_of_le hn]

end Sys2Proof.Machine

end


section
/-! PROOFS. The generator (R116, R119): the counter of a run, the active level, and the end of a period. -/

namespace Sys2Proof.Machine

/-- R116: the generator `n` ticks into a run under the buffered values. -/
def Dc.into (d : Dc) (n : Nat) : Dc :=
  { d.startGen with counter := n / 2 ^ d.buffered.prescaler, subTicks := n % 2 ^ d.buffered.prescaler }

theorem Dc.into_zero (d : Dc) : d.into 0 = d.startGen := by simp [Dc.into, Dc.startGen]

/-- R116: each tick moves the fraction of a unit on, and every 2^p ticks the counter. -/
theorem Dc.into_tick (d : Dc) (n : Nat) : (d.into n).tick = d.into (n + 1) := by
  have hpos : 0 < 2 ^ d.buffered.prescaler := Nat.two_pow_pos _
  by_cases h : n % 2 ^ d.buffered.prescaler + 1 < 2 ^ d.buffered.prescaler
  · have hstep : (d.into n).tick = { d.into n with subTicks := n % 2 ^ d.buffered.prescaler + 1 } :=
        (if_pos rfl).trans (if_pos h)
    have hmod : (n + 1) % 2 ^ d.buffered.prescaler = n % 2 ^ d.buffered.prescaler + 1 := by
      rw [Nat.add_mod_eq_add_mod_right 1 (Nat.mod_mod _ _).symm, Nat.mod_eq_of_lt h]
    have hdiv : (n + 1) / 2 ^ d.buffered.prescaler = n / 2 ^ d.buffered.prescaler := by
      rw [Nat.succ_div, if_neg fun hd => by omega, Nat.add_zero]
    rw [hstep, Dc.into, Dc.into, hmod, hdiv]
  · have hstep : (d.into n).tick = { d.into n with subTicks := 0, counter := n / 2 ^ d.buffered.prescaler + 1 } :=
      (if_pos rfl).trans (if_neg h)
    have hlt := Nat.mod_lt n hpos
    have hdvd : 2 ^ d.buffered.prescaler ∣ n + 1 :=
      (Nat.dvd_iff_mod_eq_zero ..).2 (by
        rw [Nat.add_mod_eq_add_mod_right 1 (Nat.mod_mod _ _).symm, show n % 2 ^ d.buffered.prescaler + 1 =
          2 ^ d.buffered.prescaler by omega,
          Nat.mod_self])
    have hdiv : (n + 1) / 2 ^ d.buffered.prescaler = n / 2 ^ d.buffered.prescaler + 1 := by
      rw [Nat.succ_div, if_pos hdvd]
    rw [hstep, Dc.into, Dc.into, Nat.mod_eq_zero_of_dvd hdvd, hdiv]

theorem Dc.tick_iterate (d : Dc) (n : Nat) : Dc.tick^[n] d.startGen = d.into n := by
  induction n with
  | zero => exact d.into_zero.symm
  | succ n ih => rw [Function.iterate_succ_apply', ih, d.into_tick]

theorem Dc.periodDue_of_counter (d : Dc) : d.periodDue = true ↔ d.running = true ∧ d.active.b ≤ d.counter := by
  rw [Dc.periodDue, Bool.and_eq_true, decide_eq_true_iff]

theorem Dc.activeDue_of_counter (d : Dc) : d.activeDue = true ↔
    d.running = true ∧ d.active.a ≤ d.counter ∧ d.counter < d.active.b ∧ d.activeLevel = false := by
  simp only [Dc.activeDue, Bool.and_eq_true, decide_eq_true_iff, Bool.not_eq_true', and_assoc]

/-- Settles O58, by the counter of a run (`Dc.tick_iterate`) and the two moments of a period. -/
theorem generatorRuns : Obligations.GeneratorRuns := by
  refine ⟨fun d n => ?_, fun s c => ⟨fun hr ha hb => ?_, fun h => ?_, fun h => ?_, fun hr hb => ⟨fun hrep => ?_,
    fun hrep hl => ?_, fun hrep hl hm => ?_⟩⟩⟩
  · rw [Dc.tick_iterate]
    refine ⟨rfl, rfl, rfl, rfl, ?_⟩
    rw [Dc.periodDue_of_counter]
    show true = true ∧ d.buffered.b ≤ n / 2 ^ d.buffered.prescaler ↔ _
    rw [Nat.le_div_iff_mul_le (Nat.two_pow_pos _)]
    exact and_iff_right rfl
  · refine congrArg Host.Outcome.next ?_
    by_cases hd : s.dc[c].activeDue = true
    · exact if_pos hd
    · have hact : s.dc[c].activeLevel = true := by
        cases h : s.dc[c].activeLevel with
        | true => rfl
        | false => exact absurd ((Dc.activeDue_of_counter _).2 ⟨hr, ha, hb, h⟩) hd
      refine (if_neg hd).trans ?_
      rw [show ({ s.dc[c] with activeLevel := true } : Dc) = s.dc[c] by rw [← hact]]
      exact congrArg (fun v => ({ s with dc := v } : State)) (vector_set_self s.dc c).symm
  · refine congrArg Host.Outcome.next (if_neg fun hd => ?_)
    obtain ⟨hr, ha, hb, -⟩ := (Dc.activeDue_of_counter _).1 hd
    rcases h with h | h | h
    · exact Bool.false_ne_true (h.symm.trans hr)
    · omega
    · omega
  · refine congrArg Host.Outcome.next (if_neg fun hd => ?_)
    obtain ⟨hr, hb⟩ := (Dc.periodDue_of_counter _).1 hd
    rcases h with h | h
    · exact Bool.false_ne_true (h.symm.trans hr)
    · omega
  · refine congrArg Host.Outcome.next ((if_pos ((Dc.periodDue_of_counter _).2 ⟨hr, hb⟩)).trans ?_)
    unfold State.endPeriod
    dsimp only
    rw [if_pos hrep, Dc.periodEnd, if_pos hrep]
    rfl
  · refine congrArg Host.Outcome.next ((if_pos ((Dc.periodDue_of_counter _).2 ⟨hr, hb⟩)).trans ?_)
    unfold State.endPeriod
    dsimp only
    rw [if_neg (Bool.eq_false_iff.1 hrep), Dc.periodEnd, if_neg (Bool.eq_false_iff.1 hrep)]
    exact State.hand_of_idle _ _ hl
  · have hidle : (s.setDc c s.dc[c].stopGen).dc[c].driveMode = .pulseIdle := by
      rw [show (s.setDc c s.dc[c].stopGen).dc[c] = s.dc[c].stopGen from Vector.getElem_set_self c.isLt, Dc.driveMode,
        show s.dc[c].stopGen.mode = .pulse from hm]
      rfl
    refine ⟨⟨⟨s.rc.timeBase, .drive c .pulseIdle .oneShotDone⟩, .dc c, s.clock, false, false⟩, rfl,
      congrArg Host.Outcome.next ((if_pos ((Dc.periodDue_of_counter _).2 ⟨hr, hb⟩)).trans ?_)⟩
    unfold State.endPeriod
    dsimp only
    rw [if_neg (Bool.eq_false_iff.1 hrep), Dc.periodEnd, if_neg (Bool.eq_false_iff.1 hrep), hidle]
    exact State.hand_of_live _ _ hl

end Sys2Proof.Machine

end


section
/-! PROOFS. Reading a job body (R126, 12.6): the bytes it uses, and what is refused. -/

namespace Sys2Proof.Machine

/-! ## One operation slot -/

/-- 12.6: the bytes of its slot that an operation uses. -/
def ScanOp.uses (o : ScanOp) (r : Nat) : Prop :=
  match o with
  | .tapReset => r = 0
  | .idle _ => r = 0 ∨ (2 ≤ r ∧ r < 4)
  | _ => r = 0 ∨ (2 ≤ r ∧ r < 20)

/-- The unused bytes of a slot play no part. -/
theorem ScanOp.dec_uses {o : ScanOp} {c : Bytes} (hc : c.length = 20) (h : ∀ r, o.uses r → byteAt c r = byteAt o.enc r) :
    ScanOp.dec c = ScanOp.dec o.enc := by
  have param (hu : ∀ r, 2 ≤ r → r < 4 → o.uses r) : field c 2 2 = field o.enc 2 2 :=
    field_congr (by omega) (by simp) fun i hi => h _ (hu _ (by omega) (by omega))
  have value (hu : ∀ r, 4 ≤ r → r < 20 → o.uses r) : field c 4 16 = field o.enc 4 16 :=
    field_congr (by omega) (by simp) fun i hi => h _ (hu _ (by omega) (by omega))
  have kind : byteAt c 0 = byteAt o.enc 0 := h 0 (by cases o <;> simp [ScanOp.uses])
  unfold ScanOp.dec
  cases o with
  | tapReset => rw [kind]; rfl
  | irScan n out => rw [kind, param fun r _ _ => .inr ⟨by omega, by omega⟩, value fun r _ _ => .inr ⟨by omega, by omega⟩]
  | drScan n out => rw [kind, param fun r _ _ => .inr ⟨by omega, by omega⟩, value fun r _ _ => .inr ⟨by omega, by omega⟩]
  | idle m => rw [kind, param fun r _ _ => .inr ⟨by omega, by omega⟩]; rfl

/-- R126: what a slot that is taken holds. -/
theorem ScanOp.dec_holds {c : Bytes} {o : ScanOp} (h : ScanOp.dec c = some o) :
    (byteAt c 0).toNat ≤ 3 ∧
    ((byteAt c 0).toNat = 1 → field c 2 2 ≠ 0 ∧ field c 2 2 ≤ 64 ∧ field c 4 16 < 2 ^ field c 2 2) ∧
    ((byteAt c 0).toNat = 2 → field c 2 2 ≠ 0 ∧ field c 2 2 ≤ 128 ∧ field c 4 16 < 2 ^ field c 2 2 ∧
      ∃ out, o = .drScan (field c 2 2) out) ∧
    ((byteAt c 0).toNat = 3 → field c 2 2 ≠ 0) ∧
    ((byteAt c 0).toNat ≠ 2 → ∀ n out, o ≠ .drScan n out) ∧
    o.bits = if (byteAt c 0).toNat = 1 ∨ (byteAt c 0).toNat = 2 then field c 2 2 else 0 := by
  unfold ScanOp.dec at h
  dsimp only at h
  split at h
  case h_1 hk =>
    cases h
    simp [hk, ScanOp.bits]
  case h_2 hk =>
    split at h
    · cases h
    · cases h
      simp [hk, ScanOp.bits]
      omega
  case h_3 hk =>
    split at h
    · cases h
    · cases h
      simp [hk, ScanOp.bits]
      omega
  case h_4 hk =>
    split at h
    · cases h
    · cases h
      simp [hk, ScanOp.bits]
      omega
  case h_5 => cases h

/-! ## The list of operations -/

/-- The slot of operation `i`. -/
def slotOf (b : Bytes) (i : Nat) : Bytes := (b.drop (4 + 20 * i)).take 20

theorem slotOf_byte (b : Bytes) {i r : Nat} (hr : r < 20) : byteAt (slotOf b i) r = byteAt b (4 + 20 * i + r) := by
  rw [← byteAt_drop, byteAt, byteAt, slotOf, List.getD_eq_getElem?_getD, List.getD_eq_getElem?_getD,
    List.getElem?_take_of_lt hr]

theorem slotOf_field (b : Bytes) {i off n : Nat} (h : off + n ≤ 20) :
    field (slotOf b i) off n = field b (4 + 20 * i + off) n := by
  rw [Nat.add_comm, ← field_drop, field, field, slotOf, List.drop_take, List.take_take, Nat.min_eq_left (by omega),
    List.drop_drop,
    List.drop_drop, Nat.add_comm off]

theorem slotOf_length {b : Bytes} (hb : b.length = 196) {i : Nat} (hi : i < 8) : (slotOf b i).length = 20 := by
  simp [slotOf, hb]
  omega

theorem decOps_congr {b c : Bytes} {n : Nat} (h : ∀ i < n, ScanOp.dec (slotOf b i) = ScanOp.dec (slotOf c i)) :
    decOps b n = decOps c n := by
  induction n with
  | zero => rfl
  | succ n ih =>
    have hn : ScanOp.dec ((b.drop (4 + 20 * n)).take 20) = ScanOp.dec ((c.drop (4 + 20 * n)).take 20) := h n (by omega)
    simp only [decOps, ih fun i hi => h i (by omega), hn]

/-- The operations that are taken are those of their slots. -/
theorem decOps_some {b : Bytes} {n : Nat} {ops : List ScanOp} (h : decOps b n = some ops) :
    ops.length = n ∧ ∀ i < n, ∃ o, ops[i]? = some o ∧ ScanOp.dec (slotOf b i) = some o := by
  induction n generalizing ops with
  | zero =>
    cases h
    exact ⟨rfl, fun i hi => absurd hi (Nat.not_lt_zero i)⟩
  | succ n ih =>
    simp only [decOps, Option.bind_eq_bind, Option.bind_eq_some_iff] at h
    obtain ⟨os, hos, o, ho, h⟩ := h
    cases h
    obtain ⟨hlen, hat⟩ := ih hos
    refine ⟨by simp [hlen], fun i hi => ?_⟩
    by_cases hn : i = n
    · subst hn
      exact ⟨o, by simp [← hlen], ho⟩
    · obtain ⟨o', ho', hd⟩ := hat i (by omega)
      exact ⟨o', by rw [List.getElem?_append_left (by omega)]; exact ho', hd⟩

/-! ## The last DR_SCAN -/

theorem lastDrLength_concat (l : List ScanOp) (o : ScanOp) : lastDrLength (l ++ [o]) =
    match o with | .drScan n _ => some n | _ => lastDrLength l := by
  unfold lastDrLength
  rw [List.foldl_append]
  cases o <;> rfl

theorem lastDrLength_none {l : List ScanOp} (h : ∀ o ∈ l, ∀ n out, o ≠ .drScan n out) : lastDrLength l = none := by
  induction l using List.reverseRecOn with
  | nil => rfl
  | append_singleton l o ih =>
    rw [lastDrLength_concat]
    have hl := ih fun o' ho' => h o' (List.mem_append_left _ ho')
    have ho := h o (List.mem_append_right _ (List.mem_singleton_self o))
    cases o with
    | drScan n out => exact absurd rfl (ho n out)
    | _ => exact hl

theorem lastDrLength_some {l : List ScanOp} {i n : Nat} {out : BitVec 128} (h : l[i]? = some (.drScan n out))
    (hlast : ∀ k, i < k → ∀ o, l[k]? = some o → ∀ n out, o ≠ .drScan n out) : lastDrLength l = some n := by
  induction l using List.reverseRecOn with
  | nil => cases h
  | append_singleton l o ih =>
    rw [lastDrLength_concat]
    by_cases hi : i < l.length
    · have ho := hlast l.length hi o (by simp)
      have hl := ih (by rwa [List.getElem?_append_left hi] at h) fun k hk o' ho' => hlast k hk o' (by
        rw [List.getElem?_append_left (List.getElem?_eq_some_iff.1 ho').1]
        exact ho')
      cases o with
      | drScan n out => exact absurd rfl (ho n out)
      | _ => exact hl
    · have hlen : i = l.length := by
        have := (List.getElem?_eq_some_iff.1 h).1
        simp at this
        omega
      subst hlen
      obtain rfl : o = .drScan n out := by simpa using h
      rfl

/-! ## The whole body -/

/-- The bytes of a list agree with those of a job body wherever the body uses them. -/
def JobBody.spelledBy (j : JobBody) (b : Bytes) : Prop :=
  b.length = 196 ∧ ∀ i < 196, j.unused i = false → byteAt b i = byteAt j.enc i

theorem JobBody.unused_uses {j : JobBody} {i r : Nat} {o : ScanOp} (ho : j.ops[i]? = some o) (hi : i < 8) (hr : r < 20)
    (hu : o.uses r) : j.unused (4 + 20 * i + r) = false := by
  have hdiv : (4 + 20 * i + r - 4) / 20 = i := by omega
  have hmod : (4 + 20 * i + r - 4) % 20 = r := by omega
  rw [JobBody.unused, if_neg (by omega), if_pos (by omega), hdiv, hmod, ho]
  unfold ScanOp.uses at hu
  cases o <;> dsimp only at hu ⊢ <;> split <;> (simp_all; try omega)

theorem JobBody.unused_compare {j : JobBody} {i : Nat} (h : 164 ≤ i) : j.unused i = j.compare.isNone := by
  rw [JobBody.unused, if_neg (by omega), if_neg (by omega)]

theorem JobBody.slotOf_enc {j : JobBody} {i : Nat} (hi : i < j.ops.length) : slotOf j.enc i = j.ops[i].enc := by
  obtain ⟨tail, hs⟩ := drop_slots (f := ScanOp.enc) (fun o _ => o.enc_length)
    (pre := [byte j.ops.length, yn j.compare.isSome, 0, 0])
    (rest := List.replicate (160 - (j.ops.flatMap ScanOp.enc).length) 0 ++ encCompare j.compare) hi
  have henc : j.enc = [byte j.ops.length, yn j.compare.isSome, 0, 0] ++ (j.ops.flatMap ScanOp.enc ++
      (List.replicate (160 - (j.ops.flatMap ScanOp.enc).length) 0 ++ encCompare j.compare)) := by
    simp [JobBody.enc, padTo]
  rw [slotOf, henc]
  refine (congrArg (List.take 20) hs).trans ?_
  exact List.take_left' (ScanOp.enc_length _)

/-- The unused bytes play no part. -/
theorem JobBody.spelledBy.dec {j : JobBody} {b : Bytes} (h : j.spelledBy b) (h8 : j.ops.length ≤ 8) :
    JobBody.dec b = JobBody.dec j.enc := by
  obtain ⟨hlen, hbytes⟩ := h
  have h0 : byteAt b 0 = byteAt j.enc 0 := hbytes 0 (by decide) rfl
  have h1 : byteAt b 1 = byteAt j.enc 1 := hbytes 1 (by decide) rfl
  have henc := JobBody.enc_length h8
  have hcount : (byteAt j.enc 0).toNat = j.ops.length := byte_toNat _ (by omega)
  have hops : decOps b (byteAt j.enc 0).toNat = decOps j.enc (byteAt j.enc 0).toNat := by
    refine decOps_congr fun i hi => ?_
    rw [hcount] at hi
    have ho : j.ops[i]? = some j.ops[i] := List.getElem?_eq_getElem hi
    rw [JobBody.slotOf_enc hi]
    refine ScanOp.dec_uses (slotOf_length hlen (by omega)) fun r hr => ?_
    have hr20 : r < 20 := by
      unfold ScanOp.uses at hr
      split at hr <;> omega
    rw [slotOf_byte _ hr20, hbytes _ (by omega) (JobBody.unused_uses ho (by omega) hr20 hr), ← slotOf_byte _ hr20,
      JobBody.slotOf_enc hi]
  have hcompare : ∀ ops, decCompare b ops = decCompare j.enc ops := fun ops => by
    cases hj : j.compare with
    | none =>
      have given : byteAt j.enc 1 = 0 := by simp [JobBody.enc, hj, yn]
      unfold decCompare
      rw [h1, given]
      rfl
    | some c =>
      have used : ∀ off, 164 ≤ off → off + 16 ≤ 196 → field b off 16 = field j.enc off 16 := fun off hlo hhi =>
        field_congr (by omega) (by omega) fun i hi => hbytes _ (by omega) (by
          rw [JobBody.unused_compare (by omega), hj]
          rfl)
      unfold decCompare
      rw [h1, used 164 le_rfl (by omega), used 180 (by omega) (by omega)]
  simp only [JobBody.dec, h0, hops, hcompare]

/-- R126: what the values of a job body must satisfy. -/
def JobBody.sound (j : JobBody) : Prop :=
  1 ≤ j.ops.length ∧ j.ops.length ≤ 8 ∧ (j.ops.map ScanOp.bits).sum ≤ 512 ∧
    (∀ n out, ScanOp.irScan n out ∈ j.ops → 1 ≤ n ∧ n ≤ 64 ∧ out.toNat < 2 ^ n) ∧
    (∀ n out, ScanOp.drScan n out ∈ j.ops → 1 ≤ n ∧ n ≤ 128 ∧ out.toNat < 2 ^ n) ∧
    (∀ m, ScanOp.idle m ∈ j.ops → 1 ≤ m ∧ m ≤ 65535) ∧
    ∀ c, j.compare = some c → ∃ n, lastDrLength j.ops = some n ∧ c.mask.toNat < 2 ^ n

/-- R126: a body is read from any bytes that spell it. -/
theorem JobBody.sound.dec {j : JobBody} (h : j.sound) {b : Bytes} (hb : j.spelledBy b) : JobBody.dec b = some j := by
  obtain ⟨h1, h8, hsum, hir, hdr, hidle, hc⟩ := h
  exact (hb.dec h8).trans (jobBodiesReadBack j h1 h8 hsum hir hdr hidle hc).2

/-- R126: the faults of a job body that are refused with RANGE. -/
def JobFaulty (b : Bytes) : Prop :=
  let kind := fun i => (byteAt b (4 + 20 * i)).toNat
  let n := fun i => field b (6 + 20 * i) 2
  let count := (byteAt b 0).toNat
  count = 0 ∨ 8 < count ∨
    (∃ i < count, 3 < kind i ∨ (kind i = 1 ∧ (n i = 0 ∨ 64 < n i ∨ 2 ^ n i ≤ field b (8 + 20 * i) 16)) ∨
      (kind i = 2 ∧ (n i = 0 ∨ 128 < n i ∨ 2 ^ n i ≤ field b (8 + 20 * i) 16)) ∨ (kind i = 3 ∧ n i = 0)) ∨
    512 < ((List.range count).map fun i => if kind i = 1 ∨ kind i = 2 then n i else 0).sum ∨
    (byteAt b 1 = 1 ∧ ((∀ i < count, kind i ≠ 2) ∨
      ∃ i < count, kind i = 2 ∧ (∀ k < count, i < k → kind k ≠ 2) ∧ 2 ^ n i ≤ field b 180 16))

/-- R126: each of the faults is refused. -/
theorem JobBody.dec_faulty {b : Bytes} (h : JobFaulty b) : JobBody.dec b = none := by
  refine dec_none fun j hj => ?_
  simp only [JobBody.dec, Option.bind_eq_bind] at hj
  split at hj
  · cases hj
  next hcount =>
  obtain ⟨ops, hops, hj⟩ := Option.bind_eq_some_iff.1 hj
  split at hj
  · cases hj
  next hsum =>
  obtain ⟨compare, hcompare, -⟩ := Option.bind_eq_some_iff.1 hj
  obtain ⟨hlen, hat⟩ := decOps_some hops
  have hkind : ∀ i, byteAt (slotOf b i) 0 = byteAt b (4 + 20 * i) := fun i => slotOf_byte b (by decide)
  have hn : ∀ i, field (slotOf b i) 2 2 = field b (6 + 20 * i) 2 := fun i => by
    rw [slotOf_field b (by decide), show 4 + 20 * i + 2 = 6 + 20 * i by omega]
  have hout : ∀ i, field (slotOf b i) 4 16 = field b (8 + 20 * i) 16 := fun i => by
    rw [slotOf_field b (by decide), show 4 + 20 * i + 4 = 8 + 20 * i by omega]
  have hop : ∀ i < (byteAt b 0).toNat, ∃ o, ops[i]? = some o ∧ _ := fun i hi => by
    obtain ⟨o, ho, hd⟩ := hat i hi
    have := ScanOp.dec_holds hd
    rw [hkind, hn, hout] at this
    exact ⟨o, ho, this⟩
  unfold JobFaulty at h
  dsimp only at h
  rcases h with h | h | ⟨i, hi, h⟩ | h | ⟨hgiven, h⟩
  · exact hcount (.inl h)
  · exact hcount (.inr h)
  · obtain ⟨o, -, h3, hir, hdr, hidle, -⟩ := hop i hi
    rcases h with h | ⟨hk, h⟩ | ⟨hk, h⟩ | ⟨hk, h⟩
    · omega
    · have := hir hk
      omega
    · obtain ⟨hn0, hn128, hv, -⟩ := hdr hk
      omega
    · exact hidle hk h
  · refine hsum (h.trans_le (le_of_eq (congrArg List.sum (List.ext_getElem? fun i => ?_))))
    by_cases hi : i < (byteAt b 0).toNat
    · obtain ⟨o, ho, -, -, -, -, -, hbits⟩ := hop i hi
      rw [List.getElem?_map, List.getElem?_map, ho, List.getElem?_range hi]
      exact congrArg some hbits.symm
    · rw [List.getElem?_eq_none (by simp; omega), List.getElem?_eq_none (by simp; omega)]
  · rw [decCompare, hgiven] at hcompare
    obtain ⟨n, hdr, hmask⟩ := Option.bind_eq_some_iff.1 (show (lastDrLength ops).bind _ = some compare from hcompare)
    dsimp only at hmask
    split at hmask
    · cases hmask
    next hlt =>
    rcases h with hno | ⟨i, hi, hk, hlast, hle⟩
    · rw [lastDrLength_none fun o ho m out => ?_] at hdr
      · cases hdr
      · obtain ⟨i, hi⟩ := List.getElem?_of_mem ho
        have hlt := (List.getElem?_eq_some_iff.1 hi).1
        rw [hlen] at hlt
        obtain ⟨o', ho', -, -, -, -, hnot, -⟩ := hop i hlt
        cases ho'.symm.trans hi
        exact hnot (hno i hlt) m out
    · obtain ⟨o, ho, -, -, hdrop, -⟩ := hop i hi
      obtain ⟨-, -, -, out, rfl⟩ := hdrop hk
      rw [lastDrLength_some ho fun k hik o hk m out => ?_] at hdr
      · cases hdr
        exact hlt hle
      · have hlt := (List.getElem?_eq_some_iff.1 hk).1
        rw [hlen] at hlt
        obtain ⟨o', ho', -, -, -, -, hnot, -⟩ := hop k hlt
        cases ho'.symm.trans hk
        exact hnot (hlast k hlt hik) m out

end Sys2Proof.Machine

end


section
/-! PROOFS. The port between jobs (R127, R128, R131): what is taken from the queue, and what a completion leaves. -/

namespace Sys2Proof.Machine

/-! ## Taking the head of the queue (R127, R128) -/

theorem State.scanGo_busy {s : State} (h : s.sc.job.isSome = true) : s.scanGo = s := by
  obtain ⟨a, ha⟩ := Option.isSome_iff_exists.1 h
  unfold State.scanGo State.activateNext
  rw [ha]

theorem State.scanGo_empty {s : State} (h : s.sc.queue = []) : s.scanGo = s := by
  unfold State.scanGo State.activateNext
  rw [h]
  cases s.sc.job <;> rfl

/-- R128: with the rail PRESENT the head of the queue becomes active. -/
theorem State.scanGo_present {s : State} {j : Job} {js : List Job} (hj : s.sc.job = none) (hq : s.sc.queue = j :: js)
    (hp : s.lau[(3 : Fin 4)].present = true) :
    s.scanGo = s.setSc { s.sc with queue := js, job := some (j.activate s.sc s.clock) } := by
  unfold State.scanGo State.activateNext
  rw [hj, hq]
  exact if_pos hp

/-- R127: with the rail ABSENT the whole queue is faulted. -/
theorem State.scanGo_absent {s : State} (hj : s.sc.job = none) (hp : s.lau[(3 : Fin 4)].present = false) :
    s.scanGo = (s.setSc { s.sc with queue := [] }).completeAll
      (s.sc.queue.map fun j => (j, j.bareResult .fault (some .rail))) :=
  State.activateNext_absent _ hp hj (Nat.lt_succ_self _)

/-- R131: a job that becomes active. -/
theorem Job.activate_eq (j : Job) (c : Sc) (clock : Nat) : j.activate c clock = {
    job := j, settings := c.settings, inserted := c.tap.isNone, op := if c.tap = none then none else some 0
    opStart := clock, bits := [], capture := 0, captureLen := 0, cancel := false } := by
  unfold Job.activate
  cases c.tap <;> rfl

/-! ## A completion (R131) -/

/-- R131: a state with a job's result, its record, its event and SCAN_DONE. -/
theorem JobCompleted.of {s t : State} {j : Job} {r : ScanResult} (results : t.sc.results = (r :: s.sc.results).take 16)
    (fu : t.fu = s.fu.raise .scanDone)
    (ts : t.ts = { s.ts with input := s.ts.input ++ if s.live then [s.arriving .sc (r.record s.rc.timeBase)] else [] })
    (ste : t.ste = { s.ste with events := s.ste.events ++ (j.event s.rc.timeBase r.outcome).toList }) :
      JobCompleted s t j r := by
  refine ⟨results, ?_, ⟨fun hl => ?_, fun hl => ⟨s.arriving .sc (r.record s.rc.timeBase), ?_, rfl⟩⟩, fun n hn hc => ?_,
    fun h => ?_⟩
  · rw [fu]
    exact Fu.raise_sets _ .scanDone
  · rw [ts, hl, if_neg Bool.false_ne_true, List.append_nil]
  · rw [ts, hl, if_pos rfl]
  · rw [ste, Job.event, hn, hc]
    rfl
  · have hnone : j.event s.rc.timeBase r.outcome = none := by
      unfold Job.event
      rcases h with ⟨n, hn⟩ | hc
      · rw [hn]
      · rw [hc]
        cases j.cls <;> rfl
    rw [ste, hnone]
    exact congrArg (fun l => ({ s.ste with events := l } : Ste)) (List.append_nil _)

/-- R131: the results of a list of completions, the newest first. -/
theorem addResults_of_ne {l : List (Job × ScanResult)} (h : l ≠ []) (results : List ScanResult) :
    addResults l results = ((l.map Prod.snd).reverse ++ results).take 16 := by
  cases l with
  | nil => exact absurd rfl h
  | cons c l =>
    show addResults l ((c.2 :: results).take 16) = _
    rw [addResults_eq l (by simp), take_append_take]
    simp

/-- R131: the records of a list of completions. -/
theorem completions_records (s : State) (l : List (Job × ScanResult)) :
    (s.ts.input ++ if s.live then l.map fun c => s.arriving .sc (c.2.record s.rc.timeBase) else []).map Waiting.record =
      s.ts.input.map Waiting.record ++ if s.live then l.map fun c => c.2.record s.rc.timeBase else [] := by
  rw [List.map_append]
  cases s.live
  · rfl
  · exact congrArg (_ ++ ·) List.map_map

end Sys2Proof.Machine

end


section
/-! PROOFS. The Scan Controller's requests (R123, R126, R127, R129, R132). -/

namespace Sys2Proof.Machine

/-! ## Reading the requests -/

theorem ScanSettings.dec_of {b : Bytes} (h2 : (byteAt b 2).toNat ≤ 1) (h3 : (byteAt b 3).toNat ≤ 1) : ScanSettings.dec b =
    some { divider := max 2 (min 1000 (field b 0 2)), irCheck := decide (byteAt b 2 = 1), trst :=
      decide (byteAt b 3 = 1) } := by
  simp only [ScanSettings.dec, ynOf_of_le h2, ynOf_of_le h3]
  rfl

theorem ScanSettings.dec_refused {b : Bytes} (h : 2 ≤ (byteAt b 2).toNat ∨ 2 ≤ (byteAt b 3).toNat) : ScanSettings.dec b =
    none := by
  refine dec_none fun r hr => ?_
  simp only [ScanSettings.dec, Option.bind_eq_bind, Option.bind_eq_some_iff] at hr
  obtain ⟨c, h2, t, h3, -⟩ := hr
  have := ynOf_le h2
  have := ynOf_le h3
  omega

theorem templateOf_unused (b : Bytes) : templateOf 0 b = some none := rfl

theorem templateOf_used (b : Bytes) : templateOf 1 b = (JobBody.dec b).map some := rfl

theorem bodyOk_templatePut {tag n u : Byte} {b : Bytes} (h : b.length = 0 ∧ u = 0 ∨ b.length = 196) :
    (Instr.templatePut tag n u b).bodyOk = true := by
  rcases h with ⟨h, rfl⟩ | h <;> exact Instr.bodyOk_of rfl (by simp [bodyAllowed, h])

/-! ## A submission (R127) -/

/-- The job of a SCAN_SUBMIT. -/
def hostJob (job : Byte) (j : JobBody) : Job := { cls := .host job, body := j, current := false }

/-- R127: a submission to a full queue is refused. -/
theorem scanSubmitOwner_full {s : State} {job : Byte} {b : Bytes} {j : JobBody} (hj : JobBody.dec b = some j)
    (h : 16 ≤ s.sc.queue.length) : scanSubmitOwner job b s = refuse s .full := by
  unfold scanSubmitOwner
  rw [hj]
  exact if_pos h

theorem scanSubmitOwner_takes {s : State} {job : Byte} {b : Bytes} {j : JobBody} (hj : JobBody.dec b = some j)
    (h : s.sc.queue.length < 16) : scanSubmitOwner job b s = okay (s.submitHost job j) [byte (s.sc.queue.length + 1)] := by
  unfold scanSubmitOwner
  rw [hj]
  exact if_neg (Nat.not_le.2 h)

theorem State.submitHost_busy {s : State} (job : Byte) (j : JobBody) (h : s.sc.job.isSome = true) :
    s.submitHost job j = s.setSc { s.sc with queue := s.sc.queue ++ [hostJob job j] } := State.scanGo_busy h

theorem State.submitHost_present {s : State} (job : Byte) (j : JobBody) {first : Job} {rest : List Job}
    (hj : s.sc.job = none) (hq : s.sc.queue ++ [hostJob job j] = first :: rest) (hp : s.lau[(3 : Fin 4)].present = true) :
    s.submitHost job j = s.setSc { s.sc with queue := rest, job := some (first.activate s.sc s.clock) } :=
  State.scanGo_present (s := s.setSc { s.sc with queue := s.sc.queue ++ [hostJob job j] }) hj hq hp

theorem State.submitHost_absent {s : State} (job : Byte) (j : JobBody) (hj : s.sc.job = none)
    (hp : s.lau[(3 : Fin 4)].present = false) : s.submitHost job j = (s.setSc { s.sc with queue := [] }).completeAll
      ((s.sc.queue ++ [hostJob job j]).map fun j => (j, j.bareResult .fault (some .rail))) :=
  State.scanGo_absent (s := s.setSc { s.sc with queue := s.sc.queue ++ [hostJob job j] }) hj hp

theorem isHost_eq (job : Byte) : Job.isHost job = fun j => decide (j.cls = .host job) := rfl

theorem State.completeAll_singleton (s : State) (j : Job) (r : ScanResult) : s.completeAll [(j, r)] = s.completeJob j r := rfl

/-! ## A cancellation (R129) -/

theorem cls_of_isHost {job : Byte} {q : List Job} {j : Job} (h : j ∈ q.filter (Job.isHost job)) : j.cls = .host job := by
  have hp : Job.isHost job j = true := List.of_mem_filter h
  exact of_decide_eq_true hp

/-- R129: the jobs cancelled are host jobs, and hand no event over. -/
theorem cancellations_events (job : Byte) (q : List Job) (time : Nat) :
    (cancellations (q.filter (Job.isHost job))).filterMap (fun c => c.1.event time c.2.outcome) = [] := by
  refine List.filterMap_eq_nil_iff.2 fun c hc => ?_
  obtain ⟨j, hj, rfl⟩ := List.mem_map.1 hc
  have hcls : j.cls = .host job := cls_of_isHost hj
  unfold Job.event
  dsimp only
  rw [hcls]

/-- R129: what a SCAN_CANCEL leaves. -/
theorem State.cancelHost_eq (s : State) (job : Byte) : s.cancelWhere (Job.isHost job) = { s with
    sc := { s.sc with
      queue := s.sc.queue.filter fun j => decide (j.cls ≠ .host job)
      job := s.sc.job.map fun a => if a.job.cls = .host job then { a with cancel := true } else a
      results := addResults (cancellations (s.sc.queue.filter (Job.isHost job))) s.sc.results }
    fu := (cancellations (s.sc.queue.filter (Job.isHost job))).foldl (fun u _ => u.raise .scanDone) s.fu
    ts := { s.ts with input := s.ts.input ++ if s.live then
      (cancellations (s.sc.queue.filter (Job.isHost job))).map fun c => s.arriving .sc (c.2.record s.rc.timeBase) else
        [] } } := by
  have hqueue : (fun j : Job => !Job.isHost job j) = fun j => decide (j.cls ≠ .host job) :=
    funext fun j => (decide_not (p := j.cls = .host job)).symm
  have hjob : (fun a : Active => if Job.isHost job a.job = true then { a with cancel := true } else a) =
      fun a => if a.job.cls = .host job then { a with cancel := true } else a :=
    funext fun a => if_congr decide_eq_true_iff rfl rfl
  rw [State.cancelWhere_eq, State.completeAll_eq, cancellations_events, List.append_nil]
  unfold Sc.markActive
  rw [hqueue, hjob]
  rfl

/-- The results of the jobs cancelled. -/
theorem cancellations_results (job : Byte) (q : List Job) : (cancellations (q.filter (Job.isHost job))).map Prod.snd =
    (q.filter fun j => decide (j.cls = .host job)).map fun _ => ({
      cls := .host job, outcome := .cancelled, reason := none, inserted := false, capture := 0, captureLen := 0 } :
        ScanResult) := by
  rw [cancellations, List.map_map]
  refine List.map_congr_left fun j hj => ?_
  have hcls : j.cls = .host job := cls_of_isHost hj
  show j.bareResult .cancelled none = _
  rw [Job.bareResult, hcls]

/-! ## SCAN_RESULT and SCAN_QUERY (R132) -/

theorem JobClass.dec_refused {c n : Byte} (h : 2 ≤ c.toNat ∨ (c = 1 ∧ 8 ≤ n.toNat)) : JobClass.dec c n = none := by
  unfold JobClass.dec
  rcases h with h | ⟨rfl, h⟩
  · split
    · omega
    · omega
    · rfl
  · show (indexOf 8 n).map JobClass.step = none
    rw [indexOf_of_le h]
    rfl

theorem JobClass.dec_of {cls n : Byte} {c : JobClass}
    (h : (cls = 0 ∧ c = .host n) ∨ (cls = 1 ∧ ∃ k : Fin 8, n = byte k.val ∧ c = .step k)) :
    JobClass.dec cls n = some c ∧ cls = c.code ∧ n = c.number := by
  rcases h with ⟨rfl, rfl⟩ | ⟨rfl, k, rfl, rfl⟩
  · exact ⟨rfl, rfl, rfl⟩
  · refine ⟨?_, rfl, rfl⟩
    show (indexOf 8 (byte k.val)).map JobClass.step = _
    rw [indexOf_byte8]
    rfl

/-- R132: what SCAN_QUERY reports, part by part. -/
theorem encActive_length {o : Option Active} (h : ∀ a, o = some a → a.job.body.enc.length = 196) :
    (encActive o).length = 201 := by
  cases o with
  | none => exact congrArg (· + 1) List.length_replicate
  | some a => exact (List.length_append ..).trans (congrArg (5 + ·) (h a rfl))

theorem ScanSettings.enc_length (r : ScanSettings) : r.enc.length = 4 := by simp [ScanSettings.enc]

theorem Sc.report_eq (c : Sc) : c.report = c.settings.enc ++ (tapCode c.tap :: (encActive c.job ++ (byte c.queue.length ::
    (c.queue.flatMap fun j => [j.cls.code, j.cls.number])))) := by
  simp [Sc.report]

/-- R132: where each part of the report stands. -/
theorem Sc.report_parts {c : Sc} (h : ∀ a, c.job = some a → a.job.body.enc.length = 196) :
    c.report.take 4 = c.settings.enc ∧ byteAt c.report 4 = tapCode c.tap ∧
    (c.report.drop 5).take 201 = encActive c.job ∧ byteAt c.report 206 = byte c.queue.length ∧
    ∀ i j, c.queue[i]? = some j → byteAt c.report (207 + 2 * i) = j.cls.code ∧ byteAt c.report (208 + 2 * i) =
      j.cls.number := by
  have hactive := encActive_length h
  have hsettings := c.settings.enc_length
  rw [Sc.report_eq]
  have after : ∀ i, byteAt (c.settings.enc ++ (tapCode c.tap :: (encActive c.job ++ (byte c.queue.length ::
      (c.queue.flatMap fun j => [j.cls.code, j.cls.number]))))) (5 + i) =
      byteAt (encActive c.job ++ (byte c.queue.length :: (c.queue.flatMap fun j => [j.cls.code, j.cls.number]))) i :=
        fun i => by
    rw [show 5 + i = 4 + (i + 1) by omega, byteAt_append_right hsettings, byteAt_cons_succ]
  refine ⟨List.take_left' hsettings, ?_, ?_, ?_, fun i j hj => ?_⟩
  · exact byteAt_append_right hsettings _ 0
  · rw [show 5 = 4 + 1 from rfl, ← List.drop_drop, List.drop_left' hsettings]
    exact List.take_left' hactive
  · exact (after 201).trans (byteAt_append_right hactive _ 0)
  · obtain ⟨hi, hget⟩ := List.getElem?_eq_some_iff.1 hj
    obtain ⟨tail, hs⟩ := drop_slots (f := fun j : Job => [j.cls.code, j.cls.number]) (m := 2) (fun _ _ => rfl) (pre := [])
        (rest := []) hi
    simp only [List.nil_append, List.append_nil, List.length_nil, Nat.zero_add, hget] at hs
    have slot : ∀ r, byteAt (c.queue.flatMap fun j => [j.cls.code, j.cls.number]) (2 * i + r) =
        byteAt ([j.cls.code, j.cls.number] ++ tail) r := fun r => by rw [← hs, byteAt_drop]
    have behind : ∀ k, byteAt (c.settings.enc ++ (tapCode c.tap :: (encActive c.job ++ (byte c.queue.length ::
        (c.queue.flatMap fun j => [j.cls.code, j.cls.number]))))) (207 + k) =
        byteAt (c.queue.flatMap fun j => [j.cls.code, j.cls.number]) k := fun k => by
      rw [show 207 + k = 5 + (201 + (k + 1)) by omega, after, byteAt_append_right hactive, byteAt_cons_succ]
    exact ⟨(behind _).trans (slot 0), (show 208 + 2 * i = 207 + (2 * i + 1) by omega) ▸ (behind _).trans (slot 1)⟩

/-- Settles O59: each request by what its bytes are read as, a submission by the state of the port, a cancellation by
`State.cancelHost_eq`, and the report part by part. -/
theorem scanRequests : Obligations.ScanRequests := by
  unfold Obligations.ScanRequests
  intro s tag sound spells faulty template
  have hsound : sound = JobBody.sound := rfl
  have hspells : spells = fun b j => JobBody.spelledBy j b := rfl
  have hfaulty : faulty = JobFaulty := rfl
  have htemplate : template = encTemplate := by
    funext j
    cases j <;> rfl
  clear_value sound spells faulty template
  subst hsound hspells hfaulty htemplate
  refine ⟨fun b hb ht => ⟨fun h2 h3 => ?_, fun h => ?_⟩, fun k j b hj hb ht => ?_, fun k b hb ht => ?_, fun n u b hb ht h => ?_,
    fun k => ⟨fun ht => ?_, fun ht => ?_⟩, fun n copy h ht => ?_, fun job b hb hf ht => ?_, fun job j b hj hb ht => ?_,
    fun job ht => ?_, fun cls n ht => ⟨fun h => ?_, fun c hc => ⟨fun hno => ?_, fun pre r post hr hpre hcls => ?_⟩⟩,
    fun ht hlen => ?_⟩
  · intro set
    have hdec : ScanSettings.dec b = some set := ScanSettings.dec_of h2 h3
    clear_value set
    refine congrArg Host.Outcome.next (takeRequest_quiet (u := s.setSc { s.sc with settings := set }) ht
      (Instr.bodyOk_of rfl (by simp [bodyAllowed, hb])) rfl rfl ?_)
    unfold scanConfigOwner
    rw [hdec]
    rfl
  · refine congrArg Host.Outcome.next (takeRequest_refused ht (Instr.bodyOk_of rfl (by simp [bodyAllowed, hb])) ?_)
    unfold scanConfigOwner
    rw [ScanSettings.dec_refused h]
  · refine congrArg Host.Outcome.next
      (takeRequest_quiet (u := s.setSc { s.sc with staged := s.sc.staged.set k (some j) k.isLt }) ht
      (bodyOk_templatePut (.inr hb.1)) rfl rfl ?_)
    unfold templatePutOwner
    rw [indexOf_byte8, templateOf_used, hj.dec hb]
    rfl
  · refine congrArg Host.Outcome.next (takeRequest_quiet (u := s.setSc { s.sc with staged := s.sc.staged.set k none k.isLt }) ht
      (bodyOk_templatePut (hb.imp_left fun h => ⟨h, rfl⟩)) rfl rfl ?_)
    unfold templatePutOwner
    rw [indexOf_byte8, templateOf_unused]
    rfl
  · refine congrArg Host.Outcome.next (takeRequest_refused ht (bodyOk_templatePut (.inr hb)) ?_)
    unfold templatePutOwner
    rcases h with h | ⟨rfl, h⟩
    · rw [indexOf_of_le h]
    · rw [templateOf_used, JobBody.dec_faulty h]
      cases indexOf 8 n <;> rfl
  · refine congrArg Host.Outcome.next (takeRequest_unchanged ht rfl ?_)
    unfold templateGetOwner
    rw [indexOf_byte8]
    rfl
  · refine congrArg Host.Outcome.next (takeRequest_unchanged ht rfl ?_)
    unfold templateGetOwner
    rw [indexOf_byte8]
    rfl
  · refine congrArg Host.Outcome.next (takeRequest_refused ht rfl ?_)
    unfold templateGetOwner
    rcases h with h | h
    · rw [indexOf_of_le h]
    · rw [copyDec_of_le h]
      cases indexOf 8 n <;> rfl
  · refine congrArg Host.Outcome.next (takeRequest_refused ht (Instr.bodyOk_of rfl (by simp [bodyAllowed, hb])) ?_)
    unfold scanSubmitOwner
    rw [JobBody.dec_faulty hf]
  · have hdec := hj.dec hb
    have hok : (Instr.scanSubmit tag job b).bodyOk = true := Instr.bodyOk_of rfl (by simp [bodyAllowed, hb.1])
    refine ⟨fun hfull => ?_, fun hlt hbusy => ?_, fun hq hnone hp => ?_, fun first rest hq hlt hnone hp => ?_,
      fun hne hlt hnone hp => ?_, fun hq hnone hp => ?_⟩
    · exact congrArg Host.Outcome.next (takeRequest_refused ht hok (scanSubmitOwner_full hdec hfull))
    · refine congrArg Host.Outcome.next (takeRequest_quiet (u := s.setSc { s.sc with queue := s.sc.queue ++ [hostJob job j] })
        ht hok rfl rfl ?_)
      rw [scanSubmitOwner_takes hdec (by exact hlt), State.submitHost_busy _ _ (by exact hbusy)]
      rfl
    · refine congrArg Host.Outcome.next (takeRequest_quiet (u := s.setSc { s.sc with job := some _ }) ht hok rfl rfl ?_)
      rw [scanSubmitOwner_takes hdec (by rw [hq]; decide), State.submitHost_present (s := { s with mp := s.mp.pop }) job j hnone
        (show s.sc.queue ++ _ = _ by rw [hq]; rfl) hp, Job.activate_eq]
      rw [show ({ s with mp := s.mp.pop } : State).sc.queue = [] from hq]
      exact congrArg (fun q => okay { s with mp := s.mp.pop, sc := { s.sc with queue := q, job := some _ } } _) hq.symm
    · refine congrArg Host.Outcome.next
        (takeRequest_quiet (u := s.setSc { s.sc with queue := _, job := some _ }) ht hok rfl rfl ?_)
      rw [scanSubmitOwner_takes hdec (by exact hlt), State.submitHost_present (s := { s with mp := s.mp.pop }) job j hnone
        (show s.sc.queue ++ _ = _ by rw [hq]; rfl) hp, Job.activate_eq]
      rfl
    · have hjobs : (s.sc.queue ++ [hostJob job j]).map (fun j => (j, j.bareResult .fault (some .rail))) ≠ [] := by simp
      refine ⟨(s.setSc { s.sc with queue := [] }).completeAll
        ((s.sc.queue ++ [hostJob job j]).map fun j => (j, j.bareResult .fault (some .rail))),
        congrArg Host.Outcome.next (takeRequest_changed ht hok ?_ ?_), ?_, ?_, ?_, ?_⟩
      · rw [State.completeAll_eq]
        rfl
      · rw [scanSubmitOwner_takes hdec (by exact hlt), State.submitHost_absent (s := { s with mp := s.mp.pop }) _ _ hnone hp,
          State.completeAll_eq, State.completeAll_eq]
        rfl
      · rw [State.completeAll_eq]
        rfl
      · rw [State.completeAll_eq]
        refine congrArg (fun l => ({ s.sc with queue := [], results := l } : Sc)) ((addResults_of_ne hjobs _).trans ?_)
        rw [List.map_map, ← List.map_reverse]
        rfl
      · rw [State.completeAll_eq]
        exact raiseAll_sets _ _ hjobs
      · rw [State.completeAll_eq]
        refine (completions_records (s.setSc { s.sc with queue := [] }) _).trans ?_
        rw [List.map_map]
        rfl
    · refine ⟨(s.setSc { s.sc with queue := [] }).completeJob (hostJob job j) ((hostJob job j).bareResult .fault (some .rail)),
        congrArg Host.Outcome.next (takeRequest_changed ht hok ?_ ?_), ?_, ?_⟩
      · rw [State.completeJob_eq]
        rfl
      · rw [scanSubmitOwner_takes hdec (by rw [hq]; decide),
          State.submitHost_absent (s := { s with mp := s.mp.pop }) _ _ hnone hp]
        rw [show ({ s with mp := s.mp.pop } : State).sc.queue = [] from hq]
        rw [List.nil_append, List.map_singleton, State.completeAll_singleton, State.completeJob_eq, State.completeJob_eq]
        rfl
      · rw [State.completeJob_eq]
        exact congrArg (fun q => ({ s.sc with queue := q, results := _ } : Sc)) hq.symm
      · rw [State.completeJob_eq]
        exact JobCompleted.of rfl rfl rfl rfl
  · intro gone active cancelled
    have hcount : ∀ u : State, u.sc = s.sc → u.sc.countWhere (Job.isHost job) = gone.length + if active then 1 else 0 :=
      fun u hu => by rw [hu]; rfl
    refine ⟨fun hg ha => ?_, fun h hlen => ?_⟩
    · refine congrArg Host.Outcome.next (takeRequest_refused ht rfl (if_pos ?_))
      rw [hcount _ rfl, hg, ha]
      rfl
    · have hsome : gone.length + (if active then 1 else 0) ≠ 0 := by
        rcases h with h | h
        · have := List.length_pos_iff.2 h
          omega
        · rw [h]
          exact Nat.succ_ne_zero _
      have hresults := cancellations_results job s.sc.queue
      have hnil : gone = [] ↔ cancellations (s.sc.queue.filter (Job.isHost job)) = [] := List.map_eq_nil_iff.symm
      refine ⟨s.cancelWhere (Job.isHost job), congrArg Host.Outcome.next (takeRequest_changed ht rfl ?_ ?_), ?_⟩
      · rw [State.cancelHost_eq]
      · refine (if_neg (by rw [hcount _ rfl]; exact hsome)).trans ?_
        rw [hcount _ rfl, State.cancelHost_eq, State.cancelHost_eq]
        rfl
      · rw [State.cancelHost_eq]
        refine ⟨rfl, ?_, fun hg => ?_, fun hg => raiseAll_sets _ _ (mt hnil.2 hg), ?_⟩
        · refine congrArg (fun l => ({ s.sc with queue := _, job := _, results := l } : Sc)) ((addResults_eq _ hlen).trans ?_)
          rw [hresults, List.map_const', List.reverse_replicate]
        · rw [hnil.1 hg]
          rfl
        · refine (completions_records s _).trans ?_
          have hrecords := congrArg (List.map fun r : ScanResult => r.record s.rc.timeBase) hresults
          rw [List.map_map, List.map_map] at hrecords
          exact congrArg (fun l => s.ts.input.map Waiting.record ++ if s.live then l else []) hrecords
  · refine congrArg Host.Outcome.next (takeRequest_refused ht rfl ?_)
    unfold scanResultOwner
    rw [JobClass.dec_refused h]
  · refine congrArg Host.Outcome.next (takeRequest_refused ht rfl ?_)
    unfold scanResultOwner
    rw [(JobClass.dec_of hc).1]
    have hfind : s.sc.results.find? (fun r => r.cls == c) = none :=
      List.find?_eq_none.2 fun r hr => by simpa using hno r hr
    dsimp only
    rw [hfind]
  · refine congrArg Host.Outcome.next (takeRequest_unchanged ht rfl ?_)
    unfold scanResultOwner
    obtain ⟨hdec, hcode, hnumber⟩ := JobClass.dec_of hc
    have hfind : s.sc.results.find? (fun r => r.cls == c) = some r :=
      List.find?_eq_some_iff_append.2 ⟨by simpa using hcls, pre, post, hr, fun x hx => by simpa using hpre x hx⟩
    rw [hdec]
    dsimp only
    rw [hfind]
    subst hcls
    rw [hcode, hnumber]
    show okay _ r.report = okay _ _
    refine congrArg (okay _) ?_
    rw [ScanResult.report]
    rcases r.reason with _ | f
    · rfl
    · cases f <;> rfl
  · refine ⟨s.sc.report, congrArg Host.Outcome.next (takeRequest_unchanged ht rfl rfl), ?_, ?_⟩
    · rw [Sc.report_eq, List.length_append, ScanSettings.enc_length, List.length_cons, List.length_append,
        encActive_length hlen, List.length_cons, flatMap_length (m := 2) _ fun _ _ => rfl]
      omega
    · obtain ⟨htake, htap, hactive, hcount, hqueue⟩ := s.sc.report_parts hlen
      have hbyte : ∀ i < 201, byteAt ((s.sc.report.drop 5).take 201) i = byteAt s.sc.report (5 + i) := fun i hi => by
        rw [← byteAt_drop, byteAt, byteAt, List.getD_eq_getElem?_getD, List.getD_eq_getElem?_getD, List.getElem?_take_of_lt hi]
      refine ⟨htake, fun h => ?_, fun h => ?_, fun h => ⟨?_, fun i hi => ?_⟩, fun a ha => ?_, hcount,
        fun i j hj => hqueue i j hj⟩
      · rw [htap, h]
        rfl
      · rw [htap, h]
        rfl
      · rw [← hbyte 0 (by decide), hactive, h]
        rfl
      · rw [show 6 + i = 5 + (i + 1) by omega, ← hbyte _ (by omega), hactive, h]
        show byteAt (List.replicate 200 0) i = 0
        rw [byteAt, List.getD_eq_getElem?_getD, List.getElem?_replicate, if_pos hi]
        rfl
      · rw [ha] at hactive
        have hbytes : ∀ i < 5, byteAt s.sc.report (5 + i) = _ := fun i hi => (hbyte i (by omega)).symm.trans (by rw [hactive])
        refine ⟨hbytes 0 (by decide), hbytes 1 (by decide), (hbytes 2 (by decide)).trans ?_, hbytes 3 (by decide), ?_⟩
        · show a.op.elim 8 byte = _
          cases a.op <;> rfl
        · have hdrop := congrArg (List.drop 5) hactive
          rw [List.drop_take, List.drop_drop] at hdrop
          exact hdrop

end Sys2Proof.Machine

end


section
/-! PROOFS. The operations of a job (R123 to R125, R128): the TAP's walk, the port's pins, and the end of an operation. -/

namespace Sys2Proof.Machine

/-! ## The walk of an operation (R124, R125) -/

/-- R124: the TAP state after the first `k` edges of an operation. -/
def ScanOp.walk (o : ScanOp) (tap : Option Tap) (k : Nat) : Option Tap := (List.range k).foldl (fun t i => tapEdge t o i) tap

theorem ScanOp.walk_succ (o : ScanOp) (tap : Option Tap) (k : Nat) : o.walk tap (k + 1) = tapEdge (o.walk tap k) o k := by
  unfold ScanOp.walk
  rw [List.range_succ, List.foldl_append]
  rfl

/-- R124: one edge from a known state, by the TMS level of its period. -/
theorem ScanOp.walk_next {o : ScanOp} {tap : Option Tap} {k : Nat} {t : Tap} (h : o.walk tap k = some t) {m : Bool}
    (hm : o.tms k = m) : o.walk tap (k + 1) = some (t.next m) := by
  rw [ScanOp.walk_succ, h, ← hm]
  rfl

/-- R124: a state that TMS low keeps is kept while TMS is low. -/
theorem ScanOp.walk_stays {o : ScanOp} {tap : Option Tap} {k : Nat} {t : Tap} (h : o.walk tap k = some t)
    (ht : t.next false = t) (n : Nat) (hm : ∀ i < n, o.tms (k + i) = false) : o.walk tap (k + n) = some t := by
  induction n with
  | zero => exact h
  | succ n ih =>
    have hn := ScanOp.walk_next (ih fun i hi => hm i (by omega)) (hm n (by omega))
    rwa [ht] at hn

theorem irScan_tms (n : Nat) (out : BitVec 128) (i : Nat) :
    (ScanOp.irScan n out).tms i = decide (i < 2 ∨ i = n + 3 ∨ i = n + 4) := by
  simp only [ScanOp.tms, Bool.decide_or, Bool.or_assoc]
  rfl

theorem drScan_tms (n : Nat) (out : BitVec 128) (i : Nat) :
    (ScanOp.drScan n out).tms i = decide (i = 0 ∨ i = n + 2 ∨ i = n + 3) := by
  simp only [ScanOp.tms, Bool.decide_or, Bool.or_assoc]
  rfl

/-- R125: an IR_SCAN shifts from its fifth edge on. -/
theorem irScan_shifts {n : Nat} (out : BitVec 128) {k : Nat} (h : k < n) :
    (ScanOp.irScan n out).walk (some .runTestIdle) (4 + k) = some .shiftIr := by
  have tms : ∀ (i : Nat) (b : Bool), decide (i < 2 ∨ i = n + 3 ∨ i = n + 4) = b → (ScanOp.irScan n out).tms i = b :=
    fun i b hb => (irScan_tms n out i).trans hb
  have h0 : (ScanOp.irScan n out).walk (some .runTestIdle) 0 = some .runTestIdle := rfl
  have h1 := ScanOp.walk_next h0 (tms 0 true (decide_eq_true (by omega)))
  have h2 := ScanOp.walk_next h1 (tms 1 true (decide_eq_true (by omega)))
  have h3 := ScanOp.walk_next h2 (tms 2 false (decide_eq_false (by omega)))
  have h4 := ScanOp.walk_next h3 (tms 3 false (decide_eq_false (by omega)))
  exact ScanOp.walk_stays h4 rfl k fun i hi => tms _ false (decide_eq_false (by omega))

/-- R125: an IR_SCAN ends where it began. -/
theorem irScan_returns {n : Nat} (out : BitVec 128) (h : 1 ≤ n) :
    (ScanOp.irScan n out).walk (some .runTestIdle) (n + 6) = some .runTestIdle := by
  have tms : ∀ (i : Nat) (b : Bool), decide (i < 2 ∨ i = n + 3 ∨ i = n + 4) = b → (ScanOp.irScan n out).tms i = b :=
    fun i b hb => (irScan_tms n out i).trans hb
  have hs := irScan_shifts out (show n - 1 < n by omega)
  rw [show 4 + (n - 1) = n + 3 by omega] at hs
  have h1 := ScanOp.walk_next hs (tms (n + 3) true (decide_eq_true (by omega)))
  have h2 := ScanOp.walk_next h1 (tms (n + 4) true (decide_eq_true (by omega)))
  exact ScanOp.walk_next h2 (tms (n + 5) false (decide_eq_false (by omega)))

/-- R125: a DR_SCAN shifts from its fourth edge on. -/
theorem drScan_shifts {n : Nat} (out : BitVec 128) {k : Nat} (h : k < n) :
    (ScanOp.drScan n out).walk (some .runTestIdle) (3 + k) = some .shiftDr := by
  have tms : ∀ (i : Nat) (b : Bool), decide (i = 0 ∨ i = n + 2 ∨ i = n + 3) = b → (ScanOp.drScan n out).tms i = b :=
    fun i b hb => (drScan_tms n out i).trans hb
  have h0 : (ScanOp.drScan n out).walk (some .runTestIdle) 0 = some .runTestIdle := rfl
  have h1 := ScanOp.walk_next h0 (tms 0 true (decide_eq_true (by omega)))
  have h2 := ScanOp.walk_next h1 (tms 1 false (decide_eq_false (by omega)))
  have h3 := ScanOp.walk_next h2 (tms 2 false (decide_eq_false (by omega)))
  exact ScanOp.walk_stays h3 rfl k fun i hi => tms _ false (decide_eq_false (by omega))

/-- R125: a DR_SCAN ends where it began. -/
theorem drScan_returns {n : Nat} (out : BitVec 128) (h : 1 ≤ n) :
    (ScanOp.drScan n out).walk (some .runTestIdle) (n + 5) = some .runTestIdle := by
  have tms : ∀ (i : Nat) (b : Bool), decide (i = 0 ∨ i = n + 2 ∨ i = n + 3) = b → (ScanOp.drScan n out).tms i = b :=
    fun i b hb => (drScan_tms n out i).trans hb
  have hs := drScan_shifts out (show n - 1 < n by omega)
  rw [show 3 + (n - 1) = n + 2 by omega] at hs
  have h1 := ScanOp.walk_next hs (tms (n + 2) true (decide_eq_true (by omega)))
  have h2 := ScanOp.walk_next h1 (tms (n + 3) true (decide_eq_true (by omega)))
  exact ScanOp.walk_next h2 (tms (n + 4) false (decide_eq_false (by omega)))

/-- R125: every operation ends in Run-Test/Idle. -/
theorem ScanOp.walk_returns {o : ScanOp} (h : ∀ n out, o = .irScan n out ∨ o = .drScan n out → 1 ≤ n) :
    o.walk (some .runTestIdle) o.periods = some .runTestIdle := by
  cases o with
  | tapReset => rfl
  | irScan n out => exact irScan_returns out (h n out (.inl rfl))
  | drScan n out => exact drScan_returns out (h n out (.inr rfl))
  | idle m =>
    have hs := ScanOp.walk_stays (o := .idle m) (tap := some .runTestIdle) (k := 0) rfl rfl m fun _ _ => rfl
    rwa [Nat.zero_add] at hs

/-! ## The shifted bits (R125) -/

theorem irScan_shiftBit (n : Nat) (out : BitVec 128) (i : Nat) :
    (ScanOp.irScan n out).shiftBit i = if 4 ≤ i ∧ i < n + 4 then some (i - 4) else none := rfl

theorem drScan_shiftBit (n : Nat) (out : BitVec 128) (i : Nat) :
    (ScanOp.drScan n out).shiftBit i = if 3 ≤ i ∧ i < n + 3 then some (i - 3) else none := rfl

theorem irScan_tdi (n : Nat) (out : BitVec 128) (i : Nat) :
    (ScanOp.irScan n out).tdi i = if 4 ≤ i ∧ i < n + 4 then out.getLsbD (i - 4) else true := by
  unfold ScanOp.tdi
  rw [irScan_shiftBit]
  by_cases h : 4 ≤ i ∧ i < n + 4
  · rw [if_pos h, if_pos h]
  · rw [if_neg h, if_neg h]

theorem drScan_tdi (n : Nat) (out : BitVec 128) (i : Nat) :
    (ScanOp.drScan n out).tdi i = if 3 ≤ i ∧ i < n + 3 then out.getLsbD (i - 3) else true := by
  unfold ScanOp.tdi
  rw [drScan_shiftBit]
  by_cases h : 3 ≤ i ∧ i < n + 3
  · rw [if_pos h, if_pos h]
  · rw [if_neg h, if_neg h]

/-! ## The operation in progress -/

/-- The operation in progress, none behind the end of the list. -/
def Active.inProgress (a : Active) : Option ScanOp :=
  match a.op with | none => some .tapReset | some i => a.job.body.ops[i]?

theorem Active.current_of {a : Active} {o : ScanOp} (h : a.inProgress = some o) : a.current = o := by
  unfold Active.inProgress at h
  unfold Active.current
  cases hop : a.op with
  | none =>
    rw [hop] at h
    exact Option.some_inj.1 h
  | some i =>
    rw [hop] at h
    dsimp only at h ⊢
    rw [h]
    rfl

/-- A scan in progress is one of the list. -/
theorem Active.op_some {a : Active} {o : ScanOp} (h : a.inProgress = some o) (ho : o ≠ .tapReset) : ∃ i, a.op = some i := by
  unfold Active.inProgress at h
  cases hop : a.op with
  | none =>
    rw [hop] at h
    exact absurd (Option.some_inj.1 h).symm ho
  | some i => exact ⟨i, rfl⟩

theorem Active.opDone_iff {a : Active} {o : ScanOp} (h : a.inProgress = some o) (clock : Nat) :
    a.opDone clock = true ↔ a.opStart + o.periods * (2 * a.settings.divider) ≤ clock := by
  rw [Active.opDone, decide_eq_true_iff, Active.current_of h, Active.period, Nat.mul_comm a.settings.divider]

/-! ## The capture (R125) -/

/-- The samples of TDO, bit by bit. -/
theorem captureOf_getLsbD (bits : List Bool) {i : Nat} (hi : i < 128) : (captureOf bits).getLsbD i = bits.getD i false := by
  rw [captureOf, BitVec.getLsbD_ofNat, decide_eq_true hi, Bool.true_and, testBit_bits]

theorem captureOf_eq {bits : List Bool} {cap : BitVec 128} (h : ∀ i < 128, cap.getLsbD i = bits.getD i false) :
    captureOf bits = cap := BitVec.eq_of_getLsbD_eq fun i hi => (captureOf_getLsbD bits hi).trans (h i hi).symm

/-- R125: the capture kept of a DR_SCAN. -/
theorem Active.keep_eq {a : Active} {o : ScanOp} (h : a.inProgress = some o) : a.keep =
    match o with | .drScan n _ => { a with capture := captureOf a.bits, captureLen := n } | _ => a := by
  unfold Active.keep
  rw [Active.current_of h]
  cases o with
  | drScan n out =>
    obtain ⟨i, hi⟩ := Active.op_some h fun h => by cases h
    rw [hi]
  | _ => cases a.op <;> rfl

theorem Active.keep_rest (a : Active) : a.keep = { a with capture := a.keep.capture, captureLen := a.keep.captureLen } := by
  unfold Active.keep
  split <;> rfl

theorem Active.keep_inProgress (a : Active) : a.keep.inProgress = a.inProgress := by rw [Active.keep_rest]; rfl

/-- R125: the IR check fails. -/
theorem Active.irFails_iff {a : Active} {o : ScanOp} (h : a.inProgress = some o) : a.irFails = true ↔
    a.settings.irCheck = true ∧
    ∃ n out, o = .irScan n out ∧
      ((captureOf a.bits).getLsbD 0 = false ∨ (n ≠ 1 ∧ (captureOf a.bits).getLsbD 1 = true)) := by
  unfold Active.irFails
  rw [Active.current_of h]
  cases o with
  | irScan n out =>
    obtain ⟨i, hi⟩ := Active.op_some h fun h => by cases h
    rw [hi]
    simp only [irCheckPasses, Bool.and_eq_true, Bool.not_eq_true', Bool.and_eq_false_iff, Bool.or_eq_false_iff,
      Bool.not_eq_false', beq_eq_false_iff_ne, ScanOp.irScan.injEq]
    constructor
    · rintro ⟨hc, hf⟩
      exact ⟨hc, n, out, ⟨rfl, rfl⟩, hf⟩
    · rintro ⟨hc, n', out', ⟨rfl, rfl⟩, hf⟩
      exact ⟨hc, hf⟩
  | _ =>
    constructor
    · intro hf
      cases hop : a.op <;> rw [hop] at hf <;> cases hf
    · rintro ⟨-, n, out, he, -⟩
      cases he

/-! ## The pins (R123, R125) -/

/-- R125: the pins in a period of an operation. -/
theorem State.scanPins_active {s : State} {a : Active} {o : ScanOp} (hp : s.lau[(3 : Fin 4)].present = true)
    (hj : s.sc.job = some a) (h : a.inProgress = some o) : s.scanPins =
      let i := (s.clock - a.opStart) / (a.settings.divider * 2)
      { released := false, tck := decide (a.settings.divider ≤ (s.clock - a.opStart) % (a.settings.divider * 2))
        tms := o.tms i, tdi := o.tdi i, trst := !decide (o = .tapReset ∧ a.settings.trst = true ∧ i < 5) } := by
  unfold State.scanPins
  rw [hp, hj, Bool.not_true, if_neg Bool.false_ne_true]
  dsimp only
  rw [Active.current_of h, Bool.and_assoc, Bool.decide_and, Bool.decide_and, Bool.decide_eq_true]
  rfl

/-! ## The end of a job (R128, R131) -/

/-- R128: the active job ends, and the head of the queue becomes active. -/
theorem State.endJob_ends {s t : State} {a : Active} {outcome : ScanOutcome} {reason : Option FaultReason} {tap : Option Tap}
    (hp : s.lau[(3 : Fin 4)].present = true) (ht : s.endJob a outcome reason tap = t) :
    t.mp = s.mp ∧ t.sc.tap = tap ∧ JobCompleted s t a.job (a.result outcome reason) ∧
      (s.sc.queue = [] → t.sc.job = none ∧ t.sc.queue = []) ∧
      ∀ j js, s.sc.queue = j :: js → t.sc.queue = js ∧ t.sc.job = some {
        job := j, settings := s.sc.settings, inserted := tap.isNone, op := if tap = none then none else some 0
        opStart := s.clock, bits := [], capture := 0, captureLen := 0, cancel := false } := by
  subst ht
  unfold State.endJob
  have hu := (s.setSc { s.sc with job := none, tap }).completeJob_eq a.job (a.result outcome reason)
  generalize (s.setSc { s.sc with job := none, tap }).completeJob a.job (a.result outcome reason) = u at hu ⊢
  have hjob : u.sc.job = none := by rw [hu]; rfl
  have hqueue : u.sc.queue = s.sc.queue := by rw [hu]; rfl
  have hlau : u.lau[(3 : Fin 4)].present = true := by rw [hu]; exact hp
  cases hq : s.sc.queue with
  | nil =>
    rw [State.scanGo_empty (hqueue.trans hq), hu]
    exact ⟨rfl, rfl, JobCompleted.of rfl rfl rfl rfl, fun _ => ⟨rfl, hq⟩, fun j js h => by cases h⟩
  | cons j js =>
    rw [State.scanGo_present hjob (hqueue.trans hq) hlau, Job.activate_eq, hu]
    refine ⟨rfl, rfl, ?_, ?_, ?_⟩
    · exact JobCompleted.of rfl rfl rfl rfl
    · intro h
      cases h
    · intro j' js' h
      cases h
      exact ⟨rfl, rfl⟩

/-- R126, R128: the outcome of a job with a compare. -/
theorem Active.finalOutcome_of {a : Active} {c : Compare} (h : a.job.body.compare = some c) :
    a.finalOutcome = if a.capture &&& c.mask = c.expected &&& c.mask then .match_ else .mismatch := by
  unfold Active.finalOutcome
  rw [h]
  exact if_congr beq_iff_eq rfl rfl

/-- Settles O60, by the walks of the operations, the pins in a period, and the end of an operation. -/
theorem scanOperationsEnd : Obligations.ScanOperationsEnd := by
  refine ⟨fun o ho => ⟨ScanOp.walk_returns ho, fun h => ?_, fun n out h => ⟨?_, fun k hk => ?_⟩,
    fun n out h => ⟨?_, fun k hk => ?_⟩⟩,
    fun s => ⟨fun hp => ?_, fun hp hj => ?_, fun a o hp hj h => ?_⟩, fun s a hj hp => ?_⟩
  · subst h; rfl
  · subst h; rfl
  · subst h
    refine ⟨(if_pos (by omega)).trans (congrArg some (by omega)), ?_, irScan_shifts out hk⟩
    rw [irScan_tdi, if_pos (by omega), Nat.add_sub_cancel_left]
  · subst h; rfl
  · subst h
    refine ⟨(if_pos (by omega)).trans (congrArg some (by omega)), ?_, drScan_shifts out hk⟩
    rw [drScan_tdi, if_pos (by omega), Nat.add_sub_cancel_left]
  · rw [State.scanPins, hp]
    rfl
  · rw [State.scanPins, hp, hj]
    rfl
  · rw [State.scanPins_active hp hj h]
    cases o with
    | irScan n out => simp only [irScan_tms, irScan_tdi]
    | drScan n out => simp only [drScan_tms, drScan_tdi]
    | tapReset => rfl
    | idle m => rfl
  · intro op next o ho
    have hnext : next = a.nextOp := rfl
    have hexec : exec .operationEnd s = .next (if a.opDone s.clock then s.operationEnd a else s) := by
      show Host.Outcome.next (match s.sc.job with | some a => _ | none => _) = _
      rw [hj]
    have hop : a.inProgress = some o := ho
    clear_value next
    subst hnext
    refine ⟨fun hlt => ?_, fun hle hbits cap hcap => ?_⟩
    · rw [hexec, if_neg (mt (Active.opDone_iff hop _).1 (Nat.not_le.2 hlt))]
    · intro b irFails ends
      have hcapture := captureOf_eq hcap
      have hkeep : a.keep = b := by
        rw [Active.keep_eq hop, hcapture]
        cases o <;> rfl
      have hrest := a.keep_rest
      rw [hkeep] at hrest
      have hprogress : b.inProgress = some o := by rw [← hkeep, Active.keep_inProgress, hop]
      have hfails : b.irFails = true ↔ irFails := by
        rw [Active.irFails_iff hprogress, hrest]
        show _ ∧ (∃ n out, o = .irScan n out ∧ ((captureOf a.bits).getLsbD 0 = false ∨ _)) ↔ _
        rw [hcapture]
      have hdue : exec .operationEnd s = .next (s.operationEnd a) := by
        rw [hexec, if_pos ((Active.opDone_iff hop _).2 hle)]
      have hjob : b.job = a.job := by rw [hrest]
      have hcancel : b.cancel = a.cancel := by rw [hrest]
      have hnext : b.nextOp = a.nextOp := by rw [hrest]; rfl
      have hresult : ∀ outcome reason, b.result outcome reason = {
          cls := a.job.cls, outcome, reason, inserted := a.inserted, capture := b.capture, captureLen := b.captureLen } :=
        fun outcome reason => by
          rw [Active.result, hjob, show b.inserted = a.inserted by rw [hrest]]
      have hends : ∀ outcome reason tap, s.operationEnd a = s.endJob b outcome reason tap → ends outcome reason tap :=
        fun outcome reason tap h => by
          obtain ⟨hmp, htap, hdone, hempty, hbegins⟩ := State.endJob_ends hp h.symm
          rw [hjob, hresult] at hdone
          exact ⟨_, hdue, hmp, htap, hdone, hempty, hbegins⟩
      clear_value b ends
      have hend : s.operationEnd a = if b.irFails then s.endJob b .fault (some .irCheck) none
          else if b.cancel then s.endJob b .cancelled none (some .runTestIdle)
          else if b.nextOp < b.job.body.ops.length then s.setSc { s.sc with
            tap := some .runTestIdle, job := some { b with op := some b.nextOp, opStart := s.clock, bits := [] } }
          else s.endJob b b.finalOutcome none (some .runTestIdle) := by
        rw [← hkeep]
        rfl
      rw [hcancel, hnext, hjob] at hend
      refine ⟨fun hf => ?_, fun hf hc => ?_, fun hf hc hn => ?_, fun hf hc hn => ?_⟩
      · rw [if_pos (hfails.2 hf)] at hend
        exact hends _ _ _ hend
      · rw [if_neg (mt hfails.1 hf), if_pos hc] at hend
        exact hends _ _ _ hend
      · rw [if_neg (mt hfails.1 hf), if_neg (ne_true_of_eq_false hc), if_pos hn] at hend
        rw [hdue, hend, ← hjob, ← hcancel]
        rfl
      · rw [if_neg (mt hfails.1 hf), if_neg (ne_true_of_eq_false hc), if_neg (Nat.not_lt.2 hn)] at hend
        refine ⟨fun hnone => hends _ _ _ ?_, fun c hsome => ⟨fun heq => hends _ _ _ ?_, fun hne => hends _ _ _ ?_⟩⟩
        · rw [hend, Active.finalOutcome, hjob, hnone]
        · rw [hend, Active.finalOutcome_of (c := c) (by rw [hjob, hsome]), if_pos heq]
        · rw [hend, Active.finalOutcome_of (c := c) (by rw [hjob, hsome]), if_neg hne]

end Sys2Proof.Machine

end


section
/-! PROOFS. What an evaluation of steps brings beside the steps themselves (chapter 3): the events it hands over are SCAN events
of its own jobs, and the trigger fires by a TRIGGER action of the plan alone (R23, R63, R131). -/

namespace Sys2Proof.Machine

/-- The events of completed scan jobs. -/
def ScanOnly (l : List Event) : Prop := ∀ x ∈ l, ∃ n o, x.body = .scan n o

theorem ScanOnly.nil : ScanOnly [] := fun _ h => by cases h

theorem ScanOnly.append {l m : List Event} (h : ScanOnly l) (k : ScanOnly m) : ScanOnly (l ++ m) := fun x hx =>
  (List.mem_append.1 hx).elim (h x) (k x)

/-- R63: a record of the trigger fired now by an action of the plan waits in `t`. -/
def State.PlanFired (s t : State) : Prop := ∃ w ∈ t.ts.input, ∃ (k : Fin 64) (e : StepEntry),
  w.record = ⟨s.rc.timeBase, .trig (.step k)⟩ ∧ s.ste.active[k] = some e ∧ Action.trigger ∈ e.actions

/-- What an evaluation of steps leads to. -/
structure Evaluated (s t : State) : Prop where
  frame : StepFrame s t
  events : ∃ l, t.ste.events = s.ste.events ++ l ∧ ScanOnly l
  trigger : t.ts.fired = s.ts.fired ∨ (t.ts.fired = true ∧ s.PlanFired t)
  flags : s.fu.Kept t.fu

theorem Evaluated.quiet {s t : State} (h : StepFrame s t) (he : t.ste.events = s.ste.events) (hf : t.ts.fired = s.ts.fired)
    (hfu : s.fu.Kept t.fu) : Evaluated s t := ⟨h, ⟨[], he.trans (List.append_nil _).symm, .nil⟩, .inl hf, hfu⟩

theorem Evaluated.refl (s : State) : Evaluated s s := .quiet (.refl s) rfl rfl (.refl _)

theorem State.PlanFired.mono {s t u : State} (h : s.PlanFired t) (k : t.ts.input <+: u.ts.input) : s.PlanFired u := by
  obtain ⟨w, hw, hrest⟩ := h
  exact ⟨w, k.subset hw, hrest⟩

theorem State.PlanFired.of_frame {s t u : State} (hf : StepFrame s t) (h : t.PlanFired u) : s.PlanFired u := by
  obtain ⟨w, hw, k, e, hr, hk, ha⟩ := h
  rw [hf.rc] at hr
  rw [hf.plan] at hk
  exact ⟨w, hw, k, e, hr, hk, ha⟩

theorem Evaluated.trans {s t u : State} (h : Evaluated s t) (g : Evaluated t u) : Evaluated s u := by
  obtain ⟨l, hl, hs⟩ := h.events
  obtain ⟨m, hm, ht⟩ := g.events
  refine ⟨h.frame.trans g.frame, ⟨l ++ m, by rw [hm, hl, List.append_assoc], hs.append ht⟩, ?_, h.flags.trans g.flags⟩
  rcases g.trigger with hg | ⟨hg, hp⟩
  · rcases h.trigger with hh | ⟨hh, hp⟩
    · exact .inl (hg.trans hh)
    · exact .inr ⟨hg.trans hh, hp.mono g.frame.behind⟩
  · exact .inr ⟨hg, hp.of_frame h.frame⟩

theorem Evaluated.foldl {α : Type} {f : State → α → State} (h : ∀ s a, Evaluated s (f s a)) (s : State) (l : List α) :
    Evaluated s (l.foldl f s) := by
  induction l generalizing s with
  | nil => exact .refl s
  | cons a l ih => exact (h s a).trans (ih _)

/-! ## The actions (R23) -/

theorem Job.event_scanOnly (j : Job) (time : Nat) (o : ScanOutcome) : ScanOnly (j.event time o).toList := fun x hx => by
  unfold Job.event at hx
  cases hj : j.cls with
  | host n => rw [hj] at hx; cases hx
  | step n =>
    rw [hj] at hx
    dsimp only at hx
    split at hx
    · obtain rfl := List.mem_singleton.1 hx
      exact ⟨n, o, rfl⟩
    · cases hx

/-- What the SC's own work hands over to the STE. -/
def State.HandsScans (s t : State) : Prop := ∃ l, t.ste.events = s.ste.events ++ l ∧ ScanOnly l

theorem State.completeJob_handsScans (s : State) (j : Job) (r : ScanResult) : s.HandsScans (s.completeJob j r) := by
  rw [State.completeJob_eq]
  exact ⟨_, rfl, j.event_scanOnly _ _⟩

theorem State.activateNext_handsScans (n : Nat) (s : State) : s.HandsScans (s.activateNext n) := by
  induction n generalizing s with
  | zero => exact ⟨[], (List.append_nil _).symm, .nil⟩
  | succ n ih =>
    unfold State.activateNext
    split
    · rename_i j js _ _
      dsimp only
      split
      · exact ⟨[], (List.append_nil _).symm, .nil⟩
      · obtain ⟨l, hl, hs⟩ := State.completeJob_handsScans (s.setSc { s.sc with queue := js }) j
            (j.bareResult .fault (some .rail))
        obtain ⟨m, hm, ht⟩ := ih ((s.setSc { s.sc with queue := js }).completeJob j (j.bareResult .fault (some .rail)))
        exact ⟨l ++ m, by rw [hm, hl]; exact List.append_assoc .., hs.append ht⟩
    · exact ⟨[], (List.append_nil _).symm, .nil⟩

theorem State.submitStep_handsScans (s : State) (t : Fin 8) : s.HandsScans (s.submitStep t) := by
  unfold State.submitStep
  split
  · exact ⟨[], (List.append_nil _).symm, .nil⟩
  · dsimp only
    split
    · exact State.completeJob_handsScans _ _ _
    · exact State.activateNext_handsScans _ _

theorem State.hand_evaluated (s : State) (src : RecSource) (r : Rec) : Evaluated s (s.hand src r) :=
  .quiet (s.hand_stepFrame src r) (by rw [State.hand_ste]) (by rw [State.hand_eq]) (by rw [State.hand_eq]; exact .refl _)

theorem State.setRefused_evaluated (s : State) (k : Fin 64) : Evaluated s (s.setRefused k) := by
  unfold State.setRefused
  split
  · exact .refl s
  · exact .quiet (s.setEval_stepFrame k _) rfl rfl (.refl _)

theorem State.stepClaim_evaluated (s : State) (c : Fin 8) (op : DriveOp) : Evaluated s (s.stepClaim c op).1 := by
  have hframe := s.stepClaim_stepFrame c op
  rcases s.stepClaim_cases c op with ⟨-, -, -, h⟩ | ⟨-, h⟩ <;> rw [h] at hframe ⊢
  · exact .quiet hframe rfl rfl (Fu.raise_keeps _ _)
  · have heq := s.driveOperate_eq c op .step
    have hste := congrArg State.ste heq
    have hts := congrArg (fun u : State => u.ts.fired) heq
    have hfu := congrArg State.fu heq
    exact .quiet hframe (congrArg Ste.events hste) hts (hfu ▸ .refl _)

/-- R23, R63: an action of the plan. -/
theorem State.act_evaluated (s : State) {k : Fin 64} {e : StepEntry} (hk : s.ste.active[k] = some e) {a : Action}
    (ha : a ∈ e.actions) : Evaluated s (State.act k s a) := by
  cases a with
  | drive c op =>
    have h := s.stepClaim_evaluated c op
    unfold State.act
    dsimp only
    split
    · exact h.trans (State.setRefused_evaluated _ k)
    · exact h
  | scan n =>
    refine ⟨(s.submitStep_frame n).stepFrame, s.submitStep_handsScans n, .inl ?_,
      ((State.submitStep_works (x := .bank) s n).grows rfl).flags⟩
    show (s.submitStep n).ts.fired = _
    rw [(s.submitStep_frame n).eq]
  | mark code => exact State.hand_evaluated _ _ _
  | trigger =>
    show Evaluated s (s.fireTrigger (.step k))
    unfold State.fireTrigger
    split
    · refine ⟨⟨rfl, rfl, rfl, rfl, List.prefix_append _ _⟩, ⟨[], (List.append_nil _).symm, .nil⟩, .inr ⟨rfl, ?_⟩,
        .refl _⟩
      exact ⟨_, List.mem_append_right _ (List.mem_singleton_self _), k, e, rfl, hk, ha⟩
    · exact .refl s
  | endRun => exact .quiet ⟨rfl, rfl, rfl, rfl, List.prefix_refl _⟩ rfl rfl (.refl _)

theorem State.acts_evaluated (s : State) {k : Fin 64} {e : StepEntry} (hk : s.ste.active[k] = some e) {l : List Action}
    (hl : ∀ a ∈ l, a ∈ e.actions) : Evaluated s (l.foldl (State.act k) s) := by
  induction l generalizing s with
  | nil => exact .refl s
  | cons a l ih =>
    have h := s.act_evaluated hk (hl a List.mem_cons_self)
    exact h.trans (ih _ (by rw [h.frame.plan]; exact hk) fun b hb => hl b (List.mem_cons_of_mem _ hb))

/-! ## A resolution and what follows from it (R46) -/

/-- R46: the state in which the actions of a resolving step begin. -/
def State.resolving (s : State) (k : Fin 64) (e : StepEntry) (v : StepEval) (st : StepState) (time : Nat) : State :=
  let s1 := s.setEval k { v with state := st, resolution := some time }
  s1.setSte (s1.ste.note k e st)

/-- R46: the state in which the actions of a resolving step are done. -/
def State.acted (s : State) (k : Fin 64) (e : StepEntry) (v : StepEval) (st : StepState) (time : Nat) : State :=
  if st.success then e.actions.foldl (State.act k) (s.resolving k e v st time) else s.resolving k e v st time

theorem State.resolveStep_eq (s : State) (k : Fin 64) (e : StepEntry) (v : StepEval) (st : StepState) (time : Nat) :
    s.resolveStep k e v st time = (match (s.acted k e v st time).ste.evals[k] with
      | none => s.acted k e v st time
      | some v' => (s.acted k e v st time).hand .run (stepRecord k e v')).raiseIf (e.required && st.failure) .stepFail := rfl

theorem State.acted_evaluated (s : State) {k : Fin 64} {e : StepEntry} (hk : s.ste.active[k] = some e) (v : StepEval)
    (st : StepState) (time : Nat) : Evaluated s (s.acted k e v st time) := by
  have h : Evaluated s (s.resolving k e v st time) := .quiet ⟨rfl, rfl, rfl, rfl, List.prefix_refl _⟩ rfl rfl (.refl _)
  unfold State.acted
  split
  · exact h.trans (State.acts_evaluated (s.resolving k e v st time) hk fun _ => id)
  · exact h

theorem State.raiseIf_evaluated (s : State) (c : Bool) (f : Flag) : Evaluated s (s.raiseIf c f) :=
  .quiet (s.raiseIf_stepFrame c f) (by rw [State.raiseIf_ste]) (by rw [State.raiseIf_ts])
    ((State.raiseIf_works (x := .bank) s c f).grows rfl).flags

theorem State.resolveStep_evaluated (s : State) {k : Fin 64} {e : StepEntry} (hk : s.ste.active[k] = some e) (v : StepEval)
    (st : StepState) (time : Nat) : Evaluated s (s.resolveStep k e v st time) := by
  have h := s.acted_evaluated hk v st time
  rw [State.resolveStep_eq]
  split
  · exact h.trans (State.raiseIf_evaluated _ _ _)
  · exact (h.trans (State.hand_evaluated _ _ _)).trans (State.raiseIf_evaluated _ _ _)

theorem skipOne_evaluated (time : Nat) (acc : State × List (Fin 64)) (j : Fin 64) : Evaluated acc.1 (skipOne time acc j).1 := by
  unfold skipOne
  split
  · rename_i e v hj
    split
    · split
      · exact State.resolveStep_evaluated _ ((Ste.inState_iff _ _ _ _ _).1 hj).1 _ _ _
      · exact .refl _
    · exact .refl _
  · exact .refl _

theorem skips_evaluated (time : Nat) (l : List (Fin 64)) (acc : State × List (Fin 64)) :
    Evaluated acc.1 (l.foldl (skipOne time) acc).1 := by
  induction l generalizing acc with
  | nil => exact .refl _
  | cons j l ih => exact (skipOne_evaluated time acc j).trans (ih _)

theorem State.skipChain_evaluated (s : State) (k : Fin 64) (time : Nat) : Evaluated s (s.skipChain k time) :=
  skips_evaluated time _ (s, [k])

theorem State.setEval_evaluated (s : State) (k : Fin 64) (v : StepEval) : Evaluated s (s.setEval k v) :=
  .quiet (s.setEval_stepFrame k v) rfl rfl (.refl _)

/-- R43: a step that opens, with what follows from it. -/
theorem State.openThen_evaluated (s : State) (j : Fin 64) (e : StepEntry) (v : StepEval) (anchor : Nat)
    {f : StepState → Nat → State → State} (hf : ∀ st t u, Evaluated u (f st t u)) :
    Evaluated s (match s.openStep j e v anchor with
      | (s', some (st, t)) => f st t s'
      | (s', none) => s') := by
  obtain ⟨w, hw⟩ := s.openStep_eq j e v anchor
  have h : Evaluated s (s.openStep j e v anchor).1 := by
    rw [hw]
    exact s.setEval_evaluated j w
  split
  · rename_i heq
    rw [heq] at h
    exact h.trans (hf _ _ _)
  · rename_i heq
    rw [heq] at h
    exact h

theorem State.resolve_evaluated (n : Nat) (k : Fin 64) (st : StepState) (time : Nat) (s : State) :
    Evaluated s (State.resolve n k st time s) := by
  induction n generalizing k st time s with
  | zero => exact .refl s
  | succ n ih =>
    unfold State.resolve
    split
    · exact .refl s
    · rename_i e v hi
      have hr := s.resolveStep_evaluated ((Ste.inState_iff _ _ _ _ _).1 hi).1 v st time
      dsimp only
      split
      · refine hr.trans (Evaluated.foldl (fun u j => ?_) _ _)
        split
        · split
          · exact u.openThen_evaluated j _ _ time fun st t u => ih j st t u
          · exact .refl u
        · exact .refl u
      · exact hr.trans (State.skipChain_evaluated _ _ _)

/-- R44: the steps anchored to START open. -/
theorem State.openStarts_evaluated (s : State) (anchor : Nat) : Evaluated s (s.openStarts anchor) := by
  unfold State.openStarts
  refine Evaluated.foldl (fun u j => ?_) _ _
  split
  · split
    · exact u.openThen_evaluated j _ _ anchor fun st t u => State.resolve_evaluated _ j st t u
    · exact .refl u
  · exact .refl u

theorem offerTo_evaluated (x : Event) (s : State) (j : Fin 64) : Evaluated s (offerTo x s j) := by
  unfold offerTo
  split
  · exact .refl s
  · split
    · split
      · exact (s.setEval_evaluated j _).trans (State.resolve_evaluated _ _ _ _ _)
      · exact s.setEval_evaluated j _
    · exact .refl s

theorem decideStep_evaluated (s : State) (j : Fin 64) : Evaluated s (decideStep s j) := by
  unfold decideStep
  split
  · exact .refl s
  · split
    · exact (s.setEval_evaluated j _).trans (State.resolve_evaluated _ _ _ _ _)
    · exact .refl s

end Sys2Proof.Machine

end


section
/-! PROOFS. What one step's resolution leaves of the others (R44 to R46): a step outside the reach of its chain of anchors keeps
its evaluation record, and the step itself ends with its outcome, its record and its flag. -/

namespace Sys2Proof.Machine

/-! ## Steps out of reach -/

/-- R21: step `i` is out of reach of a resolution of step `k`: it is another, and where it is PENDING on a step, that step is
not `k` and not PENDING itself. -/
def State.Apart (s : State) (k i : Fin 64) : Prop :=
  i ≠ k ∧ ∀ e v a, s.ste.active[i] = some e → s.ste.evals[i] = some v → v.state = .pending → e.anchor = .step a →
    a ≠ k ∧ ∀ va, s.ste.evals[a] = some va → va.state ≠ .pending

/-- The steps out of reach of `k` keep their evaluation records. -/
def State.LeavesApart (k : Fin 64) (s t : State) : Prop := ∀ i, s.Apart k i → t.ste.evals[i] = s.ste.evals[i]

theorem State.LeavesApart.refl (k : Fin 64) (s : State) : s.LeavesApart k s := fun _ _ => rfl

/-- A step that is not PENDING is out of reach of every other. -/
theorem State.Apart.of_started {s : State} {k i : Fin 64} (hik : i ≠ k)
    (h : ∀ v, s.ste.evals[i] = some v → v.state ≠ .pending) : s.Apart k i :=
  ⟨hik, fun _ v _ _ hv hp => absurd hp (h v hv)⟩

/-- R44: a step anchored to START is out of reach of every other. -/
theorem State.Apart.of_start {s : State} {k i : Fin 64} {e : StepEntry} (hik : i ≠ k) (he : s.ste.active[i] = some e)
    (ha : e.anchor = .start) : s.Apart k i :=
  ⟨hik, fun e' v a he' _ _ ha' => by
    cases he.symm.trans he'
    rw [ha] at ha'
    cases ha'⟩

/-- R21: a step PENDING on a step that is not PENDING is out of reach of every other but that one. -/
theorem State.Apart.of_anchor {s : State} {k i a : Fin 64} {e : StepEntry} (hik : i ≠ k) (he : s.ste.active[i] = some e)
    (ha : e.anchor = .step a) (hak : a ≠ k) (hv : ∀ va, s.ste.evals[a] = some va → va.state ≠ .pending) : s.Apart k i :=
  ⟨hik, fun e' v a' he' _ _ ha' => by
    cases he.symm.trans he'
    cases ha.symm.trans ha'
    exact ⟨hak, hv⟩⟩

/-- The records kept keep their steps out of reach of a step that is PENDING at the time. -/
theorem State.Apart.transfer {s u w : State} {k i j : Fin 64} (h : s.Apart k i) (hu : s.LeavesApart k u)
    (hplan : w.ste.active = s.ste.active) (hw : State.OthersKept j u w) (hij : i ≠ j)
    (hj : ∃ v, u.ste.evals[j] = some v ∧ v.state = .pending) : w.Apart j i := by
  refine ⟨hij, fun e v a he hv hp ha => ?_⟩
  rw [hplan] at he
  rw [hw i hij, hu i h] at hv
  obtain ⟨hak, hnot⟩ := h.2 e v a he hv hp ha
  have hua := hu a (.of_started hak hnot)
  have haj : a ≠ j := fun e => by
    subst e
    obtain ⟨vj, hvj, hpj⟩ := hj
    exact hnot vj (hua ▸ hvj) hpj
  refine ⟨haj, fun va hva => ?_⟩
  rw [hw a haj, hua] at hva
  exact hnot va hva

/-! ## A chain of failures (R45) -/

/-- What a chain of failures of `k` keeps on its way: the records out of reach, and in the chain only `k` and steps that were
PENDING. -/
structure Chain (k : Fin 64) (s : State) (acc : State × List (Fin 64)) : Prop where
  plan : acc.1.ste.active = s.ste.active
  apart : s.LeavesApart k acc.1
  chain : ∀ b ∈ acc.2, b = k ∨ ∃ v, s.ste.evals[b] = some v ∧ v.state = .pending

/-- A step PENDING now was PENDING, or is the failed one. -/
theorem State.LeavesApart.pending {s u : State} {k j : Fin 64} (h : s.LeavesApart k u) {v : StepEval}
    (hv : u.ste.evals[j] = some v) (hp : v.state = .pending) : j = k ∨ ∃ w, s.ste.evals[j] = some w ∧ w.state = .pending := by
  by_cases hjk : j = k
  · exact .inl hjk
  · right
    by_contra hno
    have hnot : ∀ w, s.ste.evals[j] = some w → w.state ≠ .pending := fun w hw hpw => hno ⟨w, hw, hpw⟩
    have heq := h j (.of_started hjk hnot)
    exact hnot v (heq ▸ hv) hp

theorem Chain.skipOne {k : Fin 64} {s : State} {acc : State × List (Fin 64)} (h : Chain k s acc) (time : Nat) (j : Fin 64) :
    Chain k s (skipOne time acc j) := by
  unfold Sys2Proof.Machine.skipOne
  split
  · rename_i e v hj
    obtain ⟨he, hv, hp⟩ := (Ste.inState_iff _ _ _ _ _).1 hj
    split
    · rename_i a ha
      split
      · rename_i hmem
        have hothers := State.resolveStep_others acc.1 j e v .skipped time
        have hj' := h.apart.pending hv hp
        refine ⟨?_, fun i hi => ?_, fun b hb => ?_⟩
        · exact (State.resolveStep_stepFrame acc.1 j e v .skipped time).plan.trans h.plan
        · have hij : i ≠ j := fun hij => by
            subst hij
            rw [h.apart i hi] at hv
            rw [h.plan] at he
            obtain ⟨hak, hnot⟩ := hi.2 e v a he hv hp ha
            rcases h.chain a hmem with hk | ⟨w, hw, hpw⟩
            · exact hak hk
            · exact hnot w hw hpw
          exact (hothers i hij).trans (h.apart i hi)
        · rcases List.mem_cons.1 hb with rfl | hb
          · exact hj'
          · exact h.chain b hb
      · exact h
    · exact h
  · exact h

theorem State.skipChain_leavesApart (s : State) (k : Fin 64) (time : Nat) : s.LeavesApart k (s.skipChain k time) := by
  have key : ∀ (l : List (Fin 64)) (acc : State × List (Fin 64)), Chain k s acc → Chain k s (l.foldl (skipOne time) acc) :=
    fun l => by
      induction l with
      | nil => exact fun acc h => h
      | cons j l ih => exact fun acc h => ih _ (h.skipOne time j)
  exact (key _ (s, [k]) ⟨rfl, .refl k s, fun b hb => .inl (List.mem_singleton.1 hb)⟩).apart

/-! ## A resolution (R46) -/

/-- R44: the openings that follow a success leave the steps out of reach. -/
theorem State.openThen_leavesApart {s u : State} {k j : Fin 64} {e : StepEntry} {v : StepEval} (hu : s.LeavesApart k u)
    (hplan : u.ste.active = s.ste.active) (hj : u.ste.inState j .pending = some (e, v)) (hjk : ∀ i, s.Apart k i → i ≠ j)
    (anchor : Nat) {f : StepState → Nat → State → State}
    (hf : ∀ (st : StepState) (t : Nat) (w : State), w.LeavesApart j (f st t w)) :
    s.LeavesApart k (match u.openStep j e v anchor with
      | (s', some (st, t)) => f st t s'
      | (s', none) => s') := by
  obtain ⟨-, hv, hp⟩ := (Ste.inState_iff _ _ _ _ _).1 hj
  obtain ⟨w, hw⟩ := u.openStep_eq j e v anchor
  have hothers : State.OthersKept j u (u.openStep j e v anchor).1 := by
    rw [hw]
    exact u.setEval_others j w
  have hactive : (u.openStep j e v anchor).1.ste.active = s.ste.active := by
    rw [hw]
    exact hplan
  intro i hi
  have hij := hjk i hi
  have hone := (hothers i hij).trans (hu i hi)
  split
  · rename_i heq
    rw [heq] at hothers hactive hone
    exact (hf _ _ _ i (hi.transfer hu hactive hothers hij ⟨v, hv, hp⟩)).trans hone
  · rename_i heq
    rw [heq] at hone
    exact hone

/-- R46: a resolution with all that follows from it leaves the steps out of reach. -/
theorem State.resolve_leavesApart (n : Nat) (k : Fin 64) (st : StepState) (time : Nat) (s : State) :
    s.LeavesApart k (State.resolve n k st time s) := by
  induction n generalizing k st time s with
  | zero => exact .refl k s
  | succ n ih =>
    unfold State.resolve
    split
    · exact .refl k s
    · rename_i e v hk
      have hothers := State.resolveStep_others s k e v st time
      have hplan := (State.resolveStep_stepFrame s k e v st time).plan
      have hfirst : s.LeavesApart k (s.resolveStep k e v st time) := fun i hi => hothers i hi.1
      dsimp only
      split
      · generalize s.resolveStep k e v st time = u at hfirst hplan
        generalize List.finRange 64 = l
        induction l generalizing u with
        | nil => exact hfirst
        | cons j l ihl =>
          refine ihl _ ?_ ?_
          · beta_reduce
            split
            · rename_i e' v' hj
              split
              · rename_i ha
                refine State.openThen_leavesApart hfirst hplan hj (fun i hi hij => ?_) time fun st t w => ih j st t w
                subst hij
                obtain ⟨he', hv', hp'⟩ := (Ste.inState_iff _ _ _ _ _).1 hj
                rw [hfirst i hi] at hv'
                rw [hplan] at he'
                exact (hi.2 e' v' k he' hv' hp' ha).1 rfl
              · exact hfirst
            · exact hfirst
          · beta_reduce
            split
            · split
              · refine Eq.trans ?_ hplan
                exact (State.openThen_evaluated u j _ _ time fun st t w => State.resolve_evaluated n j st t w).frame.plan
              · exact hplan
            · exact hplan
      · intro i hi
        refine (State.skipChain_leavesApart _ k time i ?_).trans (hfirst i hi)
        refine ⟨hi.1, fun e' v' a he hv hp ha => ?_⟩
        rw [hplan] at he
        rw [hfirst i hi] at hv
        obtain ⟨hak, hnot⟩ := hi.2 e' v' a he hv hp ha
        exact ⟨hak, fun va hva => hnot va (by rw [← hfirst a (.of_started hak hnot)]; exact hva)⟩

end Sys2Proof.Machine

end


section
/-! PROOFS. What a resolution leaves of its own step (R23, R46, R48). -/

namespace Sys2Proof.Machine

/-- R46, R48: step `k`, its evaluation record `v` before, has resolved into `st` at `time`, and its STEP record waits. -/
def StepResolved (t : State) (k : Fin 64) (e : StepEntry) (v : StepEval) (st : StepState) (time : Nat) : Prop :=
  ∃ r, t.ste.evals[k] = some { v with state := st, resolution := some time, refused := r } ∧
    (st.success = false → r = v.refused) ∧
    (∃ w ∈ t.ts.input, w.record =
      ⟨time, .step k st e.label (if e.kind = .await then v.counted else 0) v.clipped v.lookback r⟩) ∧
    (e.required = true → st.failure = true → t.fu.flags.getLsbD 2 = true)

/-- R30: a resolution stays. -/
theorem StepResolved.later {t u : State} {k : Fin 64} {e : StepEntry} {v : StepEval} {st : StepState} {time : Nat}
    (h : StepResolved t k e v st time) (hst : st.terminal = true) (hkept : t.TerminalKept u) (hb : t.ts.input <+: u.ts.input)
    (hf : t.fu.Kept u.fu) : StepResolved u k e v st time := by
  obtain ⟨r, hv, hr, ⟨w, hw, hrec⟩, hflag⟩ := h
  exact ⟨r, hkept k _ hv hst, hr, ⟨w, hb.subset hw, hrec⟩, fun hreq hfail => hf 2 (hflag hreq hfail)⟩

theorem StepResolved.evaluated {t u : State} {k : Fin 64} {e : StepEntry} {v : StepEval} {st : StepState} {time : Nat}
    (h : StepResolved t k e v st time) (hst : st.terminal = true) (hkept : t.TerminalKept u) (he : Evaluated t u) :
    StepResolved u k e v st time := h.later hst hkept he.frame.behind he.flags

/-! ## The actions (R23) -/

/-- R23, R46: an action leaves of its own step's record all but the mark of a refused claim. -/
theorem State.act_own (s : State) {k : Fin 64} {w : StepEval} (h : s.ste.evals[k] = some w) (a : Action) :
    ∃ r, (State.act k s a).ste.evals[k] = some { w with refused := r } := by
  have same : ∀ t : State, t.ste.evals = s.ste.evals → ∃ r, t.ste.evals[k] = some { w with refused := r } :=
    fun t ht => ⟨w.refused, by rw [ht, h]⟩
  cases a with
  | drive c op =>
    unfold State.act
    dsimp only
    rcases s.stepClaim_cases c op with ⟨-, -, -, hc⟩ | ⟨-, hc⟩ <;> rw [hc]
    · refine ⟨true, ?_⟩
      have hraise : (s.raise .driveBlock).ste.evals[k] = some w := h
      show (State.setRefused _ k).ste.evals[k] = _
      unfold State.setRefused
      rw [hraise]
      exact (State.setEval_get _ k k _).trans (if_pos rfl)
    · refine same _ ?_
      show (s.driveOperate c op .step).ste.evals = _
      rw [State.driveOperate_eq]
      rfl
  | scan n => exact same _ (by show (s.submitStep n).ste.evals = _; rw [(s.submitStep_frame n).eq])
  | mark code => exact same _ (by show (State.hand _ _ _).ste.evals = _; rw [State.hand_ste])
  | trigger => exact same _ (by show (s.fireTrigger _).ste.evals = _; rw [State.fireTrigger_eq])
  | endRun => exact same _ rfl

theorem State.acts_own (s : State) {k : Fin 64} {w : StepEval} (h : s.ste.evals[k] = some w) (l : List Action) :
    ∃ r, (l.foldl (State.act k) s).ste.evals[k] = some { w with refused := r } := by
  induction l generalizing s w with
  | nil => exact ⟨w.refused, h⟩
  | cons a l ih =>
    obtain ⟨r, hr⟩ := s.act_own h a
    exact ih (State.act k s a) (w := { w with refused := r }) hr

/-- R46: the record of a resolving step when its actions are done. -/
theorem State.acted_own (s : State) (k : Fin 64) (e : StepEntry) (v : StepEval) (st : StepState) (time : Nat) :
    ∃ r, (s.acted k e v st time).ste.evals[k] = some { v with state := st, resolution := some time, refused := r } ∧
      (st.success = false → r = v.refused) := by
  have h : (s.resolving k e v st time).ste.evals[k] = some { v with state := st, resolution := some time } :=
    Vector.getElem_set_self k.isLt
  unfold State.acted
  cases hst : st.success with
  | true =>
    obtain ⟨r, hr⟩ := State.acts_own _ h e.actions
    exact ⟨r, hr, fun hf => absurd hf Bool.true_eq_false.mp⟩
  | false => exact ⟨v.refused, h, fun _ => rfl⟩

/-- R48: the resolution of a step, its actions done and its record at the TS. -/
theorem State.resolveStep_acted (s : State) {k : Fin 64} {e : StepEntry} {v : StepEval} {st : StepState} {time : Nat} {r : Bool}
    (h : (s.acted k e v st time).ste.evals[k] = some { v with state := st, resolution := some time, refused := r }) :
    s.resolveStep k e v st time = ((s.acted k e v st time).hand .run
      ⟨time, .step k st e.label (if e.kind = .await then v.counted else 0) v.clipped v.lookback r⟩).raiseIf
      (e.required && st.failure) .stepFail := by
  rw [State.resolveStep_eq, h]
  rfl

theorem State.resolveStep_resolved (s : State) {k : Fin 64} {e : StepEntry} (hl : s.live = true) (hk : s.ste.active[k] = some e)
    (v : StepEval) (st : StepState) (time : Nat) : StepResolved (s.resolveStep k e v st time) k e v st time := by
  obtain ⟨r, hr, hsame⟩ := s.acted_own k e v st time
  have hlive : (s.acted k e v st time).live = true := (s.acted_evaluated hk v st time).frame.live.trans hl
  rw [State.resolveStep_acted s hr]
  refine ⟨r, ?_, hsame, ?_, fun hreq hfail => ?_⟩
  · rw [State.raiseIf_ste, State.hand_ste, hr]
  · refine ⟨(s.acted k e v st time).arriving .run
      ⟨time, .step k st e.label (if e.kind = .await then v.counted else 0) v.clipped v.lookback r⟩, ?_, rfl⟩
    rw [State.raiseIf_ts, State.hand_of_live _ _ hlive]
    exact List.mem_append_right _ (List.mem_singleton_self _)
  · rw [hreq, hfail]
    exact Fu.raise_sets _ .stepFail

/-! ## What follows from a resolution (R44 to R46) -/

/-- R46: what follows from a resolution keeps it. -/
theorem State.resolve_follows {s : State} (n : Nat) {k : Fin 64} {e : StepEntry} {v : StepEval}
    (hi : s.ste.inState k .opened = some (e, v)) (st : StepState) (time : Nat) :
    Evaluated (s.resolveStep k e v st time) (State.resolve (n + 1) k st time s) ∧
      (s.resolveStep k e v st time).TerminalKept (State.resolve (n + 1) k st time s) := by
  unfold State.resolve
  rw [hi]
  dsimp only
  split
  · refine ⟨Evaluated.foldl (fun u j => ?_) _ _, State.TerminalKept.foldl (fun u j => ?_) _ _⟩
    · split
      · split
        · exact u.openThen_evaluated j _ _ time fun st t u => State.resolve_evaluated n j st t u
        · exact .refl u
      · exact .refl u
    · split
      · rename_i hj
        split
        · exact u.openThen_terminalKept hj time (State.resolve n j) fun st t u => State.resolve_terminalKept n j st t u
        · exact .refl u
      · exact .refl u
  · exact ⟨State.skipChain_evaluated _ _ _, State.skipChain_terminalKept _ _ _⟩

/-- R46: a resolution with all that follows from it. -/
theorem State.resolve_resolved {s : State} (n : Nat) {k : Fin 64} {e : StepEntry} {v : StepEval}
    (hi : s.ste.inState k .opened = some (e, v)) (hl : s.live = true) {st : StepState} (hst : st.terminal = true) (time : Nat) :
    StepResolved (State.resolve (n + 1) k st time s) k e v st time := by
  obtain ⟨hev, hkept⟩ := State.resolve_follows n hi st time
  exact (s.resolveStep_resolved hl ((Ste.inState_iff _ _ _ _ _).1 hi).1 v st time).evaluated hst hkept hev

/-! ## The outcomes of an OPEN step -/

/-- R30: the states that an OPEN step resolves into by its own window. -/
def StepState.outcome (st : StepState) : Prop :=
  st = .early ∨ st = .matched ∨ st = .violated ∨ st = .missed ∨ st = .held ∨ st = .failed

theorem StepState.outcome.terminal {st : StepState} (h : st.outcome) : st.terminal = true := by
  rcases h with rfl | rfl | rfl | rfl | rfl | rfl <;> rfl

theorem StepState.outcome.not_skipped {st : StepState} (h : st.outcome) : st ≠ .skipped := by
  rcases h with rfl | rfl | rfl | rfl | rfl | rfl <;> decide

theorem StepState.not_pending_of_terminal {st : StepState} (h : st.terminal = true) : st ≠ .pending := fun e => by
  rw [e] at h
  cases h

/-- R38, R39, R40: an event judged leaves the state of the step, or resolves it. -/
theorem StepEntry.judge_outcome (e : StepEntry) (v : StepEval) (t : Nat) : (e.judge v t).1.state = v.state ∧
    (e.judge v t).1.anchorTime = v.anchorTime ∧ ∀ st, (e.judge v t).2 = some st → st.outcome := by
  unfold StepEntry.judge
  dsimp only
  cases e.kind with
  | await =>
    dsimp only
    split
    · refine ⟨rfl, rfl, fun st hst => ?_⟩
      split at hst <;> cases hst
      exact .inl rfl
    · split
      · refine ⟨rfl, rfl, fun st hst => ?_⟩
        split at hst <;> cases hst
        exact .inr (.inl rfl)
      · exact ⟨rfl, rfl, fun st hst => by cases hst⟩
  | guard =>
    refine ⟨rfl, rfl, fun st hst => ?_⟩
    dsimp only at hst
    split at hst <;> cases hst
    exact .inr (.inr (.inl rfl))
  | check => exact ⟨rfl, rfl, fun st hst => by cases hst⟩

theorem StepEntry.replay_outcome (e : StepEntry) (anchor : Nat) (l : List Event) (v : StepEval) :
    (e.replay anchor l v).1.state = v.state ∧ (e.replay anchor l v).1.anchorTime = v.anchorTime ∧
      ∀ st t, (e.replay anchor l v).2 = some (st, t) → st.outcome := by
  induction l generalizing v with
  | nil => exact ⟨rfl, rfl, fun _ _ h => by cases h⟩
  | cons x l ih =>
    unfold StepEntry.replay
    split
    · obtain ⟨hstate, hanchor, hout⟩ := e.judge_outcome v x.time
      split
      · rename_i v' st heq
        rw [heq] at hstate hanchor hout
        exact ⟨hstate, hanchor, fun st' t h => by cases h; exact hout st rfl⟩
      · rename_i v' heq
        rw [heq] at hstate hanchor
        obtain ⟨h1, h2, h3⟩ := ih v'
        exact ⟨h1.trans hstate, h2.trans hanchor, h3⟩
    · exact ih v

theorem State.verdictOf_outcome (s : State) (e : StepEntry) (v : StepEval) : (s.verdictOf e v).1.outcome := by
  unfold State.verdictOf
  cases e.kind with
  | await => exact .inr (.inr (.inr (.inl rfl)))
  | guard => exact .inr (.inr (.inr (.inr (.inl rfl))))
  | check =>
    dsimp only
    split
    · exact .inr (.inl rfl)
    · exact .inr (.inr (.inr (.inr (.inr rfl))))

/-- R41: the mark LOOKBACK is all that a decision changes. -/
theorem State.decideEval_eq (s : State) (e : StepEntry) (v : StepEval) : s.decideEval e v = { v with
    lookback := v.lookback || (decide (e.kind = .check) && s.ste.evictionMark.any fun m => decide (v.lo.getD 0 < m)) } := by
  unfold State.decideEval
  by_cases h : e.kind = .check ∧ (s.ste.evictionMark.any fun m => decide (v.lo.getD 0 < m)) = true
  · rw [if_pos h, decide_eq_true h.1, h.2, Bool.and_true, Bool.or_true]
  · rw [if_neg h]
    have : (decide (e.kind = .check) && s.ste.evictionMark.any fun m => decide (v.lo.getD 0 < m)) = false := by
      simpa using h
    rw [this, Bool.or_false]

/-- R43: a step that opens is OPEN, and resolves at once into an outcome if at all. -/
theorem State.openStep_outcome (s : State) (j : Fin 64) (e : StepEntry) (v : StepEval) (anchor : Nat) :
    ∃ w, (s.openStep j e v anchor).1 = s.setEval j w ∧ w.state = .opened ∧ w.anchorTime = some anchor ∧
      ∀ st t, (s.openStep j e v anchor).2 = some (st, t) → st.outcome := by
  have hopen : (s.openEval e anchor v).state = .opened ∧ (s.openEval e anchor v).anchorTime = some anchor := by
    unfold State.openEval
    dsimp only
    split <;> exact ⟨rfl, rfl⟩
  obtain ⟨hrstate, hranchor, hrout⟩ := e.replay_outcome anchor s.ste.lookback (s.openEval e anchor v)
  have hpair : ∀ p : StepEval × Option (StepState × Nat), p = (if e.kind = .check then (s.openEval e anchor v, none)
      else e.replay anchor s.ste.lookback (s.openEval e anchor v)) → p.1.state = .opened ∧ p.1.anchorTime = some anchor ∧
      ∀ st t, p.2 = some (st, t) → st.outcome := by
    rintro p rfl
    split
    · exact ⟨hopen.1, hopen.2, fun _ _ h => by cases h⟩
    · exact ⟨hrstate.trans hopen.1, hranchor.trans hopen.2, hrout⟩
  unfold State.openStep
  dsimp only
  generalize hp : (if e.kind = .check then (s.openEval e anchor v, none)
      else e.replay anchor s.ste.lookback (s.openEval e anchor v)) = p
  obtain ⟨hstate, hanchor, hout⟩ := hpair p hp.symm
  split
  · rename_i res heq
    exact ⟨_, rfl, hstate, hanchor, fun st t h => by cases h; exact hout st t heq⟩
  · split
    · refine ⟨_, rfl, ?_, ?_, fun st t h => ?_⟩
      · rw [State.decideEval_eq]
        exact hstate
      · rw [State.decideEval_eq]
        exact hanchor
      · have hv := s.verdictOf_outcome e p.1
        have hpair : s.verdictOf e p.1 = (st, t) := Option.some.inj h
        rw [hpair] at hv
        exact hv
    · exact ⟨_, rfl, hstate, hanchor, fun _ _ h => by cases h⟩

end Sys2Proof.Machine

end


section
/-! PROOFS. A pass taken step by step (R32, R37, R44): each step has its turn, and a turn leaves the steps out of its reach. -/

namespace Sys2Proof.Machine

/-! ## The turn of a step that may open (R43, R44) -/

/-- R43, R44: the turn of step `j` among the steps opened at an anchor: where it is PENDING on the anchor it opens, with what
follows from it. -/
def openAt (a : Anchor) (anchor n : Nat) (s : State) (j : Fin 64) : State :=
  match s.ste.inState j .pending with
  | some (e, v) =>
    if e.anchor = a then
      match s.openStep j e v anchor with
      | (s', some (st, t)) => State.resolve n j st t s'
      | (s', none) => s'
    else s
  | none => s

theorem State.openStarts_turns (s : State) (anchor : Nat) :
    s.openStarts anchor = (List.finRange 64).foldl (openAt .start anchor chainDepth) s := rfl

/-- R46: a resolution with all that follows from it. -/
theorem State.resolve_turns {s : State} (n : Nat) {k : Fin 64} {e : StepEntry} {v : StepEval}
    (hi : s.ste.inState k .opened = some (e, v)) (st : StepState) (time : Nat) :
    State.resolve (n + 1) k st time s = if st.success then
      (List.finRange 64).foldl (openAt (.step k) time n) (s.resolveStep k e v st time)
      else (s.resolveStep k e v st time).skipChain k time := by
  show (match s.ste.inState k .opened with
    | none => s
    | some (e, v) => if st.success then
        (List.finRange 64).foldl (openAt (.step k) time n) (s.resolveStep k e v st time)
        else (s.resolveStep k e v st time).skipChain k time) = _
  rw [hi]

theorem openAt_evaluated (a : Anchor) (anchor n : Nat) (s : State) (j : Fin 64) : Evaluated s (openAt a anchor n s j) := by
  unfold openAt
  split
  · split
    · exact s.openThen_evaluated j _ _ anchor fun st t u => State.resolve_evaluated n j st t u
    · exact .refl s
  · exact .refl s

theorem openAt_leavesApart (a : Anchor) (anchor n : Nat) (s : State) (j : Fin 64) :
    s.LeavesApart j (openAt a anchor n s j) := by
  unfold openAt
  split
  · rename_i hj
    split
    · exact State.openThen_leavesApart (.refl j s) rfl hj (fun i hi => hi.1) anchor fun st t w =>
        State.resolve_leavesApart n j st t w
    · exact .refl j s
  · exact .refl j s

/-- A step not PENDING is left as it is by every turn. -/
theorem openAt_started (a : Anchor) (anchor n : Nat) {s : State} {i : Fin 64}
    (h : ∀ v, s.ste.evals[i] = some v → v.state ≠ .pending) (j : Fin 64) :
    (openAt a anchor n s j).ste.evals[i] = s.ste.evals[i] := by
  by_cases hij : i = j
  · subst hij
    unfold openAt
    split
    · rename_i hi
      obtain ⟨-, hv, hp⟩ := (Ste.inState_iff _ _ _ _ _).1 hi
      exact absurd hp (h _ hv)
    · rfl
  · exact openAt_leavesApart a anchor n s j i (.of_started hij h)

theorem State.turns_started (a : Anchor) (anchor n : Nat) {s : State} {i : Fin 64}
    (h : ∀ v, s.ste.evals[i] = some v → v.state ≠ .pending) (l : List (Fin 64)) :
    (l.foldl (openAt a anchor n) s).ste.evals[i] = s.ste.evals[i] := by
  induction l generalizing s with
  | nil => rfl
  | cons j l ih =>
    have hone := openAt_started a anchor n h j
    exact (ih (s := openAt a anchor n s j) fun v hv => h v (hone ▸ hv)).trans hone

/-! ## Steps out of reach of every turn -/

/-- The records kept keep a step out of reach of the turns to come. -/
theorem State.Apart.after {s u : State} {k j i : Fin 64} (h : s.Apart j i) (hk : s.Apart k i) (hu : s.LeavesApart k u)
    (hplan : u.ste.active = s.ste.active) : u.Apart j i := by
  refine ⟨h.1, fun e v a he hv hp ha => ?_⟩
  rw [hplan] at he
  rw [hu i hk] at hv
  obtain ⟨haj, -⟩ := h.2 e v a he hv hp ha
  obtain ⟨hak, hnot⟩ := hk.2 e v a he hv hp ha
  exact ⟨haj, fun va hva => hnot va (by rw [← hu a (.of_started hak hnot)]; exact hva)⟩

/-- A step out of reach of every turn keeps its record. -/
theorem State.turns_leaveApart {f : State → Fin 64 → State} (hf : ∀ u k, State.LeavesApart k u (f u k))
    (he : ∀ u k, Evaluated u (f u k)) (s : State) {i : Fin 64} (l : List (Fin 64)) (h : ∀ k ∈ l, s.Apart k i) :
    (l.foldl f s).ste.evals[i] = s.ste.evals[i] := by
  induction l generalizing s with
  | nil => rfl
  | cons k l ih =>
    have hk := h k List.mem_cons_self
    have hone := hf s k i hk
    refine (ih (f s k) fun j hj => ?_).trans hone
    exact (h j (List.mem_cons_of_mem _ hj)).after hk (hf s k) (he s k).frame.plan

/-- The turns before and after a step's own. -/
theorem nodup_split {j : Fin 64} {l : List (Fin 64)} (hn : l.Nodup) (hj : j ∈ l) :
    ∃ pre post, l = pre ++ j :: post ∧ j ∉ pre ∧ j ∉ post := by
  obtain ⟨pre, post, h⟩ := List.append_of_mem hj
  rw [h, List.nodup_middle, List.nodup_cons, List.mem_append, not_or] at hn
  exact ⟨pre, post, h, hn.1.1, hn.1.2⟩

theorem finRange_split (j : Fin 64) : ∃ pre post, List.finRange 64 = pre ++ j :: post ∧ j ∉ pre ∧ j ∉ post :=
  nodup_split (List.nodup_finRange 64) (List.mem_finRange j)

/-! ## What a turn leaves of its own step -/

/-- R43, R46: step `j` has opened with record `w`, and resolved at once as `r` says. -/
def OpenedWith (t : State) (j : Fin 64) (w : StepEval) (r : Option (StepState × Nat)) : Prop :=
  ∃ u, t.ste.evals[j] = some u ∧ u.state ≠ .pending ∧ (r = none → u = w) ∧ ∀ st time, r = some (st, time) →
    ∃ refused, u = { w with state := st, resolution := some time, refused } ∧ (st.success = false → refused = w.refused)

theorem OpenedWith.of_evals {t u : State} {j : Fin 64} {w : StepEval} {r : Option (StepState × Nat)} (h : OpenedWith t j w r)
    (he : u.ste.evals[j] = t.ste.evals[j]) : OpenedWith u j w r := by
  obtain ⟨v, hv, hrest⟩ := h
  exact ⟨v, he.trans hv, hrest⟩

theorem OpenedWith.started {t : State} {j : Fin 64} {w : StepEval} {r : Option (StepState × Nat)} (h : OpenedWith t j w r) :
    ∀ v, t.ste.evals[j] = some v → v.state ≠ .pending := by
  obtain ⟨u, hu, hp, -⟩ := h
  intro v hv
  cases hu.symm.trans hv
  exact hp

theorem openAt_own {s : State} {a : Anchor} (anchor n : Nat) {j : Fin 64} {e : StepEntry} {v : StepEval}
    (hi : s.ste.inState j .pending = some (e, v)) (ha : e.anchor = a) (hl : s.live = true) :
    ∃ w, (s.openStep j e v anchor).1 = s.setEval j w ∧
      OpenedWith (openAt a anchor (n + 1) s j) j w (s.openStep j e v anchor).2 := by
  obtain ⟨w, hw, hstate, -, hout⟩ := s.openStep_outcome j e v anchor
  have hget : (s.setEval j w).ste.evals[j] = some w := (State.setEval_get s j j w).trans (if_pos rfl)
  have hactive := ((Ste.inState_iff _ _ _ _ _).1 hi).1
  refine ⟨w, hw, ?_⟩
  unfold openAt
  rw [hi]
  dsimp only
  rw [if_pos ha]
  generalize s.openStep j e v anchor = p at hw hout
  obtain ⟨s', r⟩ := p
  have hs : s' = s.setEval j w := hw
  subst hs
  cases r with
  | none => exact ⟨w, hget, by rw [hstate]; decide, fun _ => rfl, fun _ _ h => by cases h⟩
  | some p =>
    obtain ⟨st, time⟩ := p
    have hterm := (hout st time rfl).terminal
    obtain ⟨r, hr, hsame, -⟩ := State.resolve_resolved n
      ((Ste.inState_iff (s.setEval j w).ste j .opened e w).2 ⟨hactive, hget, hstate⟩) hl hterm time
    refine ⟨_, hr, StepState.not_pending_of_terminal hterm, fun h => ?_, fun st' t' h => ?_⟩
    · cases h
    · cases h
      exact ⟨r, rfl, hsame⟩

/-- R44: a PENDING step waits through the turns of the steps it is out of reach of, and of those not PENDING. -/
theorem State.turns_wait {s : State} (a : Anchor) (anchor n : Nat) {j : Fin 64} {l : List (Fin 64)}
    (h : ∀ k ∈ l, s.Apart k j ∨ ∀ w, s.ste.evals[k] = some w → w.state ≠ .pending) :
    (l.foldl (openAt a anchor n) s).ste.evals[j] = s.ste.evals[j] := by
  induction l generalizing s with
  | nil => rfl
  | cons k l ih =>
    have hleaves := openAt_leavesApart a anchor n s k
    have hplan := (openAt_evaluated a anchor n s k).frame.plan
    rcases h k List.mem_cons_self with hk | hk
    · refine (ih (s := openAt a anchor n s k) fun i hi => ?_).trans (hleaves j hk)
      rcases h i (List.mem_cons_of_mem _ hi) with hi | hi
      · exact .inl (hi.after hk hleaves hplan)
      · exact .inr fun w hw => hi w (openAt_started a anchor n hi k ▸ hw)
    · have hsame : openAt a anchor n s k = s := by
        unfold openAt
        split
        · rename_i hp
          obtain ⟨-, hw, hp⟩ := (Ste.inState_iff _ _ _ _ _).1 hp
          exact absurd hp (hk _ hw)
        · rfl
      rw [List.foldl_cons, hsame]
      exact ih fun i hi => h i (List.mem_cons_of_mem _ hi)

/-- R44: of the steps that a pass opens at one anchor, each opens in its turn. -/
theorem State.turns_open {s : State} {a : Anchor} (anchor n : Nat) {j : Fin 64} {e : StepEntry} {v : StepEval}
    (hi : s.ste.inState j .pending = some (e, v)) (ha : e.anchor = a) (hl : s.live = true)
    (hapart : ∀ k, k ≠ j → s.Apart k j ∨ ∀ w, s.ste.evals[k] = some w → w.state ≠ .pending) : ∃ u w, StepFrame s u ∧
      (u.openStep j e v anchor).1 = u.setEval j w ∧
      OpenedWith ((List.finRange 64).foldl (openAt a anchor (n + 1)) s) j w (u.openStep j e v anchor).2 := by
  obtain ⟨pre, post, hsplit, hpre, hpost⟩ := finRange_split j
  obtain ⟨he, hv, hp⟩ := (Ste.inState_iff _ _ _ _ _).1 hi
  rw [hsplit, List.foldl_append, List.foldl_cons]
  have hframe := Evaluated.foldl (openAt_evaluated a anchor (n + 1)) s pre
  have hkept := State.turns_wait (s := s) a anchor (n + 1) (l := pre) fun k hk => hapart k fun e => hpre (e ▸ hk)
  generalize pre.foldl (openAt a anchor (n + 1)) s = u at hframe hkept
  have hiu : u.ste.inState j .pending = some (e, v) :=
    (Ste.inState_iff _ _ _ _ _).2 ⟨by rw [hframe.frame.plan]; exact he, hkept.trans hv, hp⟩
  obtain ⟨w, hw, hown⟩ := openAt_own anchor n hiu ha (hframe.frame.live.trans hl)
  refine ⟨u, w, hframe.frame, hw, hown.of_evals ?_⟩
  exact State.turns_leaveApart (openAt_leavesApart a anchor (n + 1)) (openAt_evaluated a anchor (n + 1)) _ post
    fun k hk => .of_started (fun e => hpost (e ▸ hk)) hown.started

/-! ## The work at start (R10) -/

/-- R10: the state in which the steps anchored to START open. -/
def State.beginning (s : State) (time : Nat) : State :=
  ((s.setRc (s.rc.started time)).hand .run ⟨time, .runStarted s.rc.active.source⟩).raise .runStart

theorem State.beginning_active {s w : State} {time : Nat} (h : StepFrame (s.beginning time) w) :
    w.closePass.rc.active = s.rc.active := by
  rw [State.closePass_eq]
  dsimp only
  rw [h.rc]
  unfold State.beginning
  rw [State.hand_eq]
  rfl

theorem State.startRun_eq (s : State) (time : Nat) : s.startRun time = (if s.rc.active.fromTrigger
    then (((s.beginning time).openStarts time).closePass).fireTrigger .start else
      ((s.beginning time).openStarts time).closePass) := by
  rw [← State.beginning_active ((s.beginning time).openStarts_stepFrame time)]
  unfold State.startRun State.beginning
  dsimp only
  rw [show (s.setRc (s.rc.started time)).rc.active = s.rc.active from rfl]

/-- R10, R63: the trigger at a start, by the step's TRIGGER actions and the option to fire it from the start. -/
structure FiresAtStart (s t : State) : Prop where
  fires : s.rc.active.fromTrigger = true → s.ts.active.mode = .window → s.ts.fired = false → t.ts.fired = true ∧
    ∃ w ∈ t.ts.input, ∃ src, w.record = ⟨s.rc.timeBase, .trig src⟩ ∧
      (src = .start ∨ ∃ k e, src = .step k ∧ s.ste.active[k] = some e ∧ .trigger ∈ e.actions)
  stays : s.rc.active.fromTrigger = false ∨ s.ts.active.mode ≠ .window ∨ s.ts.fired = true →
    (∀ (k : Fin 64) (e : StepEntry), s.ste.active[k] = some e → .trigger ∉ e.actions) → t.ts.fired = s.ts.fired

/-- R10: what the work at start does to the run, its records, its trigger and the steps anchored to START. -/
structure RunStarts (s t : State) (time : Nat) : Prop where
  runState : t.rc.runState = .running
  startTime : t.rc.startTime = some time
  limitTime : t.rc.limitTime = some (time + s.rc.active.limit * 100000)
  timeBase : t.rc.timeBase = s.rc.timeBase
  flag : t.fu.flags.getLsbD 0 = true
  mp : t.mp = s.mp
  pass : t.ste.pass = ⟨false, false, false⟩
  record : ∃ w ∈ t.ts.input, w.record = ⟨time, .runStarted s.rc.active.source⟩
  opens : ∀ (k : Fin 64) (e : StepEntry) (v : StepEval), s.ste.active[k] = some e → e.anchor = .start →
    t.ste.evals[k] = some v → v.state ≠ .pending
  plan : t.ste.active = s.ste.active
  lookback : t.ste.lookback = s.ste.lookback
  evictionMark : t.ste.evictionMark = s.ste.evictionMark
  trigger : FiresAtStart s t

theorem State.beginning_eq (s : State) (time : Nat) : s.beginning time = { s with
    rc := s.rc.started time, fu := (s.beginning time).fu, ts := { s.ts with input := (s.beginning time).ts.input } } := by
  unfold State.beginning
  rw [State.hand_eq]
  rfl

theorem State.beginning_rc (s : State) (time : Nat) : (s.beginning time).rc = s.rc.started time := by
  rw [State.beginning_eq]

theorem State.beginning_ste (s : State) (time : Nat) : (s.beginning time).ste = s.ste := by
  rw [State.beginning_eq]

theorem State.beginning_live (s : State) (time : Nat) : (s.beginning time).live = true := by
  unfold State.live
  rw [State.beginning_rc]
  rfl

/-- R10, R52: the RUN STARTED record waits. -/
theorem State.beginning_record (s : State) (time : Nat) :
    ∃ w ∈ (s.beginning time).ts.input, w.record = ⟨time, .runStarted s.rc.active.source⟩ := by
  unfold State.beginning
  rw [State.hand_of_live _ _ rfl]
  exact ⟨_, List.mem_append_right _ (List.mem_singleton_self _), rfl⟩

/-- R10: no step anchored to START stays PENDING. -/
theorem State.openStarts_opens (s : State) (hl : s.live = true) (anchor : Nat) {k : Fin 64} {e : StepEntry}
    (he : s.ste.active[k] = some e) (ha : e.anchor = .start) :
    ∀ v, (s.openStarts anchor).ste.evals[k] = some v → v.state ≠ .pending := by
  rw [State.openStarts_turns]
  by_cases h : ∃ v, s.ste.evals[k] = some v ∧ v.state = .pending
  · obtain ⟨v, hv, hp⟩ := h
    rw [show chainDepth = 64 + 1 from rfl]
    obtain ⟨_, w, -, -, hown⟩ := State.turns_open anchor 64 ((Ste.inState_iff _ _ _ _ _).2 ⟨he, hv, hp⟩) ha hl
      fun i hi => .inl (.of_start (Ne.symm hi) he ha)
    exact hown.started
  · have hnot : ∀ v, s.ste.evals[k] = some v → v.state ≠ .pending := fun v hv hp => h ⟨v, hv, hp⟩
    rw [State.turns_started .start anchor chainDepth hnot]
    exact hnot

/-- R63: the trigger where it takes effect. -/
theorem State.fireTrigger_fires {s : State} (hm : s.ts.active.mode = .window) (hl : s.live = true) (hf : s.ts.fired = false)
    (src : TrigSource) : (s.fireTrigger src).ts.fired = true ∧
      ∃ w ∈ (s.fireTrigger src).ts.input, w.record = ⟨s.rc.timeBase, .trig src⟩ := by
  unfold State.fireTrigger
  rw [if_pos (s.triggerTakes_iff.2 ⟨hm, hl, hf⟩)]
  exact ⟨rfl, _, List.mem_append_right _ (List.mem_singleton_self _), rfl⟩

/-- R63: the trigger where it takes none. -/
theorem State.fireTrigger_stays {s : State} (h : s.ts.active.mode ≠ .window ∨ s.ts.fired = true) (src : TrigSource) :
    s.fireTrigger src = s := by
  unfold State.fireTrigger
  refine if_neg fun ht => ?_
  obtain ⟨hm, -, hf⟩ := s.triggerTakes_iff.1 ht
  rcases h with h | h
  · exact h hm
  · rw [hf] at h
    cases h

/-- R10: the work at start, its openings done. -/
theorem RunStarts.of_opened {s u t : State} {time : Nat} (hu : StepFrame (s.beginning time) u)
    (hopens : ∀ (k : Fin 64) (e : StepEntry) (v : StepEval), s.ste.active[k] = some e → e.anchor = .start →
      u.ste.evals[k] = some v → v.state ≠ .pending) (h : StepFrame u.closePass t) (hste : t.ste = u.closePass.ste)
    (hflags : (s.beginning time).fu.Kept t.fu) (trigger : FiresAtStart s t) : RunStarts s t time := by
  obtain ⟨w, hw, hrec⟩ := s.beginning_record time
  have hrc := hu.rc
  have hmp : (s.beginning time).mp = s.mp := by rw [State.beginning_eq]
  rw [State.closePass_eq] at h hste
  refine ⟨?_, ?_, ?_, ?_, hflags 0 (Fu.raise_sets _ .runStart), h.mp.trans (hu.mp.trans hmp), ?_,
    ⟨w, (hu.behind.trans h.behind).subset hw, hrec⟩, fun k e v he ha hv => ?_, ?_, ?_, ?_,
    trigger⟩
  · rw [h.rc, hrc, State.beginning_rc]; rfl
  · rw [h.rc, hrc, State.beginning_rc]; rfl
  · rw [h.rc, hrc, State.beginning_rc]; rfl
  · rw [h.rc, hrc, State.beginning_rc]; rfl
  · rw [hste]; rfl
  · rw [hste] at hv
    exact hopens k e v he ha hv
  · rw [hste]
    exact hu.plan.trans (by rw [State.beginning_ste])
  · rw [hste]
    exact hu.lookback.trans (by rw [State.beginning_ste])
  · rw [hste]
    exact hu.evictionMark.trans (by rw [State.beginning_ste])

/-- R10, R63: the trigger once the steps anchored to START have opened. -/
theorem FiresAtStart.of_evaluated {s u : State} {time : Nat} (hu : Evaluated (s.beginning time) u) :
    FiresAtStart s (if s.rc.active.fromTrigger then u.closePass.fireTrigger .start else u.closePass) := by
  have hmode : u.ts.active = s.ts.active := by rw [hu.frame.eq, State.beginning_eq]
  have hfired : (s.beginning time).ts.fired = s.ts.fired := by rw [State.beginning_eq]
  have hlive : u.closePass.live = true := hu.frame.live.trans (s.beginning_live time)
  have htime : u.closePass.rc.timeBase = s.rc.timeBase := by
    rw [State.closePass_eq]
    dsimp only
    rw [hu.frame.rc, State.beginning_rc]
    rfl
  have hplan : ∀ w ∈ u.ts.input, ∀ (k : Fin 64) (e : StepEntry),
      w.record = ⟨(s.beginning time).rc.timeBase, .trig (.step k)⟩ → (s.beginning time).ste.active[k] = some e →
      .trigger ∈ e.actions → ∃ w ∈ u.ts.input, ∃ src, w.record = ⟨s.rc.timeBase, .trig src⟩ ∧
      (src = .start ∨ ∃ k e, src = .step k ∧ s.ste.active[k] = some e ∧ .trigger ∈ e.actions) :=
    fun w hw k e hrec hk ha => ⟨w, hw, .step k, by rw [hrec, State.beginning_rc]; rfl,
      .inr ⟨k, e, rfl, by rw [← State.beginning_ste s time]; exact hk, ha⟩⟩
  have hnone : (∀ (k : Fin 64) (e : StepEntry), s.ste.active[k] = some e → .trigger ∉ e.actions) → u.ts.fired = s.ts.fired :=
    fun hno => by
      rcases hu.trigger with h | ⟨-, w, hw, k, e, -, hk, ha⟩
      · exact h.trans hfired
      · rw [State.beginning_ste] at hk
        exact absurd ha (hno k e hk)
  constructor
  · intro hfrom hm hf
    rw [if_pos hfrom]
    rcases hu.trigger with h | ⟨h, w, hw, k, e, hrec, hk, ha⟩
    · obtain ⟨h1, w, hw, hrec⟩ := State.fireTrigger_fires (s := u.closePass) (hmode ▸ hm) hlive
          ((h.trans hfired).trans hf) .start
      exact ⟨h1, w, hw, .start, htime ▸ hrec, .inl rfl⟩
    · rw [State.fireTrigger_stays (s := u.closePass) (.inr h)]
      exact ⟨h, hplan w hw k e hrec hk ha⟩
  · intro hor hno
    split
    · rename_i hfrom
      have hor' : u.closePass.ts.active.mode ≠ .window ∨ u.closePass.ts.fired = true := by
        rcases hor with h | h | h
        · rw [h] at hfrom
          cases hfrom
        · exact .inl (hmode ▸ h)
        · exact .inr ((hnone hno).trans h)
      rw [State.fireTrigger_stays hor']
      exact hnone hno
    · exact hnone hno

/-- R10: the whole work at start. -/
theorem State.startRun_starts (s : State) (time : Nat) : RunStarts s (s.startRun time) time := by
  have hev : Evaluated (s.beginning time) ((s.beginning time).openStarts time) := State.openStarts_evaluated _ time
  have hopens : ∀ (k : Fin 64) (e : StepEntry) (v : StepEval), s.ste.active[k] = some e → e.anchor = .start →
      ((s.beginning time).openStarts time).ste.evals[k] = some v → v.state ≠ .pending := fun k e v he ha =>
    State.openStarts_opens _ (s.beginning_live time) time (by rw [State.beginning_ste]; exact he) ha v
  rw [State.startRun_eq]
  generalize (s.beginning time).openStarts time = u at hev hopens
  have htrigger := FiresAtStart.of_evaluated hev
  split at htrigger
  · rename_i hfrom
    rw [if_pos hfrom]
    refine .of_opened hev.frame hopens (State.fireTrigger_stepFrame _ _) ?_ ?_ htrigger
    · rw [State.fireTrigger_eq]
    · rw [State.fireTrigger_eq]
      exact hev.flags
  · rename_i hfrom
    rw [if_neg hfrom]
    exact .of_opened hev.frame hopens (.refl _) rfl hev.flags htrigger

end Sys2Proof.Machine

end


section
/-! PROOFS. START (R8, R10) and EVENT_DELIVERY (R9, R32, R33). -/

namespace Sys2Proof.Machine

theorem State.mayStart_iff (s : State) : s.mayStart = true ↔ s.rc.runState = .armed ∧ s.rc.active.source = .station := by
  rw [State.mayStart, Bool.and_eq_true, beq_iff_eq, beq_iff_eq]

/-- Settles O26: the work at start, answered. -/
theorem startStartsTheRun : Obligations.StartStartsTheRun := by
  intro s tag ht
  refine ⟨fun hr hsrc => ?_, fun h => congrArg Host.Outcome.next (takeRequest_refused ht rfl (if_neg ?_))⟩
  · have ho : startOwner { s with mp := s.mp.pop } =
        okay (State.startRun { s with mp := s.mp.pop } s.rc.timeBase) [] := if_pos ((State.mayStart_iff _).2 ⟨hr, hsrc⟩)
    obtain ⟨m, hm, hreply⟩ := takeRequest_accepted (k := 0x13) (t := tag) ht rfl ho
    have h := State.startRun_starts { s with mp := s.mp.pop } s.rc.timeBase
    generalize State.startRun { s with mp := s.mp.pop } s.rc.timeBase = u at hm h
    obtain ⟨w, hw, hrec⟩ := h.record
    refine ⟨{ u with mp := m }, congrArg Host.Outcome.next hm, h.runState, h.startTime, h.limitTime, h.timeBase, h.flag,
      ⟨w, hw, ?_⟩, h.opens, h.trigger.fires, h.trigger.stays, hreply⟩
    rw [hrec]
    show (⟨_, .runStarted s.rc.active.source⟩ : Rec) = _
    rw [hsrc]
  · intro hmay
    obtain ⟨hr, hsrc⟩ := (State.mayStart_iff _).1 hmay
    rcases h with h | h
    · exact h hr
    · exact h hsrc

/-! ## EVENT_DELIVERY (R9, R32, R33) -/

/-- R32: what counts as one source. -/
theorem EventBody.sameSource_iff (a b : EventBody) : a.sameSource b = true ↔ match a, b with
    | .edge c _, .edge c' _ => c = c'
    | .edge c _, .rail b _ _ => c.val / 8 = b.val
    | .rail b _ _, .edge c _ => c.val / 8 = b.val
    | .rail b _ _, .rail b' _ _ => b = b'
    | .code .., .code .. => True
    | .text m, .text m' => m = m'
    | .rate m _ _, .rate m' _ _ => m = m'
    | .scan .., .scan .. => True
    | _, _ => False := by
  cases a <;> cases b <;> simp [EventBody.sameSource, chanBank, Fin.ext_iff]

/-- R9: the start event of a start source. -/
theorem StartSource.startedBy_iff (src : StartSource) (y : EventBody) : src.startedBy y = true ↔
    (∃ c d, src = .edge c d ∧ y = .edge c d) ∨ ∃ b l, src = .railUp b ∧ y = .rail b true l := by
  cases src <;> cases y <;> simp [StartSource.startedBy]
  exact fun _ => eq_comm

theorem State.eventDelivery_none {s : State} {k : Nat} (h : s.ste.events.length ≤ k) : exec (.eventDelivery k) s = .next s := by
  have hd : s.ste.deliverable k = none := by
    unfold Ste.deliverable
    rw [List.getElem?_eq_none h]
  show execEventDelivery k s = _
  unfold execEventDelivery
  rw [hd]

/-- R32: the state in which a delivery is taken. -/
def State.delivering (s : State) (k : Nat) : State := s.setSte { s.ste with events := s.ste.events.eraseIdx k }

theorem State.eventDelivery_taken {s : State} {k : Nat} {x : Event} (hx : s.ste.events[k]? = some x)
    (hsrc : ∀ y ∈ s.ste.events.take k, y.body.sameSource x.body = false) :
    exec (.eventDelivery k) s = .next ((s.delivering k).deliver x) := by
  have hd := (Ste.deliverable_spec s.ste k x).2 ⟨hx, hsrc⟩
  show execEventDelivery k s = _
  unfold execEventDelivery
  rw [hd]
  rfl

/-- R33: the STE with the event in the look-back list. -/
def Listed (s t : State) (x : Event) : Prop :=
  (s.ste.lookback.length < 64 → t.ste.lookback = s.ste.lookback ++ [x] ∧ t.ste.evictionMark = s.ste.evictionMark) ∧
  ∀ y ys, s.ste.lookback = y :: ys → 64 ≤ s.ste.lookback.length →
    t.ste.lookback = ys ++ [x] ∧ t.ste.evictionMark = some y.time

/-- R33: the state in which the event has joined the look-back list. -/
def State.listing (s : State) (k : Nat) (x : Event) : State := (s.delivering k).setSte ((s.delivering k).ste.append x)

theorem State.listing_listed (s : State) (k : Nat) (x : Event) : Listed s (s.listing k x) x :=
  ⟨(Ste.append_spec (s.delivering k).ste x).2.1, (Ste.append_spec (s.delivering k).ste x).2.2⟩

theorem State.listing_eq (s : State) (k : Nat) (x : Event) : s.listing k x = { s with ste := { s.ste with
    events := s.ste.events.eraseIdx k, lookback := (s.listing k x).ste.lookback
    evictionMark := (s.listing k x).ste.evictionMark } } := by
  unfold State.listing
  rw [(Ste.append_spec (s.delivering k).ste x).1]
  rfl

theorem Listed.of_eq {s t u : State} {x : Event} (h : Listed s t x) (hl : u.ste.lookback = t.ste.lookback)
    (hm : u.ste.evictionMark = t.ste.evictionMark) : Listed s u x := by
  unfold Listed
  rw [hl, hm]
  exact h

/-- R32: a delivery while RUNNING is a step of the STE's frame, and its pass is closed. -/
theorem State.deliver_running {s : State} {k : Nat} (x : Event) (hr : s.rc.runState = .running) :
    ∃ u, StepFrame (s.listing k x) u ∧ (s.delivering k).deliver x = u.closePass := by
  refine ⟨_, offers_stepFrame x (s.listing k x) (s.listing k x).ste.openSteps, ?_⟩
  unfold State.deliver
  rw [show (s.delivering k).rc.runState = .running from hr]
  rfl

/-- Settles O34: by the run state. -/
theorem eventDeliveries : Obligations.EventDeliveries := by
  refine ⟨EventBody.sameSource_iff, fun s k h => State.eventDelivery_none h, fun s k x hx hsrc => ?_⟩
  have hexec := State.eventDelivery_taken hx hsrc
  have hlisted := s.listing_listed k x
  have heq := s.listing_eq k x
  have hform : ∃ l m, s.listing k x = { s with ste := { s.ste with
    events := s.ste.events.eraseIdx k, lookback := l, evictionMark := m } } := ⟨_, _, heq⟩
  intro rest listed isStart
  have hstart : s.rc.active.source.startedBy x.body = true ↔ isStart := StartSource.startedBy_iff _ _
  refine ⟨fun hr => ?_, fun hr hno => ?_, fun hr hyes => ?_, fun hr => ?_⟩
  · rw [hexec]
    unfold State.deliver
    have hr' : (s.delivering k).rc.runState = .idle ∨ (s.delivering k).rc.runState = .ended := hr
    rcases hr' with hr' | hr' <;> rw [hr'] <;> rfl
  · refine ⟨s.listing k x, hexec.trans (congrArg Host.Outcome.next ?_), hlisted, heq⟩
    unfold State.deliver
    rw [show (s.delivering k).rc.runState = .armed from hr]
    exact if_neg fun h => hno (hstart.1 h)
  · have hdeliver : (s.delivering k).deliver x = (s.listing k x).startRun x.time := by
      unfold State.deliver
      rw [show (s.delivering k).rc.runState = .armed from hr]
      exact if_pos (hstart.2 hyes)
    have h := (s.listing k x).startRun_starts x.time
    rw [hdeliver] at hexec
    have hl := hlisted.of_eq h.lookback h.evictionMark
    obtain ⟨l, m, hform⟩ := hform
    generalize (s.listing k x).startRun x.time = t at hexec h hl
    rw [hform] at h
    exact ⟨t, hexec, hl, h.runState, h.startTime, h.limitTime, h.timeBase, h.flag, h.mp, h.pass, h.record, h.opens,
      h.trigger.fires, h.trigger.stays⟩
  · obtain ⟨u, hu, hdeliver⟩ := State.deliver_running (k := k) x hr
    rw [hdeliver] at hexec
    have hl : Listed s u.closePass x := hlisted.of_eq hu.lookback hu.evictionMark
    obtain ⟨l, m, hform⟩ := hform
    rw [hform] at hu
    have htime := congrArg Rc.timeBase hu.rc
    exact ⟨u.closePass, hexec, hl, (congrArg Rc.runState hu.rc).trans hr, htime, hu.mp, hu.plan, rfl⟩

end Sys2Proof.Machine

end


section
/-! PROOFS. CODE_SET and CODE_HISTORY (R100, R101, R102). -/

namespace Sys2Proof.Machine

/-! ## What the deliveries leave waiting (R32, R131) -/

theorem State.startRun_handsScans (s : State) (time : Nat) : s.HandsScans (s.startRun time) := by
  obtain ⟨l, hl, hs⟩ := (State.openStarts_evaluated (s.beginning time) time).events
  rw [State.beginning_ste] at hl
  refine ⟨l, ?_, hs⟩
  rw [State.startRun_eq, ← hl]
  generalize (s.beginning time).openStarts time = u
  split
  · rw [State.fireTrigger_eq]
    rfl
  · rfl

theorem State.HandsScans.refl (s : State) : s.HandsScans s := ⟨[], (List.append_nil _).symm, .nil⟩

/-- R32: a delivery hands over SCAN events at most. -/
theorem State.deliver_handsScans (s : State) (x : Event) : s.HandsScans (s.deliver x) := by
  have happend : (s.setSte (s.ste.append x)).ste.events = s.ste.events := by
    show (s.ste.append x).events = _
    rw [(Ste.append_spec s.ste x).1]
  unfold State.deliver
  split
  · exact .refl s
  · exact .refl s
  · dsimp only
    split
    · obtain ⟨l, hl, hs⟩ := (s.setSte (s.ste.append x)).startRun_handsScans x.time
      exact ⟨l, by rw [hl, happend], hs⟩
    · exact ⟨[], by rw [happend, List.append_nil], .nil⟩
  · obtain ⟨l, hl, hs⟩ := (Evaluated.foldl (offerTo_evaluated x) (s.setSte (s.ste.append x))
      (s.setSte (s.ste.append x)).ste.openSteps).events
    exact ⟨l, by rw [← happend]; exact hl, hs⟩

/-- R32: the `n` oldest events are gone, and SCAN events at most have come. -/
theorem State.deliverFirst_events (n : Nat) (s : State) : ∃ l, (s.deliverFirst n).ste.events = s.ste.events.drop n ++ l ∧
    ScanOnly l := by
  induction n generalizing s with
  | zero => exact ⟨[], (List.append_nil _).symm, .nil⟩
  | succ n ih =>
    obtain ⟨l, hl, hs⟩ := ih s.deliverNext
    show ∃ l, (s.deliverNext.deliverFirst n).ste.events = _ ∧ _
    rw [hl]
    cases he : s.ste.events with
    | nil =>
      have : s.deliverNext = s := by
        unfold State.deliverNext
        rw [he]
      rw [this, he, List.drop_nil, List.drop_nil]
      exact ⟨l, rfl, hs⟩
    | cons x rest =>
      obtain ⟨m, hm, hms⟩ := (s.setSte { s.ste with events := rest }).deliver_handsScans x
      have : s.deliverNext = (s.setSte { s.ste with events := rest }).deliver x := by
        unfold State.deliverNext
        rw [he]
      rw [this, hm]
      show ∃ l', List.drop n (rest ++ m) ++ l = List.drop n rest ++ l' ∧ _
      rw [List.drop_append, List.append_assoc]
      exact ⟨_, rfl, ScanOnly.append (fun y hy => hms y (List.mem_of_mem_drop hy)) hs⟩

/-- R84, R100, R112: once the events handed over are delivered only SCAN events wait. -/
theorem State.settle_scanOnly (s : State) : ScanOnly s.settle.ste.events := by
  obtain ⟨l, hl, hs⟩ := s.deliverFirst_events s.ste.events.length
  rw [List.drop_length] at hl
  show ScanOnly (s.deliverFirst s.ste.events.length).ste.events
  rw [hl]
  exact hs

/-! ## The settings record (12.6) -/

theorem CodeSettings.dec_of {r : Bytes} {dir : Dir} (h0 : (byteAt r 0).toNat ≤ 1)
    (h1 : byteAt r 1 = if dir = .rising then 0 else 1) (h2 : (byteAt r 2).toNat ≤ 1) (h3 : (byteAt r 3).toNat ≤ 4) :
    CodeSettings.dec r = some {
      enabled := decide (byteAt r 0 = 1), strobe := dir, foldWindow := min 60000 (field r 8 2)
      ignoreList := (r.drop 4).take (byteAt r 3).toNat, trace := decide (byteAt r 2 = 1) } := by
  have hd : Dir.dec (byteAt r 1) = some dir := by rw [h1]; cases dir <;> rfl
  have hw : clamp 0 60000 (field r 8 2) = min 60000 (field r 8 2) := by unfold clamp; omega
  simp only [CodeSettings.dec, ynOf_of_le h0, hd, ynOf_of_le h2, Option.bind_eq_bind, Option.bind_some, hw,
    if_neg (Nat.not_lt.2 h3)]

theorem CodeSettings.dec_refused {r : Bytes} (h : 2 ≤ (byteAt r 1).toNat ∨ 5 ≤ (byteAt r 3).toNat) :
    CodeSettings.dec r = none := dec_none fun x hx => by
  simp only [CodeSettings.dec, Option.bind_eq_bind, Option.bind_eq_some_iff] at hx
  obtain ⟨e, -, d, hd, t, -, hx⟩ := hx
  have hd := Dir.dec_lt hd
  split at hx
  · cases hx
  · omega

/-- R101: an accepted CODE_SET. -/
theorem State.codeSet_eq (s : State) (r : CodeSettings) : s.codeSet r = s.setCdp { s.cdp with
    settings := r, foldFrom := none
    reference := if r.enabled = true ∧ s.lau[(3 : Fin 4)].present = true ∧ s.cdp.blanking = none then
      some s.readStb else none } := by
  have h : (s.setCdp { s.cdp with settings := r, foldFrom := none }).freshReference =
      if r.enabled = true ∧ s.lau[(3 : Fin 4)].present = true ∧ s.cdp.blanking = none then some s.readStb else none :=
    if_congr (State.watchesStb_iff _) rfl rfl
  unfold State.codeSet
  dsimp only
  rw [h]
  rfl

theorem bodyOk_codeSet {tag : Byte} {r : Bytes} (h : r.length = 10) : (Instr.codeSet tag r).bodyOk = true :=
  Instr.bodyOk_of rfl (by simp [bodyAllowed, h])

/-! ## CODE_HISTORY's report (R102, 12.6) -/

theorem CodeSettings.enc_length {c : CodeSettings} (h : c.ignoreList.length ≤ 4) : c.enc.length = 10 := by
  simp [CodeSettings.enc, padTo_length 4 c.ignoreList h]

theorem encPending_length (p : Option PendingCode) : (encPending p).length = 14 := by
  cases p <;> simp [encPending]

/-- The bytes of the history, three to an entry. -/
theorem field_history (l : List CodeEntry) {i : Nat} {e : CodeEntry} (h : l[i]? = some e) :
    byteAt (l.flatMap fun e => e.code :: le 2 e.count) (3 * i) = e.code ∧
      (e.count < 2 ^ 16 → field (l.flatMap fun e => e.code :: le 2 e.count) (3 * i + 1) 2 = e.count) := by
  induction l generalizing i with
  | nil => cases h
  | cons x l ih =>
    rw [List.flatMap_cons]
    cases i with
    | zero =>
      cases h
      exact ⟨rfl, fun hc => field_le_append 2 _ _ hc⟩
    | succ i =>
      obtain ⟨hcode, hcount⟩ := ih h
      rw [Nat.mul_succ, List.cons_append]
      refine ⟨?_, fun hc => ?_⟩
      · rw [byteAt_cons_succ, byteAt_le_skip _ _ (by omega)]
        exact hcode
      · rw [field_cons_succ, field_le_skip _ _ _ (by omega)]
        exact hcount hc

theorem Cdp.report_eq (c : Cdp) : c.report = c.settings.enc ++ (yn c.foldFrom.isNone :: (encPending c.pending ++
    (byte c.history.length :: c.history.flatMap fun e => e.code :: le 2 e.count))) := by
  unfold Cdp.report
  simp only [List.append_assoc, List.cons_append, List.nil_append]

theorem history_length (l : List CodeEntry) : (l.flatMap fun e => e.code :: le 2 e.count).length = 3 * l.length := by
  induction l with
  | nil => rfl
  | cons x l ih =>
    rw [List.flatMap_cons, List.length_append, ih, List.length_cons, List.length_cons, le_length]
    omega

/-- R102, 12.6: the report part by part. -/
theorem Cdp.report_parts {c : Cdp} (h : c.settings.ignoreList.length ≤ 4) :
    c.report.length = 26 + 3 * c.history.length ∧ c.report.take 10 = c.settings.enc ∧
      byteAt c.report 10 = (if c.foldFrom = none then 1 else 0) ∧
      c.report.drop 11 = encPending c.pending ++
        (byte c.history.length :: c.history.flatMap fun e => e.code :: le 2 e.count) ∧
      c.report.drop 25 = byte c.history.length :: c.history.flatMap fun e => e.code :: le 2 e.count := by
  have h10 := CodeSettings.enc_length h
  have h14 := encPending_length c.pending
  have h11 : c.report.drop 11 = encPending c.pending ++
      (byte c.history.length :: c.history.flatMap fun e => e.code :: le 2 e.count) := by
    rw [Cdp.report_eq, show 11 = c.settings.enc.length + 1 by rw [h10], List.drop_length_add_append]
    rfl
  refine ⟨?_, ?_, ?_, h11, ?_⟩
  · simp only [Cdp.report_eq, List.length_append, List.length_cons, h10, h14, history_length]
    omega
  · rw [Cdp.report_eq]
    exact List.take_left' h10
  · rw [Cdp.report_eq, byteAt_append_right h10 _ 0, byteAt_cons_zero]
    cases c.foldFrom <;> rfl
  · rw [show 25 = 11 + 14 from rfl, ← List.drop_drop, h11]
    exact List.drop_left' h14

/-- Settles O50: the settings decoded, the report, and the clear once the events have been delivered. -/
theorem codePortIsSetAndRead : Obligations.CodePortIsSetAndRead := by
  intro s tag
  refine ⟨fun r dir hr ht h0 h1 h2 h3 => ?_, fun r hr ht hbad => ?_, s.cdp.report, fun ht => ?_, fun ht => ?_, fun hi => ?_⟩
  · intro set
    have hdec : CodeSettings.dec r = some set := CodeSettings.dec_of h0 h1 h2 h3
    clear_value set
    refine ⟨fun hs => ?_, fun hs => congrArg Host.Outcome.next (takeRequest_refused ht (bodyOk_codeSet hr) ?_)⟩
    · refine congrArg Host.Outcome.next (takeRequest_quiet (u := s.setCdp _) ht (bodyOk_codeSet hr) rfl rfl ?_)
      have hl : State.live { s with mp := s.mp.pop } = false := State.not_live_of hs
      simp only [codeSetOwner, hdec, hl, Bool.false_eq_true, if_false]
      rw [State.codeSet_eq]
      rfl
    · have hl : State.live { s with mp := s.mp.pop } = true := State.live_of hs
      simp only [codeSetOwner, hdec, hl, if_true]
  · refine congrArg Host.Outcome.next (takeRequest_refused ht (bodyOk_codeSet hr) ?_)
    simp only [codeSetOwner, CodeSettings.dec_refused hbad]
  · exact congrArg Host.Outcome.next (takeRequest_unchanged ht rfl rfl)
  · have hframe : DeliverFrame { s with mp := s.mp.pop } (State.settle { s with mp := s.mp.pop }) := State.settle_frame _
    refine ⟨State.settle { s with mp := s.mp.pop }, State.settle_delivered { s with mp := s.mp.pop },
      fun x hx code prior hb => ?_, hframe.cdp, ?_⟩
    · obtain ⟨n, o, hscan⟩ := State.settle_scanOnly _ x hx
      cases hscan.symm.trans hb
    · show Host.Outcome.next (takeRequest _ _ _ _ s) = _
      rw [takeRequest_of_taken _ _ _ ht rfl, State.beside_replied _ rfl]
      have hcdp := hframe.cdp
      generalize State.settle { s with mp := s.mp.pop } = u at hcdp
      have hanswer : u.codeHistory true = okay (u.setCdp { u.cdp with history := [] }) s.cdp.report :=
        congrArg (okay (u.setCdp { u.cdp with history := [] })) (congrArg Cdp.report hcdp)
      rw [hanswer]
      rfl
  · obtain ⟨hlen, hset, hfold, hpending, hhistory⟩ := Cdp.report_parts hi
    refine ⟨hlen, hset, hfold, fun hp i hi => ?_, fun p hp => ?_, ?_, fun i e he => ?_⟩
    · rw [← byteAt_drop, hpending, hp]
      unfold byteAt
      rw [encPending, List.getD_eq_getElem?_getD, List.getElem?_append_left (by rw [List.length_replicate]; exact hi),
        List.getElem?_replicate, if_pos hi]
      rfl
    · rw [hp] at hpending
      refine ⟨?_, ?_, fun h => ?_, fun h => ?_, fun h => ?_⟩
      · rw [← byteAt_drop _ 11 0, hpending]
        rfl
      · rw [← byteAt_drop _ 11 1, hpending]
        rfl
      · rw [← field_drop _ 11 2, hpending]
        exact field_le_append 2 _ _ h
      · rw [← field_drop _ 11 4, hpending]
        exact field_le_append 5 _ _ h
      · rw [← field_drop _ 11 9, hpending]
        exact field_le_append 5 _ _ h
    · rw [← byteAt_drop _ 25 0, hhistory]
      rfl
    · obtain ⟨hcode, hcount⟩ := field_history s.cdp.history he
      refine ⟨?_, fun hc => ?_⟩
      · rw [show 26 + 3 * i = 25 + (3 * i + 1) by omega, ← byteAt_drop, hhistory]
        exact hcode
      · rw [show 27 + 3 * i = 25 + (3 * i + 1 + 1) by omega, ← field_drop, hhistory]
        exact hcount hc

end Sys2Proof.Machine

end


section
/-! PROOFS. What one action of a step does (R23, R63, R119, R127), and a step that resolves alone in its pass (R46, R48, R49).
-/

namespace Sys2Proof.Machine

/-! ## DRIVE (R117, R119) -/

theorem Dc.operate_after (d : Dc) (op : DriveOp) : d.operate op = d.after op := by
  cases op <;> rfl

theorem recordsChange_iff (d d' : Dc) (op : DriveOp) : recordsChange d d' op = true ↔
    d'.driveMode ≠ d.driveMode ∨ (op = .startPulse ∧ d.running = true) := by
  rw [recordsChange, Bool.or_eq_true, Bool.and_eq_true, bne_iff_ne, beq_iff_eq, ne_comm]

theorem DriveOp.drives_iff (op : DriveOp) : op.drives = true ↔ op = .low ∨ op = .high ∨ op = .startPulse := by
  cases op <;> simp [DriveOp.drives]

/-- R117, R119: an operation taken in a run. -/
theorem State.driveOperate_live {s : State} (hl : s.live = true) (c : Fin 8) (op : DriveOp) (cause : DriveCause) :
    s.driveOperate c op cause = { s with
      dc := s.dc.set c (s.dc[c].after op) c.isLt
      ts := { s.ts with input := s.ts.input ++
        if (s.dc[c].after op).driveMode ≠ s.dc[c].driveMode ∨ (op = .startPulse ∧ s.dc[c].running = true) then
          [s.arriving (.dc c) ⟨s.rc.timeBase, .drive c (s.dc[c].after op).driveMode cause⟩] else [] } } := by
  rw [← Dc.operate_after]
  unfold State.driveOperate
  dsimp only
  by_cases h : recordsChange s.dc[c] (s.dc[c].operate op) op = true
  · rw [if_pos h, if_pos ((recordsChange_iff _ _ _).1 h)]
    exact State.hand_of_live _ _ hl
  · rw [if_neg h, if_neg (mt (recordsChange_iff _ _ _).2 h), List.append_nil]
    rfl

/-- R119: a DRIVE action. -/
theorem State.act_drive {s : State} (hl : s.live = true) {k : Fin 64} {w : StepEval} (hw : s.ste.evals[k] = some w) (c : Fin 8)
    (op : DriveOp) : ActionDone k (.drive c op) s (State.act k s (.drive c op)) := by
  unfold ActionDone State.act
  dsimp only
  rcases s.stepClaim_cases c op with ⟨hop, hgated, hrail, hc⟩ | ⟨hnot, hc⟩ <;> rw [hc]
  · refine ⟨fun _ => ⟨w, hw, ?_⟩, fun hno => absurd ⟨(DriveOp.drives_iff op).1 hop, hgated, hrail⟩ hno⟩
    have hraise : (s.raise .driveBlock).ste.evals[k] = some w := hw
    show State.setRefused _ k = _
    unfold State.setRefused
    rw [hraise]
    rfl
  · refine ⟨fun ⟨hop, hgated, hrail⟩ => ?_, fun _ => State.driveOperate_live hl c op .step⟩
    rcases hnot with h | h | h
    · rw [(DriveOp.drives_iff op).2 hop] at h
      cases h
    · cases h.symm.trans hgated
    · cases h.symm.trans hrail

/-! ## SCAN (R127) -/

/-- R127: a job with the port busy behind it or the queue full completes at once, or joins the queue. -/
theorem insertStep_place (j : Job) (q : List Job) : ∃ steps hosts, q = steps ++ hosts ∧ insertStep j q = steps ++ j :: hosts ∧
    (∀ x ∈ steps, ∃ m, x.cls = .step m) ∧ ∀ x, hosts.head? = some x → ∃ tag, x.cls = .host tag := by
  have hcls : ∀ x : Job, (x.isStep = true → ∃ m, x.cls = .step m) ∧ (x.isStep = false → ∃ tag, x.cls = .host tag) := fun x => by
    unfold Job.isStep
    cases hx : x.cls with
    | step m => exact ⟨fun _ => ⟨m, rfl⟩, fun h => nomatch h⟩
    | host tag => exact ⟨fun h => (Bool.false_ne_true h).elim, fun _ => ⟨tag, rfl⟩⟩
  refine ⟨q.takeWhile Job.isStep, q.dropWhile Job.isStep, List.takeWhile_append_dropWhile.symm, rfl, fun x hx => ?_,
    fun x hx => ?_⟩
  · exact (hcls x).1 (List.mem_takeWhile_imp hx)
  · refine (hcls x).2 ?_
    have := List.head?_dropWhile_not Job.isStep q
    rw [hx] at this
    exact this

/-- R131: a step job of the run completed FAULT. -/
theorem State.faulted_completed {s t : State} {n : Fin 8} {body : JobBody} {reason : FaultReason}
    (ht : t = s.completeJob { cls := .step n, body, current := true } {
      cls := .step n, outcome := .fault, reason := some reason, inserted := false, capture := 0, captureLen := 0 }) :
    t = { s with
      sc := { s.sc with results := t.sc.results }, fu := t.fu, ts := { s.ts with input := t.ts.input }
      ste := { s.ste with events := t.ste.events } } ∧
    t.fu = (s.raise .scanDone).fu ∧ JobCompleted s t { cls := .step n, body, current := true } {
      cls := .step n, outcome := .fault, reason := some reason, inserted := false, capture := 0, captureLen := 0 } := by
  rw [State.completeJob_eq] at ht
  subst ht
  exact ⟨rfl, rfl, .of rfl rfl rfl rfl⟩

/-- R127: a SCAN action. -/
theorem State.act_scan (s : State) (k : Fin 64) (n : Fin 8) : ActionDone k (.scan n) s (State.act k s (.scan n)) := by
  unfold ActionDone
  show (s.sc.active[n] = none → s.submitStep n = s) ∧ _
  refine ⟨fun hn => ?_, fun body hbody => ?_⟩
  · unfold State.submitStep
    rw [hn]
  intro j completed
  have hsubmit : s.submitStep n = if 16 ≤ s.sc.queue.length then s.completeJob j (j.bareResult .fault (some .queueFull))
      else (s.setSc { s.sc with queue := insertStep j s.sc.queue }).scanGo := by
    unfold State.submitStep
    rw [hbody]
    rfl
  refine ⟨fun hfull => ?_, fun hroom hbusy => ?_, fun hq hj hp => ?_, fun hq hj hp => ?_⟩
  · rw [if_pos hfull] at hsubmit
    exact State.faulted_completed hsubmit
  · rw [if_neg (Nat.not_le.2 hroom), State.scanGo_busy (by exact hbusy)] at hsubmit
    obtain ⟨steps, hosts, hq, hins, hsteps, hhosts⟩ := insertStep_place j s.sc.queue
    rw [hins] at hsubmit
    exact ⟨steps, hosts, hq, hsteps, hhosts, hsubmit⟩
  · rw [hq, if_neg (by decide), State.scanGo_present (s := s.setSc { s.sc with queue := insertStep j [] }) (j := j) (js := [])
      hj rfl hp, Job.activate_eq] at hsubmit
    refine hsubmit.trans ?_
    rw [← hq]
    rfl
  · rw [hq, if_neg (by decide), State.scanGo_absent (s := s.setSc { s.sc with queue := insertStep j [] }) hj hp] at hsubmit
    have hsame : (s.setSc { s.sc with queue := insertStep j [] }).setSc { s.sc with queue := [] } = s := by
      rw [← hq]
      rfl
    refine State.faulted_completed (hsubmit.trans ?_)
    show State.completeAll ((s.setSc { s.sc with queue := insertStep j [] }).setSc { s.sc with queue := [] }) _ = _
    rw [hsame]
    rfl

/-- R23: an action of a step of the run. -/
theorem State.act_done {s : State} (hl : s.live = true) {k : Fin 64} {w : StepEval} (hw : s.ste.evals[k] = some w)
    (a : Action) :
    ActionDone k a s (State.act k s a) := by
  cases a with
  | drive c op => exact State.act_drive hl hw c op
  | scan n => exact s.act_scan k n
  | mark code => exact State.hand_of_live _ _ hl
  | trigger =>
    show (_ → _ → s.fireTrigger (.step k) = _) ∧ (_ → s.fireTrigger (.step k) = s)
    refine ⟨fun hm hf => ?_, fun h => State.fireTrigger_stays h _⟩
    unfold State.fireTrigger
    rw [if_pos (s.triggerTakes_iff.2 ⟨hm, hl, hf⟩)]
    rfl
  | endRun => rfl

/-- R23, R46: the actions of a step, in list order. -/
theorem State.acts_performed {s : State} (hl : s.live = true) {k : Fin 64} {w : StepEval} (hw : s.ste.evals[k] = some w)
    (l : List Action) : performed k l s (l.foldl (State.act k) s) := by
  induction l generalizing s w with
  | nil => rfl
  | cons a l ih =>
    obtain ⟨r, hr⟩ := s.act_own hw a
    exact ⟨State.act k s a, State.act_done hl hw a,
      ih (s := State.act k s a) (w := { w with refused := r }) ((s.act_stepFrame k a).live.trans hl) hr⟩

/-! ## The end request of a pass (R13, R49) -/

theorem Ste.allTerminal_iff (t : Ste) : t.allTerminal = true ↔ ∀ (k : Fin 64) (e : StepEntry), t.active[k] = some e →
    ∃ v, t.evals[k] = some v ∧ v.state ≠ .pending ∧ v.state ≠ .opened := by
  have hterm : ∀ st : StepState, st.terminal = true ↔ st ≠ .pending ∧ st ≠ .opened := fun st => by cases st <;> decide
  unfold Ste.allTerminal
  rw [List.all_eq_true]
  constructor
  · intro h k e he
    have hk := h k (List.mem_finRange k)
    rw [he] at hk
    cases hv : t.evals[k] with
    | none =>
      dsimp only at hk
      rw [hv] at hk
      cases hk
    | some v =>
      dsimp only at hk
      rw [hv] at hk
      exact ⟨v, rfl, (hterm _).1 hk⟩
  · intro h k _
    cases he : t.active[k] with
    | none => rfl
    | some e =>
      obtain ⟨v, hv, hp⟩ := h k e he
      dsimp only
      rw [hv]
      exact (hterm _).2 hp

/-- R13, R49: what the close of a pass with a resolution sends. -/
theorem Ste.endCause_requests {t : Ste} (h : t.pass.resolved = true) : requestsAtClose t t.endCause.toList := by
  unfold requestsAtClose Ste.endCause
  rw [h, ← Ste.allTerminal_iff]
  refine ⟨fun he => ?_, fun he hs => ?_, fun he hs ha => ?_, fun he hs ha => ?_⟩
  · rw [he]; rfl
  · rw [he, hs]; rfl
  · rw [he, hs, ha]; rfl
  · rw [he, hs, Bool.eq_false_iff.2 ha]; rfl

/-! ## A step that resolves alone in its pass (R46, R48, R49) -/

theorem StepState.outcome.failed {st : StepState} (h : st.outcome) : decide (st ≠ .matched ∧ st ≠ .held) = st.failure ∧
    st.success = !st.failure := by
  rcases h with rfl | rfl | rfl | rfl | rfl | rfl <;> decide

/-- R49: no action takes back that a step of the pass has resolved. -/
theorem State.act_resolved (s : State) (k : Fin 64) (a : Action) : (State.act k s a).ste.pass.resolved =
    s.ste.pass.resolved := by
  cases a with
  | drive c op =>
    unfold State.act
    dsimp only
    rcases s.stepClaim_cases c op with ⟨-, -, -, hc⟩ | ⟨-, hc⟩ <;> rw [hc]
    · show (State.setRefused _ k).ste.pass.resolved = _
      unfold State.setRefused
      split <;> rfl
    · show (s.driveOperate c op .step).ste.pass.resolved = _
      rw [State.driveOperate_eq]
      rfl
  | scan n =>
    show (s.submitStep n).ste.pass.resolved = _
    rw [(s.submitStep_frame n).eq]
  | mark code =>
    show (State.hand _ _ _).ste.pass.resolved = _
    rw [State.hand_ste]
  | trigger =>
    show (s.fireTrigger _).ste.pass.resolved = _
    rw [State.fireTrigger_eq]
  | endRun => rfl

theorem State.acts_resolved (s : State) (k : Fin 64) (l : List Action) :
    (l.foldl (State.act k) s).ste.pass.resolved = s.ste.pass.resolved := by
  induction l generalizing s with
  | nil => rfl
  | cons a l ih => exact (ih _).trans (s.act_resolved k a)

theorem State.acted_resolved (s : State) (k : Fin 64) (e : StepEntry) (v : StepEval) (st : StepState) (time : Nat) :
    (s.acted k e v st time).ste.pass.resolved = true := by
  unfold State.acted
  split
  · exact State.acts_resolved _ k e.actions
  · rfl

/-- R23, R46: the actions of a resolving step, none on a failure. -/
theorem State.acted_performed {s : State} (hl : s.live = true) (k : Fin 64) (e : StepEntry) (v : StepEval) {st : StepState}
    (hst : st.outcome) (time : Nat) :
    performed k (if st.failure then [] else e.actions) (s.resolving k e v st time) (s.acted k e v st time) := by
  unfold State.acted
  rw [hst.failed.2]
  cases st.failure
  · exact State.acts_performed (s := s.resolving k e v st time) hl (Vector.getElem_set_self k.isLt) e.actions
  · rfl

/-- R49: the close of the pass after a STEP record and the flag of a failure. -/
theorem State.closePass_after (u : State) (hl : u.live = true) (r : Rec) (c : Bool) :
    ((u.hand .run r).raiseIf c .stepFail).closePass = { u with
      fu := if c then (u.raise .stepFail).fu else u.fu
      ts := { u.ts with input := u.ts.input ++ [u.arriving .run r] }
      rc := { u.rc with endRequests := u.rc.endRequests ++ u.ste.endCause.toList }
      ste := { u.ste with pass := { resolved := false, endRun := false, stopFail := false } } } := by
  rw [State.hand_of_live _ _ hl]
  cases c <;> rfl

/-- R46, R48, R49: a resolution with nothing that follows from it, and the close of its pass. -/
theorem State.resolveStep_alone {s : State} (hl : s.live = true) {k : Fin 64} {e : StepEntry} (he : s.ste.active[k] = some e)
    (v : StepEval) {st : StepState} (hst : st.outcome) (time : Nat) :
    ResolvedAlone s (s.resolveStep k e v st time).closePass k e v st time := by
  obtain ⟨r, hr, -⟩ := s.acted_own k e v st time
  have hperformed := State.acted_performed hl k e v hst time
  have hrequests := Ste.endCause_requests (s.acted_resolved k e v st time)
  have hlive := (s.acted_evaluated he v st time).frame.live.trans hl
  have hstep := State.resolveStep_acted s hr
  have hcomm : (e.required && st.failure) = (st.failure && e.required) := Bool.and_comm _ _
  unfold ResolvedAlone
  rw [hst.failed.1, hstep, State.closePass_after _ hlive, hcomm]
  have hstart : s.resolving k e v st time = { s with ste := { s.ste with
      evals := s.ste.evals.set k (some { v with state := st, resolution := some time }) k.isLt
      order := s.ste.order ++ [k]
      pass := { s.ste.pass with
        resolved := true, stopFail := s.ste.pass.stopFail || (st.failure && e.required && e.stopOnFail) } } } := by
    rw [← hcomm]
    rfl
  rw [hstart] at hperformed
  exact ⟨s.acted k e v st time, _, _, hperformed, hr, hrequests, rfl⟩

theorem foldl_of_unchanged {α β : Type} {f : α → β → α} {s : α} {l : List β} (h : ∀ b ∈ l, f s b = s) : l.foldl f s = s := by
  induction l with
  | nil => rfl
  | cons b l ih =>
    rw [List.foldl_cons, h b List.mem_cons_self]
    exact ih fun c hc => h c (List.mem_cons_of_mem _ hc)

theorem openAt_of_none {a : Anchor} (anchor n : Nat) {s : State} {j : Fin 64}
    (h : ∀ (e : StepEntry) (v : StepEval), s.ste.inState j .pending = some (e, v) → e.anchor ≠ a) :
    openAt a anchor n s j = s := by
  unfold openAt
  split
  · rename_i e v hi
    exact if_neg (h e v hi)
  · rfl

theorem skipOne_of_none (time : Nat) {acc : State × List (Fin 64)} {j : Fin 64}
    (h : ∀ (e : StepEntry) (v : StepEval) (a : Fin 64), acc.1.ste.inState j .pending = some (e, v) → e.anchor = .step a →
      a ∉ acc.2) : skipOne time acc j = acc := by
  unfold skipOne
  split
  · rename_i e v hi
    split
    · rename_i a ha
      exact if_neg (h e v a hi ha)
    · rfl
  · rfl

/-- R44, R45: a step's resolution in whose reach no PENDING step stands. -/
theorem State.resolve_alone {s : State} (n : Nat) {k : Fin 64} {e : StepEntry} {v : StepEval}
    (hi : s.ste.inState k .opened = some (e, v)) {st : StepState} (hst : st.terminal = true) (time : Nat)
    (hnone : ∀ (i : Fin 64) (e' : StepEntry) (v' : StepEval), s.ste.active[i] = some e' → s.ste.evals[i] = some v' →
      v'.state = .pending → e'.anchor ≠ .step k) :
    State.resolve (n + 1) k st time s = s.resolveStep k e v st time := by
  have hframe := State.resolveStep_stepFrame s k e v st time
  have hothers := State.resolveStep_others s k e v st time
  obtain ⟨r, hr, -⟩ := s.acted_own k e v st time
  have hown : (s.resolveStep k e v st time).ste.evals[k] =
      some { v with state := st, resolution := some time, refused := r } := by
    rw [State.resolveStep_acted s hr, State.raiseIf_ste, State.hand_ste, hr]
  have hpending : ∀ (i : Fin 64) (e' : StepEntry) (v' : StepEval),
      (s.resolveStep k e v st time).ste.inState i .pending = some (e', v') → e'.anchor ≠ .step k := fun i e' v' hi' => by
    obtain ⟨he, hv, hp⟩ := (Ste.inState_iff _ _ _ _ _).1 hi'
    by_cases hik : i = k
    · subst hik
      cases hown.symm.trans hv
      exact absurd hp (StepState.not_pending_of_terminal hst)
    · rw [hothers i hik] at hv
      rw [hframe.plan] at he
      exact hnone i e' v' he hv hp
  rw [State.resolve_turns n hi]
  generalize s.resolveStep k e v st time = u at hpending
  split
  · exact foldl_of_unchanged fun j _ => openAt_of_none time n fun e' v' hi' => hpending j e' v' hi'
  · exact congrArg Prod.fst (foldl_of_unchanged (f := skipOne time) (s := (u, [k])) fun j _ =>
      skipOne_of_none time fun e' v' a hi' ha hmem => hpending j e' v' hi' (by rw [ha, List.mem_singleton.1 hmem]))

end Sys2Proof.Machine

end


section
/-! PROOFS. An event offered to the OPEN steps (R22, R32, R38, R39, R40). -/

namespace Sys2Proof.Machine

/-- R22: which events meet a condition. -/
theorem Cond.met_iff (c : Cond) (y : EventBody) : c.met y = true ↔
    (∃ ch d, c = .edge ch d ∧ y = .edge ch d) ∨ (∃ v m cd p, c = .code v m ∧ y = .code cd p ∧ cd &&& m = v) ∨
    (∃ m, c = .text m ∧ y = .text m) ∨ (∃ m st l, c = .rate m st ∧ y = .rate m st l) ∨
    (∃ b up l, c = .rail b up ∧ y = .rail b up l) ∨ ∃ n o, c = .scan n o ∧ y = .scan n o := by
  cases c <;> cases y <;> simp [Cond.met]
  all_goals exact eq_comm

/-! ## How an event is judged (R38, R39, R40) -/

section
variable {e : StepEntry} {v : StepEval} {t lo hi : Nat}

theorem StepEntry.judge_check (h : e.kind = .check) (t : Nat) : e.judge v t = (v, none) := by
  unfold StepEntry.judge
  rw [h]

theorem StepEntry.judge_before (h : e.kind = .await) (hlo : v.lo = some lo) (ht : t < lo) :
    e.judge v t = (v, if e.earlyFails then some .early else none) := by
  unfold StepEntry.judge
  rw [h, hlo]
  exact if_pos ht

theorem StepEntry.judge_after (h : e.kind = .await) (hlo : v.lo = some lo) (hhi : v.hi = some hi) (h1 : lo ≤ t) (h2 : hi < t) :
    e.judge v t = (v, none) := by
  unfold StepEntry.judge
  rw [h, hlo, hhi]
  exact (if_neg (Nat.not_lt.2 h1)).trans (if_neg (Nat.not_le.2 h2))

theorem StepEntry.judge_within (h : e.kind = .await) (hlo : v.lo = some lo) (hhi : v.hi = some hi) (h1 : lo ≤ t) (h2 : t ≤ hi) :
    e.judge v t = ({ v with counted := v.counted + 1 }, if e.count ≤ v.counted + 1 then some .matched else none) := by
  unfold StepEntry.judge
  rw [h, hlo, hhi]
  exact (if_neg (Nat.not_lt.2 h1)).trans (if_pos h2)

theorem StepEntry.judge_guard (h : e.kind = .guard) (hlo : v.lo = some lo) (hhi : v.hi = some hi) :
    e.judge v t = (v, if lo ≤ t ∧ t ≤ hi then some .violated else none) := by
  unfold StepEntry.judge
  rw [h, hlo, hhi]
  rfl

end

/-! ## The turn of an OPEN step (R32) -/

/-- R32: an event offered to an OPEN step whose condition it meets. -/
theorem offerTo_met {s : State} {x : Event} {j : Fin 64} {e : StepEntry} {v : StepEval}
    (hi : s.ste.inState j .opened = some (e, v)) (hm : e.cond.met x.body = true) :
    offerTo x s j = match e.judge v x.time with
      | (v', some st) => (s.setEval j v').resolve chainDepth j st x.time
      | (v', none) => s.setEval j v' := by
  unfold offerTo
  rw [hi]
  exact if_pos hm

theorem offerTo_unmet {s : State} {x : Event} {j : Fin 64}
    (h : ∀ (e : StepEntry) (v : StepEval), s.ste.inState j .opened = some (e, v) → e.cond.met x.body = false) :
    offerTo x s j = s := by
  unfold offerTo
  split
  · rfl
  · rename_i e v hi
    exact if_neg (Bool.eq_false_iff.1 (h e v hi))

/-- The record of a step that is not PENDING changed leaves the others as far out of its reach. -/
theorem State.Apart.setEval {s : State} {j i : Fin 64} (h : s.Apart j i) (w : StepEval) : (s.setEval j w).Apart j i := by
  have hothers := s.setEval_others j w
  refine ⟨h.1, fun e v a he hv hp ha => ?_⟩
  rw [hothers i h.1] at hv
  obtain ⟨haj, hnot⟩ := h.2 e v a he hv hp ha
  exact ⟨haj, fun va hva => hnot va (by rw [← hothers a haj]; exact hva)⟩

theorem State.setEval_resolve_leavesApart (s : State) (n : Nat) (j : Fin 64) (w : StepEval) (st : StepState) (time : Nat) :
    s.LeavesApart j ((s.setEval j w).resolve n j st time) := fun i hi =>
  (State.resolve_leavesApart n j st time (s.setEval j w) i (hi.setEval w)).trans (s.setEval_others j w i hi.1)

theorem offerTo_leavesApart (x : Event) (s : State) (j : Fin 64) : s.LeavesApart j (offerTo x s j) := by
  unfold offerTo
  split
  · exact .refl j s
  · split
    · split
      · exact s.setEval_resolve_leavesApart _ j _ _ _
      · exact fun i hi => s.setEval_others j _ i hi.1
    · exact .refl j s

/-- R38, R39, R40: what the event leaves of an OPEN step of its own turn, by how the step judges it. -/
structure Judged (t : State) (x : Event) (j : Fin 64) (e : StepEntry) (v : StepEval) : Prop where
  unmet : e.cond.met x.body = false → t.ste.evals[j] = some v
  stays : e.cond.met x.body = true → ∀ v', e.judge v x.time = (v', none) → t.ste.evals[j] = some v'
  resolves : e.cond.met x.body = true → ∀ v' st, e.judge v x.time = (v', some st) → StepResolved t j e v' st x.time

theorem StepResolved.of_evals {t u : State} {k : Fin 64} {e : StepEntry} {v : StepEval} {st : StepState} {time : Nat}
    (h : StepResolved t k e v st time) (he : Evaluated t u) (hk : u.ste.evals[k] = t.ste.evals[k]) :
    StepResolved u k e v st time := by
  obtain ⟨r, hv, hr, ⟨w, hw, hrec⟩, hflag⟩ := h
  exact ⟨r, hk.trans hv, hr, ⟨w, he.frame.behind.subset hw, hrec⟩, fun hreq hfail => he.flags 2 (hflag hreq hfail)⟩

theorem Judged.of_evals {t u : State} {x : Event} {j : Fin 64} {e : StepEntry} {v : StepEval} (h : Judged t x j e v)
    (he : Evaluated t u) (hj : u.ste.evals[j] = t.ste.evals[j]) : Judged u x j e v :=
  ⟨fun hm => hj.trans (h.unmet hm), fun hm v' hv => hj.trans (h.stays hm v' hv), fun hm v' st hv =>
    (h.resolves hm v' st hv).of_evals he hj⟩

theorem offerTo_judged {s : State} {x : Event} {j : Fin 64} {e : StepEntry} {v : StepEval} (hl : s.live = true)
    (hi : s.ste.inState j .opened = some (e, v)) :
    Judged (offerTo x s j) x j e v ∧ ∀ w, (offerTo x s j).ste.evals[j] = some w → w.state ≠ .pending := by
  obtain ⟨he, hv, ho⟩ := (Ste.inState_iff _ _ _ _ _).1 hi
  have hget : ∀ w : StepEval, (s.setEval j w).ste.evals[j] = some w := fun w => (State.setEval_get s j j w).trans (if_pos rfl)
  obtain ⟨hstate, -, hout⟩ := e.judge_outcome v x.time
  cases hm : e.cond.met x.body with
  | false =>
    have hsame : offerTo x s j = s := offerTo_unmet fun e' v' hi' => by
      cases hi.symm.trans hi'
      exact hm
    rw [hsame]
    refine ⟨⟨fun _ => hv, fun h => ?_, fun h => ?_⟩, fun w hw => ?_⟩
    · rw [hm] at h; cases h
    · rw [hm] at h; cases h
    · cases hv.symm.trans hw
      rw [ho]
      decide
  | true =>
    rw [offerTo_met hi hm]
    generalize hp : e.judge v x.time = p at hstate hout
    obtain ⟨v', r⟩ := p
    cases r with
    | none =>
      refine ⟨⟨fun h => ?_, fun _ w hw => ?_, fun _ w st hw => ?_⟩, fun w hw => ?_⟩
      · rw [hm] at h; cases h
      · cases hp.symm.trans hw
        exact hget v'
      · cases hp.symm.trans hw
      · cases (hget v').symm.trans hw
        rw [show v'.state = v.state from hstate, ho]
        decide
    | some st =>
      have hterm := (hout st rfl).terminal
      have hres := State.resolve_resolved (s := s.setEval j v') 64
          ((Ste.inState_iff _ _ _ _ _).2 ⟨he, hget v', hstate.trans ho⟩) hl
        hterm x.time
      refine ⟨⟨fun h => ?_, fun _ w hw => ?_, fun _ w st' hw => ?_⟩, fun w hw => ?_⟩
      · rw [hm] at h; cases h
      · cases hp.symm.trans hw
      · cases hp.symm.trans hw
        exact hres
      · obtain ⟨r, hr, -⟩ := hres
        cases hr.symm.trans hw
        exact StepState.not_pending_of_terminal hterm

/-- R32: the offers of one pass, the step's own turn among them. -/
theorem State.offers_judged {s : State} {x : Event} {j : Fin 64} {e : StepEntry} {v : StepEval} (hl : s.live = true)
    (hi : s.ste.inState j .opened = some (e, v)) : Judged (s.ste.openSteps.foldl (offerTo x) s) x j e v := by
  have hmem : j ∈ s.ste.openSteps := List.mem_filter.2 ⟨List.mem_finRange j, by rw [hi]; rfl⟩
  obtain ⟨pre, post, hsplit, hpre, hpost⟩ := nodup_split ((List.nodup_finRange 64).filter _) hmem
  obtain ⟨he, hv, ho⟩ := (Ste.inState_iff _ _ _ _ _).1 hi
  rw [show s.ste.openSteps = pre ++ j :: post from hsplit, List.foldl_append, List.foldl_cons]
  have hev := Evaluated.foldl (offerTo_evaluated x) s pre
  have hkept := State.turns_leaveApart (offerTo_leavesApart x) (offerTo_evaluated x) s (i := j) pre fun k hk =>
    .of_started (fun e => hpre (e ▸ hk)) fun w hw => by
      cases hv.symm.trans hw
      rw [ho]
      decide
  generalize pre.foldl (offerTo x) s = u at hev hkept
  have hiu : u.ste.inState j .opened = some (e, v) :=
    (Ste.inState_iff _ _ _ _ _).2 ⟨by rw [hev.frame.plan]; exact he, hkept.trans hv, ho⟩
  obtain ⟨hj, hnot⟩ := offerTo_judged (x := x) (hev.frame.live.trans hl) hiu
  exact hj.of_evals (Evaluated.foldl (offerTo_evaluated x) _ post) (State.turns_leaveApart (offerTo_leavesApart x)
    (offerTo_evaluated x) _ post fun k hk => .of_started (fun e => hpost (e ▸ hk)) hnot)

/-! ## A step resolved alone by an event (R46) -/

theorem State.setEval_setEval (s : State) (k : Fin 64) (v w : StepEval) : (s.setEval k v).setEval k w = s.setEval k w :=
  congrArg (fun l => s.setSte { s.ste with evals := l }) (Vector.set_set (hi := k.isLt) _)

/-- R46: a resolution takes the record given, whatever record the step had. -/
theorem State.setEval_resolveStep (s : State) (k : Fin 64) (w : StepEval) (e : StepEntry) (v : StepEval) (st : StepState)
    (time : Nat) : (s.setEval k w).resolveStep k e v st time = s.resolveStep k e v st time := by
  have h : (s.setEval k w).acted k e v st time = s.acted k e v st time := by
    unfold State.acted State.resolving
    rw [State.setEval_setEval]
  rw [State.resolveStep_eq, State.resolveStep_eq, h]

/-- R46: the resolution of an OPEN step, its record as just judged, with no PENDING step anchored to it. -/
theorem State.setEval_resolve_alone {s : State} {k : Fin 64} {e : StepEntry} {v : StepEval}
    (hi : s.ste.inState k .opened = some (e, v)) {w : StepEval} (hw : w.state = .opened) {st : StepState}
    (hst : st.terminal = true) (time : Nat)
    (hnone : ∀ (i : Fin 64) (e' : StepEntry) (v' : StepEval), s.ste.active[i] = some e' → s.ste.evals[i] = some v' →
      v'.state = .pending → e'.anchor ≠ .step k) :
    (s.setEval k w).resolve chainDepth k st time = s.resolveStep k e w st time := by
  have hget : (s.setEval k w).ste.evals[k] = some w := (State.setEval_get s k k w).trans (if_pos rfl)
  have hi' : (s.setEval k w).ste.inState k .opened = some (e, w) :=
    (Ste.inState_iff _ _ _ _ _).2 ⟨((Ste.inState_iff _ _ _ _ _).1 hi).1, hget, hw⟩
  have hothers := s.setEval_others k w
  refine (State.resolve_alone 64 hi' hst time fun i e' v' he' hv' hp' => ?_).trans (s.setEval_resolveStep k w e w st time)
  by_cases hik : i = k
  · subst hik
    cases hget.symm.trans hv'
    rw [hw] at hp'
    cases hp'
  · rw [hothers i hik] at hv'
    exact hnone i e' v' he' hv' hp'

/-- R32, R46: one pass of offers in which one step resolves and nothing else happens. -/
theorem State.offers_alone {s : State} {x : Event} {j : Fin 64} {e : StepEntry} {v v' : StepEval} {st : StepState}
    (hi : s.ste.inState j .opened = some (e, v)) (hm : e.cond.met x.body = true) (hjudge : e.judge v x.time = (v', some st))
    (hothers : ∀ (i : Fin 64) (e' : StepEntry) (w : StepEval), s.ste.active[i] = some e' → s.ste.evals[i] = some w →
      (w.state = .opened → i ≠ j → e'.cond.met x.body = false) ∧ (w.state = .pending → e'.anchor ≠ .step j)) :
    s.ste.openSteps.foldl (offerTo x) s = s.resolveStep j e v' st x.time := by
  have hmem : j ∈ s.ste.openSteps := List.mem_filter.2 ⟨List.mem_finRange j, by rw [hi]; rfl⟩
  obtain ⟨pre, post, hsplit, hpre, hpost⟩ := nodup_split ((List.nodup_finRange 64).filter _) hmem
  obtain ⟨he, hv, ho⟩ := (Ste.inState_iff _ _ _ _ _).1 hi
  obtain ⟨hstate, -, hout⟩ := e.judge_outcome v x.time
  rw [hjudge] at hstate hout
  have hturn : offerTo x s j = s.resolveStep j e v' st x.time := by
    rw [offerTo_met hi hm, hjudge]
    exact State.setEval_resolve_alone hi (hstate.trans ho) (hout st rfl).terminal x.time fun i e' w he' hw' hp' =>
      (hothers i e' w he' hw').2 hp'
  have hother := State.resolveStep_others s j e v' st x.time
  have hplan := (State.resolveStep_stepFrame s j e v' st x.time).plan
  rw [show s.ste.openSteps = pre ++ j :: post from hsplit, List.foldl_append, List.foldl_cons]
  have hfirst : pre.foldl (offerTo x) s = s := foldl_of_unchanged fun i hmem => offerTo_unmet fun e' w hi' => by
    obtain ⟨he', hw', ho'⟩ := (Ste.inState_iff _ _ _ _ _).1 hi'
    exact (hothers i e' w he' hw').1 ho' fun e => hpre (e ▸ hmem)
  rw [hfirst, hturn]
  refine foldl_of_unchanged fun i hmem => offerTo_unmet fun e' w hi' => ?_
  obtain ⟨he', hw', ho'⟩ := (Ste.inState_iff _ _ _ _ _).1 hi'
  have hij : i ≠ j := fun e => hpost (e ▸ hmem)
  rw [hplan] at he'
  rw [hother i hij] at hw'
  exact (hothers i e' w he' hw').1 ho' hij

/-- Settles O35: the step's own turn among the offers of the pass. -/
theorem eventsAreJudged : Obligations.EventsAreJudged := by
  refine ⟨Cond.met_iff, fun s k x j e v lo hi hr hx hsrc he hv ho hlo hhi => ?_⟩
  have hexec := State.eventDelivery_taken hx hsrc
  have hopen : (s.listing k x).ste.inState j .opened = some (e, v) := by
    rw [s.listing_eq k x]
    exact (Ste.inState_iff _ _ _ _ _).2 ⟨he, hv, ho⟩
  have hlive : (s.listing k x).live = true := by
    rw [s.listing_eq k x]
    exact State.live_of (.inr hr)
  have hdeliver : (s.delivering k).deliver x =
      ((s.listing k x).ste.openSteps.foldl (offerTo x) (s.listing k x)).closePass := by
    unfold State.deliver
    rw [show (s.delivering k).rc.runState = .running from hr]
    rfl
  have hjudged := State.offers_judged (x := x) hlive hopen
  have hframe := offers_stepFrame x (s.listing k x) (s.listing k x).ste.openSteps
  have halone := fun v' st => State.offers_alone (x := x) (v' := v') (st := st) hopen
  rw [hdeliver] at hexec
  generalize (s.listing k x).ste.openSteps.foldl (offerTo x) (s.listing k x) = u at hexec hjudged hframe halone
  have hj : Judged u.closePass x j e v := ⟨hjudged.unmet, hjudged.stays, hjudged.resolves⟩
  refine ⟨u.closePass, hexec, ?_, ?_, ?_, ?_⟩
  · rintro (hm | hc)
    · exact hj.unmet hm
    · cases hm : e.cond.met x.body with
      | false => exact hj.unmet hm
      | true => exact hj.stays hm v (StepEntry.judge_check hc x.time)
  · intro hm ha
    have hhi := hhi (by rw [ha]; decide)
    refine ⟨fun hlt hf => hj.stays hm v ?_, fun hlt hf => ?_,
      fun h1 h2 => hj.stays hm v (StepEntry.judge_after ha hlo hhi h1 h2),
      fun h1 h2 hc => hj.stays hm _ ?_, fun h1 h2 hc => ?_⟩
    · rw [StepEntry.judge_before ha hlo hlt, hf]
      rfl
    · obtain ⟨r, hv', hr', hrec, hflag⟩ := hj.resolves hm v .early (by rw [StepEntry.judge_before ha hlo hlt, hf]; rfl)
      cases hr' rfl
      rw [if_pos ha] at hrec
      exact ⟨hv', fun hreq => hflag hreq rfl, hrec⟩
    · rw [StepEntry.judge_within ha hlo hhi h1 h2, if_neg (Nat.not_le.2 hc)]
    · obtain ⟨r, hv', -, hrec, -⟩ := hj.resolves hm _ .matched (by rw [StepEntry.judge_within ha hlo hhi h1 h2, if_pos hc])
      rw [if_pos ha] at hrec
      exact ⟨r, hv', hrec⟩
  · intro hm hg
    have hhi := hhi (by rw [hg]; decide)
    refine ⟨fun hor => hj.stays hm v ?_, fun h1 h2 => ?_⟩
    · rw [StepEntry.judge_guard hg hlo hhi, if_neg (by omega)]
    · obtain ⟨r, hv', hr', hrec, hflag⟩ := hj.resolves hm v .violated
        (by rw [StepEntry.judge_guard hg hlo hhi, if_pos ⟨h1, h2⟩])
      cases hr' rfl
      rw [if_neg (by rw [hg]; decide)] at hrec
      exact ⟨hv', fun hreq => hflag hreq rfl, hrec⟩
  · have hlook : u.closePass.ste.lookback = (s.listing k x).ste.lookback := hframe.lookback
    have hmark : u.closePass.ste.evictionMark = (s.listing k x).ste.evictionMark := hframe.evictionMark
    rw [hlook, hmark]
    intro listed hothers hm
    have hlisted : listed = s.listing k x := (s.listing_eq k x).symm
    have hresolved : ∀ v' st, st.outcome → e.judge v x.time = (v', some st) →
        ResolvedAlone listed u.closePass j e v' st x.time := fun v' st hst hjudge => by
      rw [halone v' st hm hjudge ?_, hlisted]
      · exact State.resolveStep_alone hlive ((Ste.inState_iff _ _ _ _ _).1 hopen).1 v' hst x.time
      · rw [← hlisted]
        exact hothers
    refine ⟨fun ha hlt hf => hresolved v .early (.inl rfl) ?_, fun ha h1 h2 hc => hresolved _ .matched (.inr (.inl rfl)) ?_,
      fun hg h1 h2 => hresolved v .violated (.inr (.inr (.inl rfl))) ?_⟩
    · rw [StepEntry.judge_before ha hlo hlt, hf]
      rfl
    · rw [StepEntry.judge_within ha hlo (hhi (by rw [ha]; decide)) h1 h2, if_pos hc]
    · rw [StepEntry.judge_guard hg hlo (hhi (by rw [hg]; decide)), if_pos ⟨h1, h2⟩]

end Sys2Proof.Machine

end


section
/-! PROOFS. The decision of a CHECK step by its source as it was (R41, R42), and the turn of a step that is due (R37). -/

namespace Sys2Proof.Machine

/-! ## Reconstruction (R41, R42) -/

/-- R42: undoing entries that each give the state before them, or say nothing of it, gives what the oldest of them says. -/
theorem Cond.undo_findSome {α : Type} {c : Cond} {f : Event → Option α} {g : α → SourceState}
    (h : ∀ y acc, c.undo y.body acc = (f y).elim acc g) (now : α) (l : List Event) :
    l.foldr (fun x acc => c.undo x.body acc) (g now) = g ((l.findSome? f).getD now) := by
  induction l with
  | nil => rfl
  | cons x l ih =>
    rw [List.foldr_cons, ih, h, List.findSome?_cons]
    cases f x <;> rfl

/-- R41: the entries above lo, and then those not yet delivered. -/
theorem State.reconstruct_eq (s : State) (c : Cond) (lo : Nat) : s.reconstruct c lo =
    (s.ste.lookback.filter (fun y => decide (lo < y.time)) ++ s.ste.events).foldr (fun x acc => c.undo x.body acc)
      (s.sourceNow c) := by
  rw [List.foldr_append, List.foldr_filter]
  unfold State.reconstruct Cond.undoAbove
  simp only [decide_eq_true_eq]

theorem Cond.undo_scan (c : Cond) (n : Fin 8) (o : ScanOutcome) (now : SourceState) : c.undo (.scan n o) now = now := by
  cases c <;> rfl

/-- R41, R131: what an evaluation of steps leads to does not bear on a reconstruction. -/
theorem Evaluated.reconstruct {s t : State} (h : Evaluated s t) (c : Cond) (lo : Nat) :
    t.reconstruct c lo = s.reconstruct c lo := by
  obtain ⟨l, hl, hs⟩ := h.events
  have hscan : ∀ now, l.foldr (fun x acc => c.undo x.body acc) now = now := fun now => by
    clear hl
    induction l with
    | nil => rfl
    | cons x l ih =>
      obtain ⟨n, o, hx⟩ := hs x List.mem_cons_self
      rw [List.foldr_cons, ih fun y hy => hs y (List.mem_cons_of_mem _ hy), hx, Cond.undo_scan]
  have hnow : t.sourceNow c = s.sourceNow c := by
    cases c <;> simp only [State.sourceNow, h.frame.mc, h.frame.lau, h.frame.rm, h.frame.cdp]
  unfold State.reconstruct
  rw [hl, List.foldr_append, hscan, hnow, h.frame.lookback]

theorem Cond.holds_event {c : Cond} (h : c.isEvent = true) (st : SourceState) : c.holds st = false := by
  cases c <;> cases st <;> simp_all [Cond.isEvent, Cond.holds]

theorem Cond.holds_lastCode (val m : Byte) (head : Option Byte) : Cond.holds (.lastCode val m) (.code head) = true ↔
    ∃ cd, head = some cd ∧ cd &&& m = val := by
  cases head <;> simp [Cond.holds]

/-- R41, R42: the state of a CHECK condition's source as of lo, read off the oldest entry that says it. -/
theorem State.reconstruct_holds (s : State) (c : Cond) (lo : Nat) :
    let past := s.ste.lookback.filter (fun y => decide (lo < y.time)) ++ s.ste.events
    c.holds (s.reconstruct c lo) = true ↔ match c with
      | .level c l => (past.findSome? fun y => match y.body with
          | .edge c' dir => if c' = c then some (decide (dir = .falling)) else none
          | .rail b present levels => if b.val = c.val / 8 then
              some (!present && (levels.getD 0).getLsbD (c.val % 8)) else none
          | _ => none).getD s.mc[c].level = l
      | .railState b p => (past.findSome? fun y => match y.body with
          | .rail b' present _ => if b' = b then some (!present) else none
          | _ => none).getD s.lau[b].present = p
      | .rateState m st => (past.findSome? fun y => match y.body with
          | .rate m' _ left => if m' = m then some left else none
          | _ => none).getD s.rm[m].state = st
      | .lastCode val m => ∃ cd, (past.findSome? fun y => match y.body with
          | .code _ prior => some prior
          | _ => none).getD (s.cdp.history.head?.map CodeEntry.code) = some cd ∧ cd &&& m = val
      | .always => True
      | _ => False := by
  intro past
  rw [State.reconstruct_eq]
  cases c with
  | level c l =>
    show Cond.holds _ (List.foldr _ (SourceState.level _) past) = true ↔ _
    rw [Cond.undo_findSome (g := SourceState.level)]
    · exact beq_iff_eq.trans eq_comm
    · intro y acc
      cases y.body with
      | edge c' d =>
        dsimp only [Cond.undo]
        by_cases h : c' = c
        · rw [if_pos h, if_pos h.symm]
          exact congrArg SourceState.level (beq_eq_decide d Dir.falling)
        · rw [if_neg h, if_neg (Ne.symm h)]
          rfl
      | rail b present levels =>
        dsimp only [Cond.undo]
        have hb : chanBank c = b ↔ b.val = c.val / 8 := by
          rw [Fin.ext_iff]
          exact eq_comm
        by_cases h : b.val = c.val / 8
        · rw [if_pos h, if_pos (hb.2 h)]
          cases present <;> rfl
        · rw [if_neg h, if_neg (mt hb.1 h)]
          rfl
      | code | text | rate | scan => rfl
  | railState b p =>
    show Cond.holds _ (List.foldr _ (SourceState.rail _) past) = true ↔ _
    rw [Cond.undo_findSome (g := SourceState.rail)]
    · exact beq_iff_eq.trans eq_comm
    · intro y acc
      cases y.body with
      | rail b' present levels =>
        dsimp only [Cond.undo]
        by_cases h : b' = b
        · rw [if_pos h, if_pos h.symm]
          rfl
        · rw [if_neg h, if_neg (Ne.symm h)]
          rfl
      | edge | code | text | rate | scan => rfl
  | rateState m st =>
    show Cond.holds _ (List.foldr _ (SourceState.rate _) past) = true ↔ _
    rw [Cond.undo_findSome (g := SourceState.rate)]
    · exact beq_iff_eq.trans eq_comm
    · intro y acc
      cases y.body with
      | rate m' entered left =>
        dsimp only [Cond.undo]
        by_cases h : m' = m
        · rw [if_pos h, if_pos h.symm]
          rfl
        · rw [if_neg h, if_neg (Ne.symm h)]
          rfl
      | edge | code | text | rail | scan => rfl
  | lastCode val m =>
    show Cond.holds _ (List.foldr _ (SourceState.code _) past) = true ↔ _
    rw [Cond.undo_findSome (g := SourceState.code)]
    · exact Cond.holds_lastCode val m _
    · intro y acc
      cases y.body <;> rfl
  | always => exact iff_of_true rfl trivial
  | edge | code | text | rate | rail | scan => exact iff_of_false (Bool.eq_false_iff.1 (Cond.holds_event rfl _)) id

end Sys2Proof.Machine

end


section
/-! PROOFS. The pass of the decision times reached (R37, R39, R40, R41), and the steps skipped with a failed one (R45). -/

namespace Sys2Proof.Machine

/-! ## The turn of a step that is due (R37) -/

theorem StepEval.decisionDue_iff (v : StepEval) (time : Nat) : v.decisionDue time = true ↔ ∃ d, v.decision = some d ∧
    d ≤ time := by
  unfold StepEval.decisionDue
  cases v.decision <;> simp

/-- R37: a step that is not OPEN, or not due, is left as it is. -/
theorem decideStep_idle {s : State} {j : Fin 64} (h : ∀ (e : StepEntry) (v : StepEval) (d : Nat),
    s.ste.inState j .opened = some (e, v) → v.decision = some d → s.rc.timeBase < d) : decideStep s j = s := by
  unfold decideStep
  split
  · rfl
  · rename_i e v hi
    refine if_neg fun hd => ?_
    obtain ⟨d, hd, hle⟩ := (v.decisionDue_iff _).1 hd
    exact Nat.not_le.2 (h e v d hi hd) hle

theorem decideStep_due {s : State} {j : Fin 64} {e : StepEntry} {v : StepEval} {d : Nat}
    (hi : s.ste.inState j .opened = some (e, v)) (hd : v.decision = some d) (hle : d ≤ s.rc.timeBase) :
    decideStep s j = (s.setEval j (s.decideEval e v)).resolve chainDepth j (s.verdictOf e v).1 (s.verdictOf e v).2 := by
  unfold decideStep
  rw [hi]
  exact if_pos ((v.decisionDue_iff _).2 ⟨d, hd, hle⟩)

theorem decideStep_leavesApart (s : State) (j : Fin 64) : s.LeavesApart j (decideStep s j) := by
  unfold decideStep
  split
  · exact .refl j s
  · split
    · exact s.setEval_resolve_leavesApart _ j _ _ _
    · exact .refl j s

/-- R41: a decision does not depend on what came before it in the pass. -/
theorem Evaluated.verdictOf {s t : State} (h : Evaluated s t) (e : StepEntry) (v : StepEval) :
    t.verdictOf e v = s.verdictOf e v := by
  unfold State.verdictOf
  simp only [h.reconstruct]

theorem Evaluated.decideEval {s t : State} (h : Evaluated s t) (e : StepEntry) (v : StepEval) :
    t.decideEval e v = s.decideEval e v := by
  unfold State.decideEval
  rw [h.frame.evictionMark]

theorem State.decideEval_state (s : State) (e : StepEntry) (v : StepEval) : (s.decideEval e v).state = v.state := by
  rw [State.decideEval_eq]

/-- A PENDING step out of reach of the other steps' turns waits. -/
theorem State.decides_wait (s : State) {i : Fin 64} {v : StepEval} (hv : s.ste.evals[i] = some v) (hp : v.state = .pending)
    (l : List (Fin 64)) (h : ∀ k ∈ l, k ≠ i → s.Apart k i) : (l.foldl decideStep s).ste.evals[i] = some v := by
  induction l generalizing s with
  | nil => exact hv
  | cons k l ih =>
    rw [List.foldl_cons]
    by_cases hk : k = i
    · subst hk
      rw [decideStep_idle fun e w d hi => ?_]
      · exact ih s hv fun j hj => h j (List.mem_cons_of_mem _ hj)
      · obtain ⟨-, hw, ho⟩ := (Ste.inState_iff _ _ _ _ _).1 hi
        cases hv.symm.trans hw
        rw [hp] at ho
        cases ho
    · have hki := h k List.mem_cons_self hk
      have hleaves := decideStep_leavesApart s k
      refine ih (decideStep s k) ((hleaves i hki).trans hv) fun j hj hji => ?_
      exact (h j (List.mem_cons_of_mem _ hj) hji).after hki hleaves (decideStep_stepFrame s k).plan

/-- A step not PENDING is left as it is by the turns of the others. -/
theorem State.decides_keep (s : State) {i : Fin 64} (h : ∀ v, s.ste.evals[i] = some v → v.state ≠ .pending)
    {l : List (Fin 64)} (hi : i ∉ l) : (l.foldl decideStep s).ste.evals[i] = s.ste.evals[i] :=
  State.turns_leaveApart decideStep_leavesApart decideStep_evaluated s l fun _ hk => .of_started (fun e => hi (e ▸ hk)) h

/-- R30, R37: a step in a terminal state, and an OPEN one that is not due, are left as they are by every turn. -/
theorem State.decides_kept (s : State) {i : Fin 64} (h : ∀ v, s.ste.evals[i] = some v → v.state ≠ .pending ∧
      (v.state = .opened → ∀ d, v.decision = some d → s.rc.timeBase < d))
    (l : List (Fin 64)) : (l.foldl decideStep s).ste.evals[i] = s.ste.evals[i] := by
  induction l generalizing s with
  | nil => rfl
  | cons k l ih =>
    have hone : (decideStep s k).ste.evals[i] = s.ste.evals[i] := by
      by_cases hk : i = k
      · subst hk
        rw [decideStep_idle fun e w d hi hd => ?_]
        obtain ⟨-, hw, ho⟩ := (Ste.inState_iff _ _ _ _ _).1 hi
        exact (h w hw).2 ho d hd
      · exact decideStep_leavesApart s k i (.of_started hk fun w hw => (h w hw).1)
    have hrc := (decideStep_stepFrame s k).rc
    exact (ih (decideStep s k) fun v hv => by rw [hrc]; exact h v (hone ▸ hv)).trans hone

/-- R37: the turn of a step that is due. -/
theorem State.decides_turn {s : State} {j : Fin 64} {e : StepEntry} {v : StepEval} {d : Nat}
    (hi : s.ste.inState j .opened = some (e, v)) (hd : v.decision = some d) (hle : d ≤ s.rc.timeBase) :
    ∃ (u : State) (pre post : List (Fin 64)), (List.finRange 64).foldl decideStep s = post.foldl decideStep
        ((u.setEval j (s.decideEval e v)).resolve chainDepth j (s.verdictOf e v).1 (s.verdictOf e v).2) ∧
      u = pre.foldl decideStep s ∧ u.ste.inState j .opened = some (e, v) ∧ Evaluated s u ∧ j ∉ pre ∧ j ∉ post := by
  obtain ⟨pre, post, hsplit, hpre, hpost⟩ := finRange_split j
  obtain ⟨he, hv, ho⟩ := (Ste.inState_iff _ _ _ _ _).1 hi
  have hev := Evaluated.foldl decideStep_evaluated s pre
  have hkept := s.decides_keep (i := j) (fun w hw => by
    cases hv.symm.trans hw
    rw [ho]
    decide) hpre
  refine ⟨_, pre, post, ?_, rfl, ?_, hev, hpre, hpost⟩
  · rw [hsplit, List.foldl_append, List.foldl_cons]
    generalize pre.foldl decideStep s = u at hev hkept
    have hiu : u.ste.inState j .opened = some (e, v) :=
      (Ste.inState_iff _ _ _ _ _).2 ⟨by rw [hev.frame.plan]; exact he, hkept.trans hv, ho⟩
    rw [decideStep_due hiu hd (by rw [hev.frame.rc]; exact hle), hev.decideEval, hev.verdictOf]
  · exact (Ste.inState_iff _ _ _ _ _).2 ⟨by rw [hev.frame.plan]; exact he, hkept.trans hv, ho⟩

/-- R37, R39, R40, R41: a step that is due when the pass begins resolves as decided then. -/
theorem State.decides_resolved {s : State} (hl : s.live = true) {j : Fin 64} {e : StepEntry} {v : StepEval} {d : Nat}
    (hi : s.ste.inState j .opened = some (e, v)) (hd : v.decision = some d) (hle : d ≤ s.rc.timeBase) :
    StepResolved ((List.finRange 64).foldl decideStep s) j e (s.decideEval e v) (s.verdictOf e v).1 (s.verdictOf e v).2 := by
  obtain ⟨u, pre, post, hfold, -, hiu, hev, -, hpost⟩ := State.decides_turn hi hd hle
  obtain ⟨he, -, ho⟩ := (Ste.inState_iff _ _ _ _ _).1 hiu
  have hterm := (s.verdictOf_outcome e v).terminal
  have hget : (u.setEval j (s.decideEval e v)).ste.evals[j] = some (s.decideEval e v) :=
    (State.setEval_get u j j _).trans (if_pos rfl)
  have hres := State.resolve_resolved (s := u.setEval j (s.decideEval e v)) 64
    ((Ste.inState_iff _ _ _ _ _).2 ⟨he, hget, (s.decideEval_state e v).trans ho⟩) (hev.frame.live.trans hl) hterm
    (s.verdictOf e v).2
  rw [hfold]
  refine hres.of_evals (Evaluated.foldl decideStep_evaluated _ post) (State.decides_keep _ (fun w hw => ?_) hpost)
  obtain ⟨r, hr, -⟩ := hres
  cases hr.symm.trans hw
  exact StepState.not_pending_of_terminal hterm

/-! ## The steps anchored to a failed one (R45) -/

theorem StepState.skipped_done : StepState.skipped ≠ .pending ∧ StepState.skipped ≠ .opened := by decide

theorem skipOne_others (time : Nat) (acc : State × List (Fin 64)) {i j : Fin 64} (hij : i ≠ j) :
    (skipOne time acc j).1.ste.evals[i] = acc.1.ste.evals[i] := by
  unfold skipOne
  split
  · split
    · split
      · exact State.resolveStep_others acc.1 j _ _ .skipped time i hij
      · rfl
    · rfl
  · rfl

theorem skipOne_grows (time : Nat) (acc : State × List (Fin 64)) (j : Fin 64) {b : Fin 64} (h : b ∈ acc.2) :
    b ∈ (skipOne time acc j).2 := by
  unfold skipOne
  split
  · split
    · split
      · exact List.mem_cons_of_mem _ h
      · exact h
    · exact h
  · exact h

theorem skips_others (time : Nat) {l : List (Fin 64)} (acc : State × List (Fin 64)) {i : Fin 64} (hi : i ∉ l) :
    (l.foldl (skipOne time) acc).1.ste.evals[i] = acc.1.ste.evals[i] ∧ ∀ b ∈ acc.2, b ∈ (l.foldl (skipOne time) acc).2 := by
  induction l generalizing acc with
  | nil => exact ⟨rfl, fun _ => id⟩
  | cons j l ih =>
    obtain ⟨hij, hil⟩ := not_or.1 (mt List.mem_cons.2 hi)
    obtain ⟨hev, hmem⟩ := ih (skipOne time acc j) hil
    exact ⟨hev.trans (skipOne_others time acc hij), fun b hb => hmem b (skipOne_grows time acc j hb)⟩

/-- R45: a step made SKIPPED. -/
theorem State.resolveStep_skipped (s : State) (i : Fin 64) (e : StepEntry) (v : StepEval) (time : Nat) :
    (s.resolveStep i e v .skipped time).ste.evals[i] = some { v with state := .skipped, resolution := some time } := by
  obtain ⟨r, hr, hsame⟩ := s.acted_own i e v .skipped time
  cases hsame rfl
  rw [State.resolveStep_acted s hr, State.raiseIf_ste, State.hand_ste, hr]

/-- R45: the turn of a PENDING step anchored to a step of the chain. -/
theorem skipOne_skips {acc : State × List (Fin 64)} (time : Nat) {i a : Fin 64} {e : StepEntry} {v : StepEval}
    (hi : acc.1.ste.inState i .pending = some (e, v)) (ha : e.anchor = .step a) (hmem : a ∈ acc.2) :
    (skipOne time acc i).1.ste.evals[i] = some { v with state := .skipped, resolution := some time } ∧
      i ∈ (skipOne time acc i).2 := by
  have h : skipOne time acc i = (acc.1.resolveStep i e v .skipped time, i :: acc.2) := by
    unfold skipOne
    rw [hi]
    dsimp only
    rw [ha]
    exact if_pos hmem
  rw [h]
  exact ⟨acc.1.resolveStep_skipped i e v time, List.mem_cons_self⟩

/-- R45: a PENDING step anchored to a step that fails is SKIPPED with it. -/
theorem State.skipChain_skips {s : State} {k i : Fin 64} {e : StepEntry} {v : StepEval} (time : Nat)
    (hi : s.ste.inState i .pending = some (e, v)) (ha : e.anchor = .step k) :
    (s.skipChain k time).ste.evals[i] = some { v with state := .skipped, resolution := some time } := by
  obtain ⟨pre, post, hsplit, hpre, hpost⟩ := finRange_split i
  obtain ⟨he, hv, hp⟩ := (Ste.inState_iff _ _ _ _ _).1 hi
  unfold State.skipChain
  rw [hsplit, List.foldl_append, List.foldl_cons]
  obtain ⟨hkept, hgrows⟩ := skips_others time (s, [k]) hpre
  have hplan : (pre.foldl (skipOne time) (s, [k])).1.ste.active = s.ste.active :=
    (skips_evaluated time pre (s, [k])).frame.plan
  have hiu : (pre.foldl (skipOne time) (s, [k])).1.ste.inState i .pending = some (e, v) :=
    (Ste.inState_iff _ _ _ _ _).2 ⟨by rw [hplan]; exact he, hkept.trans hv, hp⟩
  obtain ⟨hskip, -⟩ := skipOne_skips time hiu ha (hgrows k (List.mem_singleton_self k))
  exact (skips_others time _ hpost).1.trans hskip

/-- R45: in a resolution into a failure. -/
theorem State.resolve_skips {s : State} (n : Nat) {k i : Fin 64} {e e' : StepEntry} {v v' : StepEval}
    (hk : s.ste.inState k .opened = some (e, v)) {st : StepState} (hst : st.success = false) (time : Nat)
    (hi : s.ste.inState i .pending = some (e', v')) (ha : e'.anchor = .step k) :
    (State.resolve (n + 1) k st time s).ste.evals[i] = some { v' with state := .skipped, resolution := some time } := by
  obtain ⟨he', hv', hp⟩ := (Ste.inState_iff _ _ _ _ _).1 hi
  obtain ⟨-, hv, ho⟩ := (Ste.inState_iff _ _ _ _ _).1 hk
  have hik : i ≠ k := fun h => by
    subst h
    cases hv.symm.trans hv'
    rw [ho] at hp
    cases hp
  rw [State.resolve_turns n hk, hst, if_neg Bool.false_ne_true]
  refine State.skipChain_skips time ((Ste.inState_iff _ _ _ _ _).2 ⟨?_, ?_, hp⟩) ha
  · rw [(State.resolveStep_stepFrame s k e v st time).plan]
    exact he'
  · rw [State.resolveStep_others s k e v st time i hik]
    exact hv'

/-- R45: in the pass of the decision times reached. -/
theorem State.decides_skips {s : State} {j i : Fin 64} {e e' : StepEntry} {v v' : StepEval} {d : Nat}
    (hj : s.ste.inState j .opened = some (e, v)) (hd : v.decision = some d) (hle : d ≤ s.rc.timeBase)
    (hst : (s.verdictOf e v).1.success = false) (hi : s.ste.inState i .pending = some (e', v')) (ha : e'.anchor = .step j) :
    ((List.finRange 64).foldl decideStep s).ste.evals[i] =
      some { v' with state := .skipped, resolution := some (s.verdictOf e v).2 } := by
  obtain ⟨u, pre, post, hfold, hu, hju, hev, hpre, hpost⟩ := State.decides_turn hj hd hle
  obtain ⟨he', hv', hp⟩ := (Ste.inState_iff _ _ _ _ _).1 hi
  obtain ⟨he, hv, ho⟩ := (Ste.inState_iff _ _ _ _ _).1 hj
  have hjnot : ∀ w, s.ste.evals[j] = some w → w.state ≠ .pending := fun w hw => by
    cases hv.symm.trans hw
    rw [ho]
    decide
  have hij : i ≠ j := fun h => by
    subst h
    exact hjnot v' hv' hp
  have hwait := s.decides_wait hv' hp pre fun k hk hki => .of_anchor (Ne.symm hki) he' ha (fun e => hpre (e ▸ hk)) hjnot
  rw [← hu] at hwait
  have hplan : (u.setEval j (s.decideEval e v)).ste.active = s.ste.active := hev.frame.plan
  have hget : (u.setEval j (s.decideEval e v)).ste.evals[j] = some (s.decideEval e v) :=
    (State.setEval_get u j j _).trans (if_pos rfl)
  have hskip := State.resolve_skips (s := u.setEval j (s.decideEval e v)) 64 (k := j) (i := i)
    ((Ste.inState_iff _ _ _ _ _).2 ⟨hplan ▸ he, hget, (s.decideEval_state e v).trans ho⟩) hst (s.verdictOf e v).2
    ((Ste.inState_iff _ _ _ _ _).2 ⟨hplan ▸ he', (State.setEval_others u j _ i hij).trans hwait, hp⟩) ha
  rw [hfold, show chainDepth = 64 + 1 from rfl, State.decides_kept _ (fun w hw => ?_) post]
  · exact hskip
  · cases hskip.symm.trans hw
    exact ⟨StepState.skipped_done.1, fun h => absurd h StepState.skipped_done.2⟩

end Sys2Proof.Machine

end


section
/-! PROOFS. A chain of two PENDING steps through a pass (R45): where the first is SKIPPED the second is, with its time. -/

namespace Sys2Proof.Machine

/-- R21: step `i` of record `v` waits for step `a`, which waits itself. -/
structure Waits (a i : Fin 64) (v : StepEval) (t : State) : Prop where
  first : ∃ w, t.ste.evals[a] = some w ∧ w.state = .pending
  second : t.ste.evals[i] = some v

/-- R45: step `a` is SKIPPED, and step `i` with it. -/
structure SkippedBoth (a i : Fin 64) (v : StepEval) (t : State) : Prop where
  both : ∃ w, t.ste.evals[a] = some w ∧ w.state = .skipped ∧
    t.ste.evals[i] = some { v with state := .skipped, resolution := w.resolution }

/-- R30: step `a` has opened or resolved otherwise. -/
structure Unskipped (a : Fin 64) (t : State) : Prop where
  state : ∃ w, t.ste.evals[a] = some w ∧ w.state ≠ .pending ∧ w.state ≠ .skipped

/-- R21, R45: what may have become of a chain of two PENDING steps. -/
inductive ChainState (a i : Fin 64) (v : StepEval) (t : State) : Prop where
  | waits : Waits a i v t → ChainState a i v t
  | skipped : SkippedBoth a i v t → ChainState a i v t
  | unskipped : Unskipped a t → ChainState a i v t

section
variable {a i : Fin 64} {v : StepEval} {s t : State}

theorem Waits.of_evals (h : Waits a i v s) (ha : t.ste.evals[a] = s.ste.evals[a]) (hi : t.ste.evals[i] = s.ste.evals[i]) :
    Waits a i v t := ⟨by rw [ha]; exact h.first, by rw [hi]; exact h.second⟩

theorem SkippedBoth.of_evals (h : SkippedBoth a i v s) (ha : t.ste.evals[a] = s.ste.evals[a])
    (hi : t.ste.evals[i] = s.ste.evals[i]) : SkippedBoth a i v t := ⟨by rw [ha, hi]; exact h.both⟩

theorem Unskipped.of_evals (h : Unskipped a s) (ha : t.ste.evals[a] = s.ste.evals[a]) : Unskipped a t :=
  ⟨by rw [ha]; exact h.state⟩

theorem ChainState.of_evals (h : ChainState a i v s) (ha : t.ste.evals[a] = s.ste.evals[a])
    (hi : t.ste.evals[i] = s.ste.evals[i]) : ChainState a i v t := by
  cases h with
  | waits h => exact .waits (h.of_evals ha hi)
  | skipped h => exact .skipped (h.of_evals ha hi)
  | unskipped h => exact .unskipped (h.of_evals ha)

theorem SkippedBoth.started (h : SkippedBoth a i v s) :
    (∀ w, s.ste.evals[a] = some w → w.state ≠ .pending ∧ w.state ≠ .opened) ∧
      ∀ w, s.ste.evals[i] = some w → w.state ≠ .pending ∧ w.state ≠ .opened := by
  obtain ⟨w, ha, hs, hi⟩ := h.both
  refine ⟨fun u hu => ?_, fun u hu => ?_⟩
  · cases ha.symm.trans hu
    rw [hs]
    exact StepState.skipped_done
  · cases hi.symm.trans hu
    exact StepState.skipped_done

theorem Unskipped.started (h : Unskipped a s) : ∀ w, s.ste.evals[a] = some w → w.state ≠ .pending := by
  obtain ⟨w, ha, hp, -⟩ := h.state
  intro u hu
  cases ha.symm.trans hu
  exact hp

/-! ## Through a chain of failures (R45) -/

/-- The turns of a step and of one of a higher number. -/
theorem chain_split (h : a < i) : ∃ p m q, List.finRange 64 = p ++ a :: (m ++ i :: q) ∧
    (a ∉ p ∧ i ∉ p) ∧ (a ∉ m ∧ i ∉ m) ∧ a ∉ q ∧ i ∉ q := by
  obtain ⟨p, l, hl, hap, hal⟩ := finRange_split a
  have hlt : ∀ x ∈ p, x < a := by
    have := List.pairwise_lt_finRange 64
    rw [hl, List.pairwise_append] at this
    exact fun x hx => this.2.2 x hx a List.mem_cons_self
  have hip : i ∉ p := fun hi => absurd (hlt i hi) (not_lt.2 h.le)
  have hmem : i ∈ l := by
    have : i ∈ p ++ a :: l := hl ▸ List.mem_finRange i
    rcases List.mem_append.1 this with hi | hi
    · exact absurd hi hip
    · exact (List.mem_cons.1 hi).resolve_left h.ne'
  have hn : l.Nodup := by
    have := List.nodup_finRange 64
    rw [hl] at this
    exact (List.nodup_cons.1 (List.nodup_append.1 this).2.1).2
  obtain ⟨m, q, hmq, him, hiq⟩ := nodup_split hn hmem
  subst hmq
  exact ⟨p, m, q, hl, ⟨hap, hip⟩, ⟨fun ha => hal (List.mem_append_left _ ha), him⟩,
    fun ha => hal (List.mem_append_right _ (List.mem_cons_of_mem _ ha)), hiq⟩

/-- R45: the turn of one step of the chain. -/
theorem skipOne_cases (time : Nat) (acc : State × List (Fin 64)) (j : Fin 64) : skipOne time acc j = acc ∨
    ∃ e w, acc.1.ste.inState j .pending = some (e, w) ∧
      skipOne time acc j = (acc.1.resolveStep j e w .skipped time, j :: acc.2) := by
  unfold skipOne
  split
  · rename_i e w hj
    split
    · split
      · exact .inr ⟨e, w, hj, rfl⟩
      · exact .inl rfl
    · exact .inl rfl
  · exact .inl rfl

theorem skips_mem (time : Nat) {l : List (Fin 64)} (acc : State × List (Fin 64)) {b : Fin 64} (hl : b ∉ l) (hb : b ∉ acc.2) :
    b ∉ (l.foldl (skipOne time) acc).2 := by
  induction l generalizing acc with
  | nil => exact hb
  | cons j l ih =>
    obtain ⟨hbj, hbl⟩ := not_or.1 (mt List.mem_cons.2 hl)
    refine ih _ hbl ?_
    rcases skipOne_cases time acc j with h | ⟨e, w, -, h⟩ <;> rw [h]
    · exact hb
    · exact fun hmem => (List.mem_cons.1 hmem).elim hbj hb

/-- R45: a chain of failures of another step, `i` standing behind the step `a` it is anchored to. -/
theorem Waits.skipChain (h : Waits a i v s) (hai : a < i) {e : StepEntry} (he : s.ste.active[i] = some e)
    (hp : v.state = .pending) (hanchor : e.anchor = .step a) {k : Fin 64} (hk : k ≠ a) (time : Nat) :
    Waits a i v (s.skipChain k time) ∨ SkippedBoth a i v (s.skipChain k time) := by
  obtain ⟨p, m, q, hsplit, ⟨hap, hip⟩, ⟨ham, him⟩, haq, hiq⟩ := chain_split hai
  have hev := skips_evaluated time p (s, [k])
  have hnotin := skips_mem time (s, [k]) hap (fun h => hk (List.mem_singleton.1 h).symm)
  have hwaits := h.of_evals (skips_others time (s, [k]) hap).1 (skips_others time (s, [k]) hip).1
  unfold State.skipChain
  rw [hsplit, List.foldl_append, List.foldl_cons, List.foldl_append, List.foldl_cons]
  generalize p.foldl (skipOne time) (s, [k]) = acc at hev hnotin hwaits
  have hactive : acc.1.ste.active[i] = some e := by
    rw [hev.frame.plan]
    exact he
  rcases skipOne_cases time acc a with hone | ⟨ea, w, hia, hone⟩ <;> rw [hone]
  · left
    have hplan := (skips_evaluated time m acc).frame.plan
    have hnotin' := skips_mem time acc ham hnotin
    have hwaits' := hwaits.of_evals (skips_others time acc ham).1 (skips_others time acc him).1
    generalize m.foldl (skipOne time) acc = acc' at hnotin' hwaits' hplan
    rw [skipOne_of_none time fun e' w b hi' hb => ?_]
    · exact hwaits'.of_evals (skips_others time acc' haq).1 (skips_others time acc' hiq).1
    · obtain ⟨he', -, -⟩ := (Ste.inState_iff _ _ _ _ _).1 hi'
      cases (hplan ▸ hactive).symm.trans he'
      cases hanchor.symm.trans hb
      exact hnotin'
  · right
    have hskipped := acc.1.resolveStep_skipped a ea w time
    have hothers := State.resolveStep_others acc.1 a ea w .skipped time i hai.ne'
    have hplan := (State.resolveStep_stepFrame acc.1 a ea w .skipped time).plan
    generalize acc.1.resolveStep a ea w .skipped time = u at hskipped hothers hplan
    have hplan' := (skips_evaluated time m (u, a :: acc.2)).frame.plan
    obtain ⟨ha', hmem⟩ := skips_others time (u, a :: acc.2) ham
    have hi' := (skips_others time (u, a :: acc.2) him).1
    have hmem := hmem a List.mem_cons_self
    generalize m.foldl (skipOne time) (u, a :: acc.2) = acc' at hplan' ha' hmem hi'
    have hiw : acc'.1.ste.inState i .pending = some (e, v) :=
      (Ste.inState_iff _ _ _ _ _).2 ⟨(hplan'.trans hplan) ▸ hactive, hi'.trans (hothers.trans hwaits.second), hp⟩
    have hfirst := (skips_others time _ haq).1.trans ((skipOne_others time acc' hai.ne).trans (ha'.trans hskipped))
    exact ⟨_, hfirst, rfl, (skips_others time _ hiq).1.trans (skipOne_skips time hiw hanchor hmem).1⟩

/-! ## Through a resolution (R44, R46) -/

theorem Unskipped.of_opened {w : StepEval} (h : s.ste.evals[a] = some w) (ho : w.state = .opened) : Unskipped a s :=
  ⟨w, h, by rw [ho]; decide, by rw [ho]; decide⟩

theorem StepState.outcome.not_opened {st : StepState} (h : st.outcome) : st ≠ .opened := by
  rcases h with rfl | rfl | rfl | rfl | rfl | rfl <;> decide

/-- R30: a resolution of an OPEN step by its own window makes no step SKIPPED that has opened. -/
theorem Unskipped.resolve (h : Unskipped a s) (hl : s.live = true) (n : Nat) (k : Fin 64) {st : StepState} (hst : st.outcome)
    (time : Nat) : Unskipped a (State.resolve n k st time s) := by
  by_cases hak : a = k
  · subst hak
    cases n with
    | zero => exact h
    | succ n =>
      cases hi : s.ste.inState a .opened with
      | none =>
        unfold State.resolve
        rw [hi]
        exact h
      | some p =>
        obtain ⟨r, hr, -⟩ := State.resolve_resolved n hi hl hst.terminal time
        exact ⟨_, hr, StepState.not_pending_of_terminal hst.terminal, hst.not_skipped⟩
  · exact h.of_evals (State.resolve_leavesApart n k st time s a (.of_started hak h.started))

/-- R44: the turn of a step that may open leaves steps not PENDING as they are. -/
theorem SkippedBoth.openAt (h : SkippedBoth a i v s) (c : Anchor) (anchor n : Nat) (j : Fin 64) :
    SkippedBoth a i v (openAt c anchor n s j) :=
  h.of_evals (openAt_started c anchor n (fun w hw => (h.started.1 w hw).1) j)
    (openAt_started c anchor n (fun w hw => (h.started.2 w hw).1) j)

/-- R21: the chain and its plan, step `i` behind the step `a` it is anchored to. -/
structure Linked (a i : Fin 64) (e : StepEntry) (v : StepEval) (s : State) : Prop where
  lt : a < i
  entry : s.ste.active[i] = some e
  anchor : e.anchor = .step a
  pending : v.state = .pending

theorem Linked.of_plan {e : StepEntry} (h : Linked a i e v s) (hp : t.ste.active = s.ste.active) : Linked a i e v t :=
  ⟨h.lt, by rw [hp]; exact h.entry, h.anchor, h.pending⟩

/-- R44: the turn of a step that may open at another step's success. -/
theorem ChainState.openAt {e : StepEntry} {n : Nat} (hres : ∀ {s : State}, Linked a i e v s → Waits a i v s → s.live = true →
      ∀ (k : Fin 64) {st : StepState}, st.outcome → ∀ time : Nat, ChainState a i v (State.resolve n k st time s))
    (hlink : Linked a i e v s) (hl : s.live = true) {k : Fin 64} (hak : a ≠ k) (h : ChainState a i v s) (time : Nat)
    (j : Fin 64) : ChainState a i v (openAt (.step k) time n s j) := by
  cases h with
  | skipped h => exact .skipped (h.openAt _ time n j)
  | unskipped h => exact .unskipped (h.of_evals (openAt_started _ time n h.started j))
  | waits h =>
    unfold Sys2Proof.Machine.openAt
    split
    · rename_i ej vj hj
      obtain ⟨hej, hvj, -⟩ := (Ste.inState_iff _ _ _ _ _).1 hj
      split
      · rename_i hanchor
        have hij : i ≠ j := fun e => by
          subst e
          cases hlink.entry.symm.trans hej
          cases hlink.anchor.symm.trans hanchor
          exact hak rfl
        obtain ⟨w, hw, ho, -, hout⟩ := s.openStep_outcome j ej vj time
        have hothers := s.setEval_others j w
        have hget : (s.setEval j w).ste.evals[j] = some w := (State.setEval_get s j j w).trans (if_pos rfl)
        generalize s.openStep j ej vj time = p at hw hout
        obtain ⟨s', r⟩ := p
        have hs : s' = s.setEval j w := hw
        subst hs
        by_cases haj : a = j
        · subst haj
          have hun := Unskipped.of_opened hget ho
          cases r with
          | none => exact .unskipped hun
          | some r => exact .unskipped (hun.resolve hl n a (hout r.1 r.2 rfl) r.2)
        · have hwaits := h.of_evals (hothers a haj) (hothers i hij)
          cases r with
          | none => exact .waits hwaits
          | some r => exact hres (hlink.of_plan (t := s.setEval j w) rfl) hwaits hl j (hout r.1 r.2 rfl) r.2
      · exact .waits h
    · exact .waits h

/-- R44, R45, R46: what a resolution of an OPEN step by its own window does to the chain. -/
theorem Waits.resolve {e : StepEntry} (hlink : Linked a i e v s) (h : Waits a i v s) (hl : s.live = true) (n : Nat) (k : Fin 64)
    {st : StepState} (hst : st.outcome) (time : Nat) : ChainState a i v (State.resolve n k st time s) := by
  induction n generalizing k st time s with
  | zero => exact .waits h
  | succ n ih =>
    cases hi : s.ste.inState k .opened with
    | none =>
      unfold State.resolve
      rw [hi]
      exact .waits h
    | some p =>
      obtain ⟨ek, w⟩ := p
      obtain ⟨hek, hw, ho⟩ := (Ste.inState_iff _ _ _ _ _).1 hi
      obtain ⟨wa, hwa, hpa⟩ := h.first
      have hak : a ≠ k := fun e => by
        subst e
        cases hw.symm.trans hwa
        rw [ho] at hpa
        cases hpa
      have hik : i ≠ k := fun e => by
        subst e
        cases hw.symm.trans h.second
        have := hlink.pending
        rw [ho] at this
        cases this
      have hothers := State.resolveStep_others s k ek w st time
      have hframe := State.resolveStep_stepFrame s k ek w st time
      have hwaits : Waits a i v (s.resolveStep k ek w st time) := h.of_evals (hothers a hak) (hothers i hik)
      have hlink' : Linked a i e v (s.resolveStep k ek w st time) := hlink.of_plan hframe.plan
      have hlive := hframe.live.trans hl
      rw [State.resolve_turns n hi]
      generalize s.resolveStep k ek w st time = u at hwaits hlink' hlive
      split
      · have key : ∀ (l : List (Fin 64)) (u : State), Linked a i e v u → u.live = true → ChainState a i v u →
            ChainState a i v (l.foldl (openAt (.step k) time n) u) := fun l => by
          induction l with
          | nil => exact fun u _ _ hu => hu
          | cons j l ihl =>
            intro u hlink hl hu
            have hev := openAt_evaluated (.step k) time n u j
            refine ihl _ (hlink.of_plan hev.frame.plan) (hev.frame.live.trans hl) ?_
            exact hu.openAt ih hlink hl hak time j
        exact key _ u hlink' hlive (.waits hwaits)
      · rcases hwaits.skipChain hlink.lt hlink'.entry hlink.pending hlink.anchor (Ne.symm hak) time with h | h
        · exact .waits h
        · exact .skipped h

/-! ## Through the pass of the decision times reached (R37) -/

/-- R37: the turn of a step that is not due, or is. -/
theorem decideStep_cases (s : State) (j : Fin 64) : decideStep s j = s ∨ ∃ e w, s.ste.inState j .opened = some (e, w) ∧
    decideStep s j = (s.setEval j (s.decideEval e w)).resolve chainDepth j (s.verdictOf e w).1 (s.verdictOf e w).2 := by
  unfold decideStep
  split
  · exact .inl rfl
  · rename_i e w hj
    split
    · exact .inr ⟨e, w, hj, rfl⟩
    · exact .inl rfl

theorem ChainState.decideStep {e : StepEntry} (hlink : Linked a i e v s) (hl : s.live = true) (h : ChainState a i v s)
    (j : Fin 64) : ChainState a i v (decideStep s j) := by
  rcases decideStep_cases s j with heq | ⟨ej, w, hj, heq⟩
  · rw [heq]
    exact h
  obtain ⟨hej, hw, ho⟩ := (Ste.inState_iff _ _ _ _ _).1 hj
  have hopened : ∀ x, (∀ u, s.ste.evals[x] = some u → u.state ≠ .opened) → x ≠ j := fun x hx e => by
    subst e
    exact hx w hw ho
  have hget : (s.setEval j (s.decideEval ej w)).ste.evals[j] = some (s.decideEval ej w) :=
    (State.setEval_get s j j _).trans (if_pos rfl)
  have hothers := s.setEval_others j (s.decideEval ej w)
  have hout := s.verdictOf_outcome ej w
  cases h with
  | skipped h =>
    have haj := hopened a fun u hu => (h.started.1 u hu).2
    have hij := hopened i fun u hu => (h.started.2 u hu).2
    have hleaves := decideStep_leavesApart s j
    exact .skipped (h.of_evals (hleaves a (.of_started haj fun u hu => (h.started.1 u hu).1))
      (hleaves i (.of_started hij fun u hu => (h.started.2 u hu).1)))
  | unskipped h =>
    by_cases haj : a = j
    · subst haj
      rw [heq]
      exact .unskipped ((Unskipped.of_opened hget ((s.decideEval_state ej w).trans ho)).resolve hl _ _ hout _)
    · exact .unskipped (h.of_evals (decideStep_leavesApart s j a (.of_started haj h.started)))
  | waits h =>
    obtain ⟨wa, hwa, hpa⟩ := h.first
    have haj := hopened a fun u hu => by
      cases hwa.symm.trans hu
      rw [hpa]
      decide
    have hij := hopened i fun u hu => by
      cases h.second.symm.trans hu
      rw [hlink.pending]
      decide
    rw [heq]
    exact Waits.resolve (hlink.of_plan (t := s.setEval j (s.decideEval ej w)) rfl)
      (h.of_evals (hothers a haj) (hothers i hij)) hl
      chainDepth j hout _

theorem ChainState.decides {e : StepEntry} (hlink : Linked a i e v s) (hl : s.live = true) (h : ChainState a i v s)
    (l : List (Fin 64)) : ChainState a i v (l.foldl Sys2Proof.Machine.decideStep s) := by
  induction l generalizing s with
  | nil => exact h
  | cons j l ih =>
    have hev := decideStep_evaluated s j
    exact ih (hlink.of_plan hev.frame.plan) (hev.frame.live.trans hl) (h.decideStep hlink hl j)

/-- R45: in the pass of the decision times reached, a step is SKIPPED with the step it is anchored to. -/
theorem State.decides_chain {e : StepEntry} (hlink : Linked a i e v s) (hl : s.live = true) (h : Waits a i v s) {w : StepEval}
    (hw : ((List.finRange 64).foldl Sys2Proof.Machine.decideStep s).ste.evals[a] = some w) (hs : w.state = .skipped) :
    ((List.finRange 64).foldl Sys2Proof.Machine.decideStep s).ste.evals[i] =
      some { v with state := .skipped, resolution := w.resolution } := by
  cases ChainState.decides hlink hl (.waits h) (List.finRange 64) with
  | waits h =>
    obtain ⟨u, hu, hp⟩ := h.first
    cases hu.symm.trans hw
    rw [hs] at hp
    cases hp
  | skipped h =>
    obtain ⟨u, hu, -, hi⟩ := h.both
    cases hu.symm.trans hw
    exact hi
  | unskipped h =>
    obtain ⟨u, hu, -, hns⟩ := h.state
    cases hu.symm.trans hw
    exact absurd hs hns

end

/-! ## What is decided (R39, R40, R41) -/

theorem State.verdict_await (s : State) {e : StepEntry} {v : StepEval} {hi : Nat} (h : e.kind = .await) (hhi : v.hi = some hi) :
    s.verdictOf e v = (.missed, hi) := by
  unfold State.verdictOf
  rw [h, hhi]
  rfl

theorem State.verdict_guard (s : State) {e : StepEntry} {v : StepEval} {hi : Nat} (h : e.kind = .guard) (hhi : v.hi = some hi) :
    s.verdictOf e v = (.held, hi) := by
  unfold State.verdictOf
  rw [h, hhi]
  rfl

theorem State.verdict_check (s : State) {e : StepEntry} {v : StepEval} {lo : Nat} (h : e.kind = .check) (hlo : v.lo = some lo) :
    s.verdictOf e v = (if e.cond.holds (s.reconstruct e.cond lo) then .matched else .failed, lo) := by
  unfold State.verdictOf
  rw [h, hlo]
  rfl

theorem State.decideEval_window (s : State) {e : StepEntry} (h : e.kind ≠ .check) (v : StepEval) : s.decideEval e v = v :=
  if_neg fun hc => h hc.1

theorem State.decideEval_check (s : State) {e : StepEntry} {v : StepEval} {lo : Nat} (h : e.kind = .check)
    (hlo : v.lo = some lo) :
    s.decideEval e v = { v with lookback := v.lookback || s.ste.evictionMark.any fun m => decide (lo < m) } := by
  rw [State.decideEval_eq, decide_eq_true h, Bool.true_and, hlo]
  rfl

/-- R37: a step that is due alone. -/
theorem State.decides_alone {s : State} {j : Fin 64} {e : StepEntry} {v : StepEval} {d : Nat}
    (hi : s.ste.inState j .opened = some (e, v)) (hd : v.decision = some d) (hle : d ≤ s.rc.timeBase)
    (hothers : ∀ (i : Fin 64) (e' : StepEntry) (w : StepEval), s.ste.active[i] = some e' → s.ste.evals[i] = some w →
      (w.state = .opened → i ≠ j → ∀ d', w.decision = some d' → s.rc.timeBase < d') ∧
      (w.state = .pending → e'.anchor ≠ .step j)) :
    (List.finRange 64).foldl decideStep s = s.resolveStep j e (s.decideEval e v) (s.verdictOf e v).1 (s.verdictOf e v).2 := by
  obtain ⟨pre, post, hsplit, hpre, hpost⟩ := finRange_split j
  obtain ⟨he, hv, ho⟩ := (Ste.inState_iff _ _ _ _ _).1 hi
  have hturn : decideStep s j = s.resolveStep j e (s.decideEval e v) (s.verdictOf e v).1 (s.verdictOf e v).2 := by
    rw [decideStep_due hi hd hle]
    exact State.setEval_resolve_alone hi ((s.decideEval_state e v).trans ho) (s.verdictOf_outcome e v).terminal _
      fun i e' w he' hw' hp' => (hothers i e' w he' hw').2 hp'
  have hframe := State.resolveStep_stepFrame s j e (s.decideEval e v) (s.verdictOf e v).1 (s.verdictOf e v).2
  have hother := State.resolveStep_others s j e (s.decideEval e v) (s.verdictOf e v).1 (s.verdictOf e v).2
  have hfirst : pre.foldl decideStep s = s := foldl_of_unchanged fun i hmem => decideStep_idle fun e' w d' hi' hd' => by
    obtain ⟨he', hw', ho'⟩ := (Ste.inState_iff _ _ _ _ _).1 hi'
    exact (hothers i e' w he' hw').1 ho' (fun e => hpre (e ▸ hmem)) d' hd'
  rw [hsplit, List.foldl_append, List.foldl_cons, hfirst, hturn]
  refine foldl_of_unchanged fun i hmem => decideStep_idle fun e' w d' hi' hd' => ?_
  obtain ⟨he', hw', ho'⟩ := (Ste.inState_iff _ _ _ _ _).1 hi'
  have hij : i ≠ j := fun e => hpost (e ▸ hmem)
  rw [hframe.plan] at he'
  rw [hother i hij] at hw'
  rw [hframe.rc]
  exact (hothers i e' w he' hw').1 ho' hij d' hd'

/-- Settles O36: each step that is due by the verdict on it when the pass begins. -/
theorem decisionsAreTaken : Obligations.DecisionsAreTaken := by
  refine ⟨fun s h => ?_, fun s j e v lo hi d hr he hv ho hlo hhi hd hle => ?_⟩
  · refine congrArg Host.Outcome.next (if_neg fun hdue => ?_)
    obtain ⟨-, k, ek, w, -, hw, hwo, dk, hdk, hdle⟩ := s.decisionsDue_iff.1 hdue
    exact Nat.not_le.2 (h k w dk hw hwo hdk) hdle
  have hopen : s.ste.inState j .opened = some (e, v) := (Ste.inState_iff _ _ _ _ _).2 ⟨he, hv, ho⟩
  have hlive : s.live = true := State.live_of (.inr hr)
  have hexec : exec .decisionTime s = .next s.decideAll :=
    congrArg Host.Outcome.next (if_pos (s.decisionsDue_iff.2 ⟨hr, j, e, v, he, hv, ho, d, hd, hle⟩))
  intro past was
  have hwas : was ↔ e.cond.holds (s.reconstruct e.cond lo) = true := (s.reconstruct_holds e.cond lo).symm
  clear_value was
  have hres := State.decides_resolved hlive hopen hd hle
  have halone := State.decides_alone hopen hd hle
  have hskips := fun hst (i : Fin 64) (e' : StepEntry) (v' : StepEval) (he' : s.ste.active[i] = some e')
      (hv' : s.ste.evals[i] = some v') (hp : v'.state = .pending) (ha : e'.anchor = .step j) =>
    State.decides_skips hopen hd hle hst ((Ste.inState_iff _ _ _ _ _).2 ⟨he', hv', hp⟩) ha
  have hchain := fun (i a : Fin 64) (e' : StepEntry) (v' va : StepEval) (hlt : a < i) (he' : s.ste.active[i] = some e')
      (hv' : s.ste.evals[i] = some v') (hp : v'.state = .pending) (ha : e'.anchor = .step a)
      (hfirst : ∃ u, s.ste.evals[a] = some u ∧ u.state = .pending) =>
    State.decides_chain (w := va) (⟨hlt, he', ha, hp⟩ : Linked a i e' v' s) hlive ⟨hfirst, hv'⟩
  have hresolved : ∀ st time, s.verdictOf e v = (st, time) →
      (∀ (i : Fin 64) (e' : StepEntry) (v' : StepEval), s.ste.active[i] = some e' → s.ste.evals[i] = some v' →
        (v'.state = .opened → i ≠ j → ∀ d', v'.decision = some d' → s.rc.timeBase < d') ∧
        (v'.state = .pending → e'.anchor ≠ .step j)) →
      ResolvedAlone s s.decideAll j e (s.decideEval e v) st time := fun st time hverdict hothers => by
    have hout := s.verdictOf_outcome e v
    rw [hverdict] at hout
    unfold State.decideAll
    rw [halone hothers, hverdict]
    exact State.resolveStep_alone hlive he _ hout time
  have hkeeps : s.decideAll.ste.evals = ((List.finRange 64).foldl decideStep s).ste.evals := by
    unfold State.decideAll
    rw [State.closePass_eq]
  rw [← hkeeps] at hskips hchain
  obtain ⟨r, hown, hsame, -, -⟩ := hres
  rw [← hkeeps] at hown
  generalize s.decideAll = t at hexec hown hskips hchain hresolved
  clear hkeeps halone
  refine ⟨t, r, hexec, fun ha => ?_, fun hg => ?_, fun hc => ?_, fun i e' v' he' hv' hp ha hor => ?_, hchain, fun hothers => ?_⟩
  · rw [s.verdict_await ha (hhi (by rw [ha]; decide)), s.decideEval_window (by rw [ha]; decide)] at hown
    rw [s.verdict_await ha (hhi (by rw [ha]; decide)), s.decideEval_window (by rw [ha]; decide)] at hsame
    cases hsame rfl
    exact hown
  · rw [s.verdict_guard hg (hhi (by rw [hg]; decide)), s.decideEval_window (by rw [hg]; decide)] at hown
    exact hown
  · intro lookback
    rw [s.verdict_check hc hlo, s.decideEval_check hc hlo] at hown hsame
    refine ⟨fun h => ?_, fun h => ?_⟩
    · rw [if_pos (hwas.1 h)] at hown
      exact hown
    · rw [if_neg (mt hwas.2 h)] at hown hsame
      cases hsame rfl
      exact hown
  · rcases hor with hk | ⟨hk, hnot⟩
    · have hverdict := s.verdict_await (v := v) hk (hhi (by rw [hk]; decide))
      rw [if_pos hk, hskips (by rw [hverdict]; rfl) i e' v' he' hv' hp ha, hverdict]
    · have hverdict := s.verdict_check (v := v) hk hlo
      rw [if_neg (mt hwas.2 hnot)] at hverdict
      rw [if_neg (by rw [hk]; decide), hskips (by rw [hverdict]; rfl) i e' v' he' hv' hp ha, hverdict]
  · refine ⟨fun ha => ?_, fun hg => ?_, fun hc => ?_⟩
    · have h := hresolved _ _ (s.verdict_await ha (hhi (by rw [ha]; decide))) hothers
      rw [s.decideEval_window (by rw [ha]; decide)] at h
      exact h
    · have h := hresolved _ _ (s.verdict_guard hg (hhi (by rw [hg]; decide))) hothers
      rw [s.decideEval_window (by rw [hg]; decide)] at h
      exact h
    · have h := hresolved _ _ (s.verdict_check hc hlo) hothers
      rw [s.decideEval_check hc hlo] at h
      intro v1
      refine ⟨fun hw => ?_, fun hw => ?_⟩
      · rw [if_pos (hwas.1 hw)] at h
        exact h
      · rw [if_neg (mt hwas.2 hw)] at h
        exact h

end Sys2Proof.Machine

end


section
/-! PROOFS. A step that opens (R35, R36, R37, R43): its window, its replay, and how it is decided at once. -/

namespace Sys2Proof.Machine

/-! ## The replay (R38, R39, R40, R43) -/

/-- The times of the entries of a list that an opening step judges. -/
def StepEntry.seenTimes (e : StepEntry) (anchor : Nat) (l : List Event) : List Nat :=
  (l.filter fun y => decide (anchor ≤ y.time ∧ e.cond.met y.body = true)).map Event.time

theorem StepEntry.judged_guard {e : StepEntry} (h : e.kind = .guard) (lo hi n t : Nat) (l : List Nat) :
    e.judged lo hi n (t :: l) = if lo ≤ t ∧ t ≤ hi then (n, some (.violated, t)) else e.judged lo hi n l := by
  rw [StepEntry.judged]
  rw [if_pos h]
  exact if_congr decide_eq_true_iff rfl rfl

theorem StepEntry.judged_await {e : StepEntry} (h : e.kind = .await) (lo hi n t : Nat) (l : List Nat) :
    e.judged lo hi n (t :: l) = if t < lo ∧ e.earlyFails = true then (n, some (.early, t))
      else if (lo ≤ t ∧ t ≤ hi) ∧ e.count ≤ n + 1 then (n + 1, some (.matched, t))
      else e.judged lo hi (if lo ≤ t ∧ t ≤ hi then n + 1 else n) l := by
  rw [StepEntry.judged]
  rw [if_neg (by rw [h]; decide)]
  simp only [decide_eq_true_eq]

/-- R38, R39, R40, R43: the replay judges the times of the entries that the step may see, up to the one that resolves it. -/
theorem StepEntry.replay_judged {e : StepEntry} (hk : e.kind ≠ .check) (anchor : Nat) {lo hi : Nat} (l : List Event)
    {v : StepEval} (hlo : v.lo = some lo) (hhi : v.hi = some hi) : e.replay anchor l v =
      ({ v with counted := (e.judged lo hi v.counted (e.seenTimes anchor l)).1 },
        (e.judged lo hi v.counted (e.seenTimes anchor l)).2) := by
  induction l generalizing v with
  | nil => rfl
  | cons x l ih =>
    unfold StepEntry.replay
    by_cases hseen : anchor ≤ x.time ∧ e.cond.met x.body = true
    · have htimes : e.seenTimes anchor (x :: l) = x.time :: e.seenTimes anchor l := by
        unfold StepEntry.seenTimes
        rw [List.filter_cons_of_pos (by simpa using hseen), List.map_cons]
      rw [if_pos hseen, htimes]
      cases hkind : e.kind with
      | check => exact absurd hkind hk
      | guard =>
        rw [StepEntry.judge_guard hkind hlo hhi, StepEntry.judged_guard hkind]
        by_cases hin : lo ≤ x.time ∧ x.time ≤ hi
        · rw [if_pos hin, if_pos hin]
        · rw [if_neg hin, if_neg hin]
          exact ih hlo hhi
      | await =>
        rw [StepEntry.judged_await hkind]
        by_cases hbefore : x.time < lo
        · rw [StepEntry.judge_before hkind hlo hbefore]
          have hout : ¬(lo ≤ x.time ∧ x.time ≤ hi) := by omega
          by_cases hearly : e.earlyFails = true
          · rw [if_pos hearly, if_pos ⟨hbefore, hearly⟩]
          · rw [if_neg hearly, if_neg fun h => hearly h.2, if_neg fun h => hout h.1, if_neg hout]
            exact ih hlo hhi
        · rw [if_neg fun h => hbefore h.1]
          by_cases hafter : hi < x.time
          · have hout : ¬(lo ≤ x.time ∧ x.time ≤ hi) := by omega
            rw [StepEntry.judge_after hkind hlo hhi (by omega) hafter, if_neg fun h => hout h.1, if_neg hout]
            exact ih hlo hhi
          · have hin : lo ≤ x.time ∧ x.time ≤ hi := by omega
            rw [StepEntry.judge_within hkind hlo hhi hin.1 hin.2]
            by_cases hcount : e.count ≤ v.counted + 1
            · rw [if_pos hcount, if_pos ⟨hin, hcount⟩]
            · rw [if_neg hcount, if_neg fun h => hcount h.2, if_pos hin]
              exact ih (v := { v with counted := v.counted + 1 }) hlo hhi
    · have htimes : e.seenTimes anchor (x :: l) = e.seenTimes anchor l := by
        unfold StepEntry.seenTimes
        rw [List.filter_cons_of_neg (by simpa using hseen)]
      rw [if_neg hseen, htimes]
      exact ih hlo hhi

/-! ## The opening (R35, R36, R37, R43) -/

/-- R35: the hold-off of a condition. -/
theorem State.holdOff_eq (s : State) (c : Cond) : s.holdOff c = match c with
    | .edge c _ => s.mc[c].settings.debounce * 100
    | .level c _ => s.mc[c].settings.debounce * 100
    | _ => 0 := by
  cases c <;> rfl

/-- R36, R43: the record of an AWAIT or GUARD step whose window is open, its replay done. -/
def StepEval.windowed (v : StepEval) (e : StepEntry) (anchor limit hold : Nat) (list : List Event) (mark : Option Nat) :
    StepEval :=
  { v with
    state := .opened, anchorTime := some anchor, lo := some (min (anchor + e.windowMin * 100) limit)
    hi := some (min (anchor + e.windowMax * 100) limit), decision := some (min (anchor + e.windowMax * 100) limit + hold)
    counted := (e.judged (min (anchor + e.windowMin * 100) limit) (min (anchor + e.windowMax * 100) limit) v.counted
      (e.seenTimes anchor list)).1
    clipped := decide (limit < anchor + e.windowMin * 100 ∨ limit < anchor + e.windowMax * 100)
    lookback := mark.any fun m => decide (anchor ≤ m) }

/-- R37, R43: an AWAIT or GUARD step opens. -/
theorem State.openStep_window {s : State} {limit : Nat} (hlim : s.rc.limitTime = some limit) (j : Fin 64) {e : StepEntry}
    (hk : e.kind ≠ .check) (v : StepEval) (anchor : Nat) : s.openStep j e v anchor =
      (s.setEval j (v.windowed e anchor limit (s.holdOff e.cond) s.ste.lookback s.ste.evictionMark),
        (e.judged (min (anchor + e.windowMin * 100) limit) (min (anchor + e.windowMax * 100) limit) v.counted
          (e.seenTimes anchor s.ste.lookback)).2.or
          (if min (anchor + e.windowMax * 100) limit + s.holdOff e.cond ≤ s.rc.timeBase then
            some (if e.kind = .await then .missed else .held, min (anchor + e.windowMax * 100) limit) else none)) := by
  have hopen : s.openEval e anchor v = { v with
      state := .opened, anchorTime := some anchor, lo := some (min (anchor + e.windowMin * 100) limit)
      hi := some (min (anchor + e.windowMax * 100) limit)
      decision := some (min (anchor + e.windowMax * 100) limit + s.holdOff e.cond)
      clipped := decide (limit < anchor + e.windowMin * 100 ∨ limit < anchor + e.windowMax * 100)
      lookback := s.ste.evictionMark.any fun m => decide (anchor ≤ m) } := by
    unfold State.openEval
    rw [hlim]
    exact if_neg hk
  unfold State.openStep
  dsimp only
  rw [if_neg hk, hopen, StepEntry.replay_judged hk anchor _ rfl rfl]
  unfold StepEval.windowed
  generalize e.judged _ _ _ _ = judged
  obtain ⟨n, r⟩ := judged
  cases r with
  | some res => rfl
  | none =>
    dsimp only [Option.getD_some, Option.none_or]
    split
    · rw [s.decideEval_window hk]
      refine Prod.ext rfl (congrArg some ?_)
      cases hkind : e.kind with
      | check => exact absurd hkind hk
      | await => exact s.verdict_await hkind rfl
      | guard => exact s.verdict_guard hkind rfl
    · rfl

/-- R37, R41, R43: a CHECK step opens. -/
theorem State.openStep_check {s : State} {limit : Nat} (hlim : s.rc.limitTime = some limit) (j : Fin 64) {e : StepEntry}
    (hk : e.kind = .check) (v : StepEval) (anchor : Nat) : ∃ w r, s.openStep j e v anchor = (s.setEval j w, r) ∧
      w.anchorTime = some anchor ∧
      (s.rc.timeBase < min (anchor + e.windowMin * 100) limit + s.holdOff e.cond → r = none ∧ w = { v with
        state := .opened, anchorTime := some anchor, lo := some (min (anchor + e.windowMin * 100) limit), hi := none
        decision := some (min (anchor + e.windowMin * 100) limit + s.holdOff e.cond)
        clipped := decide (limit < anchor + e.windowMin * 100)
        lookback := s.ste.evictionMark.any fun m => decide (anchor ≤ m) }) ∧
      (min (anchor + e.windowMin * 100) limit + s.holdOff e.cond ≤ s.rc.timeBase → ∃ st,
        r = some (st, min (anchor + e.windowMin * 100) limit) ∧ (st = .matched ∨ st = .failed)) := by
  have hopen : s.openEval e anchor v = { v with
      state := .opened, anchorTime := some anchor, lo := some (min (anchor + e.windowMin * 100) limit), hi := none
      decision := some (min (anchor + e.windowMin * 100) limit + s.holdOff e.cond)
      clipped := decide (limit < anchor + e.windowMin * 100)
      lookback := s.ste.evictionMark.any fun m => decide (anchor ≤ m) } := by
    unfold State.openEval
    rw [hlim]
    exact if_pos hk
  unfold State.openStep
  dsimp only
  rw [if_pos hk, hopen]
  dsimp only [Option.getD_some]
  split
  · rename_i hle
    refine ⟨_, _, rfl, ?_, fun hlt => absurd hle (Nat.not_le.2 hlt), fun _ => ?_⟩
    · rw [State.decideEval_eq]
    · rw [State.verdict_check s hk rfl]
      refine ⟨_, rfl, ?_⟩
      split
      · exact .inl rfl
      · exact .inr rfl
  · rename_i hlt
    exact ⟨_, _, rfl, rfl, fun _ => ⟨rfl, rfl⟩, fun hle => absurd hle hlt⟩

end Sys2Proof.Machine

end


section
/-! PROOFS. Steps that open at a start, at an event's success and at a decision's (R21, R43, R44). -/

namespace Sys2Proof.Machine

/-- R35, R36, R37, R43: step `j` of record `v` in `s` has opened at the anchor time, and `t` shows what became of it. -/
def OpensAs (s t : State) (anchor : Nat) (list : List Event) (mark : Option Nat) (limit : Nat) (j : Fin 64)
    (e : StepEntry) (v : StepEval) : Prop :=
  let now := s.rc.timeBase
  let lo := min (anchor + e.windowMin * 100) limit
  let hi := min (anchor + e.windowMax * 100) limit
  let hold := match e.cond with
    | .edge c _ => s.mc[c].settings.debounce * 100
    | .level c _ => s.mc[c].settings.debounce * 100
    | _ => 0
  let lookback := mark.any fun m => decide (anchor ≤ m)
  let clipped := decide (limit < anchor + e.windowMin * 100 ∨ limit < anchor + e.windowMax * 100)
  let seen := fun y : Event => anchor ≤ y.time ∧ e.cond.met y.body = true
  let replay := e.judged lo hi v.counted ((list.filter fun y => decide (seen y)).map Event.time)
  let counting := { v with
    anchorTime := some anchor, lo := some lo, hi := some hi, decision := some (hi + hold), counted := replay.1, clipped
    lookback }
  (e.kind ≠ .check → replay.2 = none → now < hi + hold → t.ste.evals[j] = some { counting with state := .opened }) ∧
  (e.kind ≠ .check → ∀ state time,
    (replay.2 = some (state, time) ∨
      (replay.2 = none ∧ hi + hold ≤ now ∧ state = (if e.kind = .await then .missed else .held) ∧ time = hi)) →
    ∃ refused, t.ste.evals[j] = some { counting with state, refused, resolution := some time } ∧
      (state ≠ .matched → state ≠ .held → refused = v.refused)) ∧
  (e.kind = .check → now < lo + hold → t.ste.evals[j] = some { v with
    state := .opened, anchorTime := some anchor, lo := some lo, hi := none, decision := some (lo + hold),
    clipped := decide (limit < anchor + e.windowMin * 100), lookback }) ∧
  (e.kind = .check → lo + hold ≤ now → ∃ u, t.ste.evals[j] = some u ∧ u.anchorTime = some anchor ∧
    (u.state = .matched ∨ u.state = .failed) ∧ u.resolution = some lo)

theorem State.setEval_inj {s : State} {j : Fin 64} {v w : StepEval} (h : s.setEval j v = s.setEval j w) : v = w := by
  have hget : ∀ x : StepEval, (s.setEval j x).ste.evals[j] = some x := fun x => (State.setEval_get s j j x).trans (if_pos rfl)
  have := hget v
  rw [h, hget w] at this
  exact (Option.some.inj this).symm

theorem StepState.success_false {st : StepState} (hm : st ≠ .matched) (hh : st ≠ .held) : st.success = false := by
  unfold StepState.success
  split
  · exact absurd rfl hm
  · exact absurd rfl hh
  · rfl

/-- R43: what became of an opened step, said by its window. -/
theorem OpensAs.of {s u t : State} {anchor limit : Nat} {j : Fin 64} {e : StepEntry} {v w : StepEval}
    (htime : u.rc.timeBase = s.rc.timeBase) (hmc : u.mc = s.mc) (hlim : u.rc.limitTime = some limit)
    (hw : (u.openStep j e v anchor).1 = u.setEval j w) (h : OpenedWith t j w (u.openStep j e v anchor).2) :
    OpensAs s t anchor u.ste.lookback u.ste.evictionMark limit j e v := by
  have hhold : u.holdOff e.cond = match e.cond with
    | .edge c _ => s.mc[c].settings.debounce * 100
    | .level c _ => s.mc[c].settings.debounce * 100
    | _ => 0 := by
    unfold State.holdOff
    rw [hmc]
    cases e.cond <;> rfl
  obtain ⟨x, hx, -, hnone, hsome⟩ := h
  unfold OpensAs
  rw [← hhold, ← htime]
  refine ⟨fun hk hr hlt => ?_, fun hk st time hor => ?_, fun hk hlt => ?_, fun hk hle => ?_⟩
  · rw [State.openStep_window hlim j hk v anchor] at hw hnone
    cases State.setEval_inj hw
    have hr' : (e.judged (min (anchor + e.windowMin * 100) limit) (min (anchor + e.windowMax * 100) limit) v.counted
        (e.seenTimes anchor u.ste.lookback)).2 = none := hr
    refine hx.trans (congrArg some (hnone ?_))
    dsimp only
    rw [hr', Option.none_or]
    exact if_neg (Nat.not_le.2 hlt)
  · rw [State.openStep_window hlim j hk v anchor] at hw hsome
    cases State.setEval_inj hw
    suffices hres : _ by
      obtain ⟨r, hr, hsame⟩ := hsome st time hres
      exact ⟨r, hx.trans (congrArg some hr), fun hm hh => hsame (StepState.success_false hm hh)⟩
    · dsimp only
      rcases hor with hr | ⟨hr, hle, hst, htime⟩
      · have hr' : (e.judged (min (anchor + e.windowMin * 100) limit) (min (anchor + e.windowMax * 100) limit) v.counted
            (e.seenTimes anchor u.ste.lookback)).2 = some (st, time) := hr
        rw [hr']
        rfl
      · have hr' : (e.judged (min (anchor + e.windowMin * 100) limit) (min (anchor + e.windowMax * 100) limit) v.counted
            (e.seenTimes anchor u.ste.lookback)).2 = none := hr
        rw [hr', Option.none_or, if_pos hle, hst, htime]
  · obtain ⟨w', r, hopen, -, hlater, -⟩ := State.openStep_check hlim j hk v anchor
    rw [hopen] at hw hnone
    cases State.setEval_inj hw
    obtain ⟨hr, hw'⟩ := hlater hlt
    rw [hx, hnone hr, hw']
  · obtain ⟨w', r, hopen, hanchor, -, hnow⟩ := State.openStep_check hlim j hk v anchor
    rw [hopen] at hw hsome
    cases State.setEval_inj hw
    obtain ⟨st, hr, hst⟩ := hnow hle
    obtain ⟨refused, hx', -⟩ := hsome st _ hr
    subst hx'
    exact ⟨_, hx, hanchor, hst, rfl⟩

/-- R37: a step that has opened is not due. -/
theorem OpenedWith.later {u t : State} {anchor limit : Nat} {j : Fin 64} {e : StepEntry} {v w : StepEval}
    (hlim : u.rc.limitTime = some limit) (hw : (u.openStep j e v anchor).1 = u.setEval j w)
    (h : OpenedWith t j w (u.openStep j e v anchor).2) : ∀ x, t.ste.evals[j] = some x → x.state ≠ .pending ∧
      (x.state = .opened → ∀ d, x.decision = some d → u.rc.timeBase < d) := by
  obtain ⟨x, hx, hp, hnone, hsome⟩ := h
  intro y hy
  cases hx.symm.trans hy
  refine ⟨hp, fun ho d hd => ?_⟩
  cases hr : (u.openStep j e v anchor).2 with
  | some p =>
    obtain ⟨refused, hx', -⟩ := hsome p.1 p.2 hr
    obtain ⟨-, -, -, -, hout⟩ := u.openStep_outcome j e v anchor
    subst hx'
    exact absurd ho (hout p.1 p.2 hr).not_opened
  | none =>
    cases hnone hr
    by_cases hk : e.kind = .check
    · obtain ⟨w', r, hopen, -, hlater, hnow⟩ := State.openStep_check hlim j hk v anchor
      rw [hopen] at hw hr
      cases State.setEval_inj hw
      by_cases hle : min (anchor + e.windowMin * 100) limit + u.holdOff e.cond ≤ u.rc.timeBase
      · obtain ⟨st, hsome', -⟩ := hnow hle
        cases hr.symm.trans hsome'
      · obtain ⟨-, hw'⟩ := hlater (Nat.not_le.1 hle)
        rw [hw'] at hd
        cases hd
        exact Nat.not_le.1 hle
    · rw [State.openStep_window hlim j hk v anchor] at hw hr
      cases State.setEval_inj hw
      cases hd
      refine Nat.not_le.1 fun hle => ?_
      dsimp only at hr
      rw [if_pos hle] at hr
      cases (Option.or_eq_none_iff.1 hr).2

/-- R43: the anchor time of a step that has opened. -/
theorem OpenedWith.anchored {u t : State} {anchor : Nat} {j : Fin 64} {e : StepEntry} {v w : StepEval}
    (hw : (u.openStep j e v anchor).1 = u.setEval j w) (h : OpenedWith t j w (u.openStep j e v anchor).2) :
    ∃ x, t.ste.evals[j] = some x ∧ x.state ≠ .pending ∧ x.anchorTime = some anchor := by
  obtain ⟨w', hw', -, hanchor, -⟩ := u.openStep_outcome j e v anchor
  cases State.setEval_inj (hw.symm.trans hw')
  obtain ⟨x, hx, hp, hnone, hsome⟩ := h
  refine ⟨x, hx, hp, ?_⟩
  cases hr : (u.openStep j e v anchor).2 with
  | none =>
    rw [hnone hr]
    exact hanchor
  | some p =>
    obtain ⟨refused, hx', -⟩ := hsome p.1 p.2 hr
    rw [hx']
    exact hanchor

/-! ## At a start (R10, R44) -/

/-- R44: a step anchored to START opens at a start. -/
theorem State.startRun_opens (s : State) (time : Nat) {j : Fin 64} {e : StepEntry} {v : StepEval}
    (he : s.ste.active[j] = some e) (hv : s.ste.evals[j] = some v) (hp : v.state = .pending) (ha : e.anchor = .start) :
    OpensAs s (s.startRun time) time s.ste.lookback s.ste.evictionMark (time + s.rc.active.limit * 100000) j e v := by
  have hi : (s.beginning time).ste.inState j .pending = some (e, v) := by
    rw [State.beginning_ste]
    exact (Ste.inState_iff _ _ _ _ _).2 ⟨he, hv, hp⟩
  obtain ⟨u, w, hframe, hw, hown⟩ := State.turns_open time 64 hi ha (s.beginning_live time) fun k hk =>
    .inl (.of_start (Ne.symm hk) ((Ste.inState_iff _ _ _ _ _).1 hi).1 ha)
  have hevals : (s.startRun time).ste.evals = ((s.beginning time).openStarts time).ste.evals := by
    rw [State.startRun_eq]
    split
    · rw [State.fireTrigger_eq, State.closePass_eq]
    · rw [State.closePass_eq]
  rw [State.openStarts_turns, show chainDepth = 64 + 1 from rfl] at hevals
  have hown' := hown.of_evals (u := s.startRun time) (by rw [hevals])
  have hlook : u.ste.lookback = s.ste.lookback := hframe.lookback.trans (by rw [State.beginning_ste])
  have hmark : u.ste.evictionMark = s.ste.evictionMark := hframe.evictionMark.trans (by rw [State.beginning_ste])
  rw [← hlook, ← hmark]
  refine .of ?_ ?_ ?_ hw hown'
  · rw [hframe.rc, State.beginning_rc]
    rfl
  · rw [hframe.mc, State.beginning_eq]
  · rw [hframe.rc, State.beginning_rc]
    rfl

end Sys2Proof.Machine

end


section
/-! PROOFS. The steps anchored to a step that succeeds open in the same pass (R21, R44). -/

namespace Sys2Proof.Machine

/-- R21, R44: a PENDING step opens when the step it is anchored to succeeds. -/
theorem State.resolve_opens {s : State} {k j : Fin 64} {ek e : StepEntry} {vk v : StepEval} (n : Nat)
    (hk : s.ste.inState k .opened = some (ek, vk)) (hl : s.live = true) {st : StepState} (hst : st.outcome)
    (hsuccess : st.success = true) (time : Nat) (hj : s.ste.inState j .pending = some (e, v)) (ha : e.anchor = .step k) :
    ∃ u w, StepFrame s u ∧ (u.openStep j e v time).1 = u.setEval j w ∧
      OpenedWith (State.resolve (n + 2) k st time s) j w (u.openStep j e v time).2 := by
  obtain ⟨he, hv, hp⟩ := (Ste.inState_iff _ _ _ _ _).1 hj
  obtain ⟨hek, hvk, ho⟩ := (Ste.inState_iff _ _ _ _ _).1 hk
  have hjk : j ≠ k := fun h => by
    subst h
    cases hvk.symm.trans hv
    rw [ho] at hp
    cases hp
  have hframe := State.resolveStep_stepFrame s k ek vk st time
  have hothers := State.resolveStep_others s k ek vk st time
  obtain ⟨r, hr, -⟩ := s.resolveStep_resolved hl hek vk st time
  have hstarted : ∀ w, (s.resolveStep k ek vk st time).ste.evals[k] = some w → w.state ≠ .pending := fun w hw => by
    cases hr.symm.trans hw
    exact StepState.not_pending_of_terminal hst.terminal
  rw [State.resolve_turns (n + 1) hk, if_pos hsuccess]
  generalize s.resolveStep k ek vk st time = y at hframe hothers hstarted
  have he' : y.ste.active[j] = some e := by
    rw [hframe.plan]
    exact he
  obtain ⟨u, w, hu, hw, hown⟩ := State.turns_open time n
    ((Ste.inState_iff _ _ _ _ _).2 ⟨he', (hothers j hjk).trans hv, hp⟩) ha (hframe.live.trans hl) fun i hi => by
      by_cases hik : i = k
      · subst hik
        exact .inr hstarted
      · exact .inl (.of_anchor (Ne.symm hi) he' ha (Ne.symm hik) hstarted)
  exact ⟨u, w, hframe.trans hu, hw, hown⟩

/-- The turns of a pass before that of the step `a`, to which the PENDING step `j` is anchored. -/
theorem State.Apart.of_anchored {s : State} {a j k : Fin 64} {e : StepEntry} {va : StepEval} (hkj : k ≠ j)
    (he : s.ste.active[j] = some e) (ha : e.anchor = .step a) (hva : s.ste.evals[a] = some va) (ho : va.state = .opened)
    (hka : k ≠ a) : s.Apart k j :=
  .of_anchor (Ne.symm hkj) he ha (Ne.symm hka) fun w hw => by
    cases hva.symm.trans hw
    rw [ho]
    decide

/-- R21, R44: a PENDING step opens where a delivered event makes the step it is anchored to MATCHED. -/
theorem State.offers_open {s : State} {x : Event} {a j : Fin 64} {ea e : StepEntry} {va va' v : StepEval} {st : StepState}
    (hl : s.live = true) (hi : s.ste.inState a .opened = some (ea, va)) (hm : ea.cond.met x.body = true)
    (hjudge : ea.judge va x.time = (va', some st)) (hsuccess : st.success = true)
    (hj : s.ste.inState j .pending = some (e, v)) (ha : e.anchor = .step a) :
    ∃ u w, StepFrame s u ∧ (u.openStep j e v x.time).1 = u.setEval j w ∧
      OpenedWith (s.ste.openSteps.foldl (offerTo x) s) j w (u.openStep j e v x.time).2 := by
  obtain ⟨hea, hva, ho⟩ := (Ste.inState_iff _ _ _ _ _).1 hi
  obtain ⟨he, hv, hp⟩ := (Ste.inState_iff _ _ _ _ _).1 hj
  have hmem : a ∈ s.ste.openSteps := List.mem_filter.2 ⟨List.mem_finRange a, by rw [hi]; rfl⟩
  have hjno : j ∉ s.ste.openSteps := fun h => by
    obtain ⟨⟨e', w⟩, hw⟩ := Option.isSome_iff_exists.1 (List.mem_filter.1 h).2
    obtain ⟨-, hw, ho'⟩ := (Ste.inState_iff _ _ _ _ _).1 hw
    cases hv.symm.trans hw
    rw [hp] at ho'
    cases ho'
  obtain ⟨hstate, -, hout⟩ := ea.judge_outcome va x.time
  rw [hjudge] at hstate hout
  have hst := hout st rfl
  obtain ⟨pre, post, hsplit, hpre, hpost⟩ := nodup_split ((List.nodup_finRange 64).filter _) hmem
  have hsplit' : s.ste.openSteps = pre ++ a :: post := hsplit
  have hjpre : ∀ k ∈ pre, k ≠ j := fun k hk e => hjno (by rw [hsplit', ← e]; exact List.mem_append_left _ hk)
  have hjpost : ∀ k ∈ post, k ≠ j := fun k hk e =>
    hjno (by rw [hsplit', ← e]; exact List.mem_append_right _ (List.mem_cons_of_mem _ hk))
  have haj : j ≠ a := fun e => hjno (e ▸ hmem)
  have hev := Evaluated.foldl (offerTo_evaluated x) s pre
  have hkeepj := State.turns_leaveApart (offerTo_leavesApart x) (offerTo_evaluated x) s (i := j) pre fun k hk =>
    .of_anchored (hjpre k hk) he ha hva ho fun e => hpre (e ▸ hk)
  have hkeepa := State.turns_leaveApart (offerTo_leavesApart x) (offerTo_evaluated x) s (i := a) pre fun k hk =>
    .of_started (fun e => hpre (e ▸ hk)) fun w hw => by
      cases hva.symm.trans hw
      rw [ho]
      decide
  rw [hsplit', List.foldl_append, List.foldl_cons]
  generalize pre.foldl (offerTo x) s = y at hev hkeepj hkeepa
  have hplan := hev.frame.plan
  have hiy : y.ste.inState a .opened = some (ea, va) :=
    (Ste.inState_iff _ _ _ _ _).2 ⟨by rw [hplan]; exact hea, hkeepa.trans hva, ho⟩
  have hget : (y.setEval a va').ste.evals[a] = some va' := (State.setEval_get y a a va').trans (if_pos rfl)
  have hplan' : (y.setEval a va').ste.active = s.ste.active := hplan
  obtain ⟨u, w, hu, hw, hown⟩ := State.resolve_opens (s := y.setEval a va') 63
    ((Ste.inState_iff _ _ _ _ _).2 ⟨by rw [hplan']; exact hea, hget, hstate.trans ho⟩) (hev.frame.live.trans hl) hst
      hsuccess x.time
    ((Ste.inState_iff _ _ _ _ _).2 ⟨by rw [hplan']; exact he, (y.setEval_others a va' j haj).trans (hkeepj.trans hv), hp⟩) ha
  rw [offerTo_met hiy hm, hjudge]
  refine ⟨u, w, (hev.frame.trans (y.setEval_stepFrame a va')).trans hu, hw, hown.of_evals ?_⟩
  exact State.turns_leaveApart (offerTo_leavesApart x) (offerTo_evaluated x) _ post fun k hk =>
    .of_started (Ne.symm (hjpost k hk)) hown.started

/-- R21, R44: a PENDING step opens where the step it is anchored to is decided with success. -/
theorem State.decides_open {s : State} {a j : Fin 64} {ea e : StepEntry} {va v : StepEval} {d limit : Nat} (hl : s.live = true)
    (hi : s.ste.inState a .opened = some (ea, va)) (hd : va.decision = some d) (hle : d ≤ s.rc.timeBase)
    (hlim : s.rc.limitTime = some limit)
    (hsuccess : (s.verdictOf ea va).1.success = true) (hj : s.ste.inState j .pending = some (e, v)) (ha : e.anchor = .step a) :
    ∃ u w, StepFrame s u ∧ (u.openStep j e v (s.verdictOf ea va).2).1 = u.setEval j w ∧
      OpenedWith ((List.finRange 64).foldl decideStep s) j w (u.openStep j e v (s.verdictOf ea va).2).2 := by
  obtain ⟨hea, hva, ho⟩ := (Ste.inState_iff _ _ _ _ _).1 hi
  obtain ⟨he, hv, hp⟩ := (Ste.inState_iff _ _ _ _ _).1 hj
  obtain ⟨y, pre, post, hfold, hy, hiy, hev, hpre, -⟩ := State.decides_turn hi hd hle
  have hwait := s.decides_wait hv hp pre fun k hk hkj => .of_anchored hkj he ha hva ho fun e => hpre (e ▸ hk)
  rw [← hy] at hwait
  have haj : j ≠ a := fun e => by
    subst e
    cases hva.symm.trans hv
    rw [ho] at hp
    cases hp
  have hplan : (y.setEval a (s.decideEval ea va)).ste.active = s.ste.active := hev.frame.plan
  have hget : (y.setEval a (s.decideEval ea va)).ste.evals[a] = some (s.decideEval ea va) :=
    (State.setEval_get y a a _).trans (if_pos rfl)
  obtain ⟨u, w, hu, hw, hown⟩ := State.resolve_opens (s := y.setEval a (s.decideEval ea va)) 63
    ((Ste.inState_iff _ _ _ _ _).2 ⟨by rw [hplan]; exact hea, hget, (s.decideEval_state ea va).trans ho⟩)
    (hev.frame.live.trans hl) (s.verdictOf_outcome ea va) hsuccess (s.verdictOf ea va).2
    ((Ste.inState_iff _ _ _ _ _).2 ⟨by rw [hplan]; exact he, (y.setEval_others a _ j haj).trans hwait, hp⟩) ha
  have hframe := (hev.frame.trans (y.setEval_stepFrame a (s.decideEval ea va))).trans hu
  refine ⟨u, w, hframe, hw, ?_⟩
  have hlater := hown.later (u := u) (limit := limit) (by rw [hframe.rc]; exact hlim) hw
  rw [hfold]
  refine hown.of_evals (State.decides_kept _ (fun x hx => ?_) post)
  obtain ⟨hnp, hnd⟩ := hlater x hx
  refine ⟨hnp, fun hxo dx hdx => ?_⟩
  have htime : (State.resolve chainDepth a (s.verdictOf ea va).1 (s.verdictOf ea va).2
      (y.setEval a (s.decideEval ea va))).rc.timeBase = u.rc.timeBase := by
    rw [(State.resolve_stepFrame chainDepth a _ _ _).rc, hu.rc]
  rw [htime]
  exact hnd hxo dx hdx

end Sys2Proof.Machine

end


section
/-! PROOFS. Opening at START, at a start event, at an event's success and at a decision's (R43, R44). -/

namespace Sys2Proof.Machine

/-- R33: the look-back list and the eviction mark once the event has joined. -/
theorem State.listing_lists (s : State) (k : Nat) (x : Event) :
    (s.listing k x).ste.lookback = (if s.ste.lookback.length < 64 then s.ste.lookback else s.ste.lookback.tail) ++ [x] ∧
      (s.listing k x).ste.evictionMark =
        if s.ste.lookback.length < 64 then s.ste.evictionMark else s.ste.lookback.head?.map Event.time := by
  obtain ⟨hroom, hfull⟩ := s.listing_listed k x
  by_cases h : s.ste.lookback.length < 64
  · rw [if_pos h, if_pos h]
    exact hroom h
  · rw [if_neg h, if_neg h]
    cases hl : s.ste.lookback with
    | nil =>
      rw [hl] at h
      exact absurd (by decide) h
    | cons y ys => exact hfull y ys hl (Nat.not_lt.1 h)

/-- R43: what an opening says of the state it is told from is the time base and the debounces. -/
theorem OpensAs.of_frame {s s' t : State} {anchor limit : Nat} {list : List Event} {mark : Option Nat} {j : Fin 64}
    {e : StepEntry} {v : StepEval} (h : OpensAs s' t anchor list mark limit j e v) (htime : s'.rc.timeBase = s.rc.timeBase)
    (hmc : s'.mc = s.mc) : OpensAs s t anchor list mark limit j e v := by
  unfold OpensAs at h ⊢
  rw [htime, hmc] at h
  exact h

/-- Settles O37: each opening by its pass. -/
theorem stepsOpenAtTheirAnchor : Obligations.StepsOpenAtTheirAnchor := by
  refine ⟨fun s tag j e v ht hr hsrc he hv hp ha => ?_, fun s k x j e v hx hsource hr hstart he hv hp ha => ?_,
    fun s k x a j ea e va v lo hi limit hr hlim hx hsource hea hva ho hk hm hlo hhi h1 h2 hc he hv hp ha => ?_,
    fun s a j ea e va v lo hi d limit hr hlim hea hva ho hlo hhi hd hle he hv hp ha => ?_⟩
  · have hown : startOwner { s with mp := s.mp.pop } =
        okay (State.startRun { s with mp := s.mp.pop } s.rc.timeBase) [] := if_pos ((State.mayStart_iff _).2 ⟨hr, hsrc⟩)
    obtain ⟨m, hm, -⟩ := takeRequest_accepted (k := 0x13) (t := tag) ht rfl hown
    have h := State.startRun_opens { s with mp := s.mp.pop } s.rc.timeBase he hv hp ha
    generalize State.startRun { s with mp := s.mp.pop } s.rc.timeBase = u at hm h
    exact ⟨{ u with mp := m }, congrArg Host.Outcome.next hm, h⟩
  · have hexec := State.eventDelivery_taken hx hsource
    have hdeliver : (s.delivering k).deliver x = (s.listing k x).startRun x.time := by
      unfold State.deliver
      rw [show (s.delivering k).rc.runState = .armed from hr]
      exact if_pos ((StartSource.startedBy_iff _ _).2 hstart)
    obtain ⟨hlook, hmark⟩ := s.listing_lists k x
    have heq := s.listing_eq k x
    have h := (s.listing k x).startRun_opens x.time (j := j) (e := e) (v := v) (by rw [heq]; exact he)
        (by rw [heq]; exact hv) hp ha
    rw [hlook, hmark, show (s.listing k x).rc = s.rc by rw [heq]] at h
    rw [hdeliver] at hexec
    exact ⟨_, hexec, h.of_frame (by rw [heq]) (by rw [heq])⟩
  · have hexec := State.eventDelivery_taken hx hsource
    have heq := s.listing_eq k x
    have hopen : (s.listing k x).ste.inState a .opened = some (ea, va) := by
      rw [heq]
      exact (Ste.inState_iff _ _ _ _ _).2 ⟨hea, hva, ho⟩
    have hpending : (s.listing k x).ste.inState j .pending = some (e, v) := by
      rw [heq]
      exact (Ste.inState_iff _ _ _ _ _).2 ⟨he, hv, hp⟩
    have hlive : (s.listing k x).live = true := by
      rw [heq]
      exact State.live_of (.inr hr)
    have hdeliver : (s.delivering k).deliver x =
        ((s.listing k x).ste.openSteps.foldl (offerTo x) (s.listing k x)).closePass := by
      unfold State.deliver
      rw [show (s.delivering k).rc.runState = .running from hr]
      rfl
    obtain ⟨u, w, hu, hw, hown⟩ := State.offers_open hlive hopen hm
      (by rw [StepEntry.judge_within hk hlo hhi h1 h2, if_pos hc]) rfl hpending ha
    obtain ⟨hlook, hmark⟩ := s.listing_lists k x
    rw [hdeliver] at hexec
    generalize (s.listing k x).ste.openSteps.foldl (offerTo x) (s.listing k x) = t at hexec hown
    have hown' : OpenedWith t.closePass j w (u.openStep j e v x.time).2 := hown
    obtain ⟨z, hz, hzp, hzanchor⟩ := hown'.anchored hw
    refine ⟨t.closePass, z, hexec, hz, hzp, hzanchor, ?_⟩
    rw [← hlook, ← hmark, ← hu.lookback, ← hu.evictionMark]
    refine OpensAs.of ?_ ?_ ?_ hw hown'
    · rw [hu.rc, heq]
    · rw [hu.mc, heq]
    · rw [hu.rc, heq]
      exact hlim
  · have hopen : s.ste.inState a .opened = some (ea, va) := (Ste.inState_iff _ _ _ _ _).2 ⟨hea, hva, ho⟩
    have hpending : s.ste.inState j .pending = some (e, v) := (Ste.inState_iff _ _ _ _ _).2 ⟨he, hv, hp⟩
    have hlive : s.live = true := State.live_of (.inr hr)
    have hexec : exec .decisionTime s = .next s.decideAll :=
      congrArg Host.Outcome.next (if_pos (s.decisionsDue_iff.2 ⟨hr, a, ea, va, hea, hva, ho, d, hd, hle⟩))
    have hkeeps : s.decideAll.ste.evals = ((List.finRange 64).foldl decideStep s).ste.evals := by
      unfold State.decideAll
      rw [State.closePass_eq]
    have hopens : ∀ st time, s.verdictOf ea va = (st, time) → st.success = true →
        OpensAs s s.decideAll time s.ste.lookback s.ste.evictionMark limit j e v := fun st time hverdict hst => by
      obtain ⟨u, w, hu, hw, hown⟩ := State.decides_open hlive hopen hd hle hlim (by rw [hverdict]; exact hst) hpending ha
      rw [hverdict] at hw hown
      rw [← hu.lookback, ← hu.evictionMark]
      exact OpensAs.of (by rw [hu.rc]) hu.mc (by rw [hu.rc]; exact hlim) hw (hown.of_evals (by rw [hkeeps]))
    refine ⟨s.decideAll, hexec, fun hg => hopens _ _ (s.verdict_guard hg (hhi (by rw [hg]; decide))) rfl, fun hc hmatched => ?_⟩
    have hverdict := s.verdict_check (v := va) hc hlo
    obtain ⟨ra, hra, hstate⟩ := hmatched
    obtain ⟨r, hr', -⟩ := State.decides_resolved hlive hopen hd hle
    rw [hkeeps] at hra
    cases hr'.symm.trans hra
    rw [hverdict] at hstate
    refine hopens .matched lo ?_ rfl
    rw [hverdict]
    exact Prod.ext hstate rfl

end Sys2Proof.Machine

end
